-- ==== Sys2Proof/Word.lean ====
section
/-!
DEFINITION. The plain bit-vector names of the model: a byte, a 32-bit register word and a 64-bit word (R12, R15).
-/

namespace Sys2Proof

/-- A byte, the unit of every address of the CQ25 (R376). -/
abbrev Byte := BitVec 8

/-- A register is 32 bits wide (00_scope.md, "Registers and objects"). -/
abbrev W32 := BitVec 32

/-- A 64-bit word: arguments of commands, stamps, step counters (R14, R215, R335). -/
abbrev W64 := BitVec 64

end Sys2Proof
end

