-- ==== Sys2Proof/Syntax.lean ====
section
/-!
DEFINITION. The commands of the block: one constructor of Instr for each row of the table of operations and events, with
the operands the spec gives the row. Indices that the spec bounds (a die, a region, a slot, a queue, a session number) are
bounded by their type, so a command that names a unit that does not exist cannot be written.
-/

namespace Sys2Proof

/-- A die index d = 5y + x, from 0 to 24 (R20). -/
abbrev Die := Fin 25

/-- The principal die, die 12 (R20). -/
def principal : Die := 12

/-- A physical cluster d.r.s (R21). -/
structure ClusterId where
  die    : Die
  region : Fin 8
  slot   : Fin 17
  deriving DecidableEq, Repr

/-- A fetch queue of a cluster's fetch engine (R258). -/
abbrev FetchNo := Fin 64

/-- A host queue, 0 to 1,023 (R331). -/
abbrev QueueNo := Fin 1024

/-- A session number, 0 to 4,095 (R326). -/
abbrev SessionNo := Fin 4096

/-- A semaphore of a die, 0 to 8,191 (R24). -/
abbrev SemNo := Fin 8192

/-- A channel of an entropy unit of a die (R79). -/
structure ChannelId where
  die  : Die
  unit : Fin 8
  chan : Fin 4
  deriving DecidableEq, Repr

/-- One of the 40 Mboholt links, by its package number (R389). -/
abbrev LinkNo := Fin 40

/-- A firmware processor of a die: 0 scheduler, 1 service, 2 health, 3 session core (R418). -/
abbrev ProcNo := Fin 4

/-- Who writes a register (R230, R289, R483 tell writers apart). -/
inductive Agent where
  | host | scheduler | service | health | sessionCore
  deriving DecidableEq, Repr

/-- The two pipes of an execute engine (R201). -/
inductive Pipe where
  | unit | finish
  deriving DecidableEq, Repr

/-- The protected path on which a parity error of a cluster arises: the first four rows of R444. -/
inductive ParityPath where
  | fetch | unit | finish | instr
  deriving DecidableEq, Repr

/-- What the hardware detects as an instruction completes: nothing, a parity error (R445), an uncorrectable ECC error of
a store line (R229) or a corrected one; or a parity error outside the pipes, of an instruction as the engine reads it or of the fetch engine. -/
inductive CompleteEvent where
  | clean
  | parity (path : ParityPath)
  | storeUE (line : Fin 8192)
  | storeCE (line : Fin 8192)
  | apart (path : ParityPath)
  deriving DecidableEq, Repr

/-- A card that die 12 appends to the archive (R460): of which die, and whether the flash takes it (R483). -/
structure ArchiveWrite where
  die : Die
  ok  : Bool := true
  deriving DecidableEq, Repr

/-- What a vote replay of a tile-step gives (R143, R455): its result digest, a trap of its own, or nothing because it met a
parity error, an uncorrectable line of the replay window, or no usable region. -/
inductive Replay where
  | digest (value : W64)
  | trapped
  | none
  deriving DecidableEq, Repr

/-- A waiter on a semaphore: an execute engine, a fetch queue or an entropy-unit channel (R220, R275). -/
inductive Waiter where
  | engine (c : ClusterId)
  | fetch (c : ClusterId) (q : FetchNo)
  | channel (ch : ChannelId)
  deriving DecidableEq, Repr

/-- What the memory behind a request reports (R368, R374): nothing, a corrected error, a burst that needed n EDC retries
and then passed, an uncorrectable line, or a burst still failing after 4 retries. -/
inductive MemEvent where
  | clean
  | corrected
  | retried (n : Fin 5)
  | uncorrectable
  | edcFail
  deriving DecidableEq, Repr

/-- What the memory reports for one line of a request: its source or its destination, and the line's place among those that the request touches there
(R368, R386). -/
structure LineEvent where
  dst  : Bool
  line : Nat
  ev   : MemEvent
  deriving DecidableEq, Repr

/-- The registers that EXE_CONFIG_WRITE writes: EXE_SESSION, EXE_LIST_*, EXE_WAIT_LIMIT and EXE_CTRL.ORDERED (R229, R230). -/
inductive ExeConfig where
  | session | listBase | listSize | listSem | listLen | waitLimit | ordered
  deriving DecidableEq, Repr

/-- The lane-context registers ENT_LC_* of R106, in the order of their offsets. -/
inductive LaneReg where
  | low | range | cache | pend | pos | offset | len | syms
  deriving DecidableEq, Repr

/-- What a scrub read of a store line or of a GDDR7 line finds (R355, R367). -/
inductive ScrubResult where
  | clean | corrected | uncorrectable
  deriving DecidableEq, Repr

/-- A partner found by link training: none, a CQ25 or an MHA-4 (R391). -/
inductive Partner where
  | none
  | cq25 (group : BitVec 16) (device : Fin 32) (link : LinkNo)
  | mha4 (adapter : BitVec 16) (port : Fin 2)
  deriving DecidableEq, Repr

/-- What the training of one link finds (R390, R391): the lane sets that work, the partner's identity word and the
measured round trip in ns. -/
structure Training where
  link    : LinkNo
  lowOk   : Bool
  highOk  : Bool
  partner : Partner
  rttNs   : Nat
  deriving DecidableEq, Repr

/-- What GDDR7 training finds on one die: for each device its density code (0 failed, 1 24 Gbit, 2 32 Gbit; R363, R387). -/
structure GddrTraining where
  die  : Die
  dev0 : Fin 3
  dev1 : Fin 3
  deriving DecidableEq, Repr

/-- What CXL training finds on one port: its width in lanes (0 down, 8 or 16) and the expander's capacity in GiB
(R372, R373). -/
structure CxlTraining where
  port  : Fin 4
  width : Nat
  gib   : Nat
  deriving DecidableEq, Repr

/-- A state of the EtherCAT state machine that a master may request (R488). -/
inductive AlState where
  | init | preOp | bootstrap | safeOp | op
  deriving DecidableEq, Repr

/-- A setting of a sync manager (its start address and length) or of an FMMU (its logical start address, length and physical start address), which the
master writes (R486). -/
inductive EscSet where
  | syncManager (k start len : Nat)
  | fmmu (k logical len physical : Nat)
  deriving DecidableEq, Repr

/-- An access to the SII of the slave (R486, R488): a word of the identity table is read; a write is ignored. -/
inductive SiiAsk where
  | read (word : Nat)
  | write (word : Nat) (v : BitVec 16)
  deriving DecidableEq, Repr

/-- What a frame asks of the slave: to insert the inputs of the TxPDO, to take the station address and the settings that the master writes, and an
access to its SII (R486, R490, R506). -/
structure FrameAsk where
  inputs  : Bool
  station : Option (BitVec 16) := none
  setup   : List EscSet := []
  sii     : Option SiiAsk := none
  deriving DecidableEq, Repr

/-- The place of a segment in a download: its initiation, or a later segment with its toggle bit (R494, R502). -/
inductive Segment where
  | initiate
  | next (toggle : Bool)
  deriving DecidableEq, Repr

/-- An SDO upload: its initiation for a sub-index, or the request of a further segment with its toggle bit (R486, R494). -/
inductive UploadAsk where
  | initiate (sub : BitVec 8)
  | next (toggle : Bool)
  deriving DecidableEq, Repr

/-- The CoE types of R492. -/
inductive CoeType where
  | boolean | integer16 | unsigned8 | unsigned16 | unsigned32 | unsigned64 | visibleString | octetString | domain
  deriving DecidableEq, Repr

/-- The SDO information services (R486). -/
inductive SdoInfo where
  | objectList
  | objectDescription (index : BitVec 16)
  | entryDescription (index : BitVec 16) (sub : BitVec 8)
  deriving DecidableEq, Repr

/-- The commands that the PMBus master uses (R511), and a read of the SMBus alert response address (R512). -/
inductive PmbusCommand where
  | operation | clearFaults | voutMode | voutCommand | readVout | readIout | readTemperature1 | readPout | statusWord | statusVout | statusIout
  | statusTemperature | alertResponse
  deriving DecidableEq, Repr

/-- What a regulator answers: VOUT_MODE, READ_VOUT in the linear16 form of that mode, READ_IOUT in 1/16 A, and STATUS_WORD (R511, R526). -/
structure RailAnswer where
  mode   : BitVec 8
  vout   : BitVec 16
  iout   : BitVec 16
  status : BitVec 16
  deriving DecidableEq, Repr

/-- One reading of a regulator over PMBus (R511, R512): none when the transaction failed, and whether by a packet error. -/
structure RailReading where
  address : BitVec 7
  answer  : Option RailAnswer
  pec     : Bool
  deriving DecidableEq, Repr

/-- A latent of a slice as the encoder has it when the slice is coded (R129, R130): the code that the quantiser produced with the mean
and scale under which it costs, and the mean and scale that the context model gives it when its tile is capped (R131). -/
structure LatentSym where
  code     : BitVec 8
  mu       : BitVec 16
  sigma    : BitVec 16
  capMu    : BitVec 16
  capSigma : BitVec 16
  deriving DecidableEq, Repr

/-- A lane descriptor table in a die's buffer: the die and its offset inside the session's window (R99, R100). -/
structure LaneTable where
  die    : Die
  offset : BitVec 24
  deriving DecidableEq, Repr

/-- Management traffic between principal dies (R414): the weight digests of a device for a session (R468), an exam library (R481), or the abort of the
channel pair of a link with the status of its session (R412; notes/assumptions/83.md). -/
inductive Management where
  | digests (device : Fin 32) (s : SessionNo) (values : List (List Byte))
  | library (bytes : List Byte)
  | abort (ch : Fin 32) (status : Nat)
  deriving DecidableEq, Repr

/-- The commands, one constructor for each row of the table. -/
inductive Instr where
  -- instructions of a list, issued by the execute engine of a cluster (07, R205 to R223)
  | nop (c : ClusterId)
  | endList (c : ClusterId)
  | step (c : ClusterId)
  | mmInt (c : ClusterId)
  | mmLut (c : ClusterId)
  | mmFloat (c : ClusterId)
  | tbuild (c : ClusterId)
  | fnload (c : ClusterId)
  | convInt (c : ClusterId)
  | convLut (c : ClusterId)
  | convFloat (c : ClusterId)
  | pool (c : ClusterId)
  | resample (c : ClusterId)
  | requant (c : ClusterId)
  | ewInt (c : ClusterId)
  | ewFloat (c : ClusterId)
  | ffn (c : ClusterId)
  | softmax (c : ClusterId)
  | norm (c : ClusterId)
  | lquant (c : ClusterId)
  | lrecon (c : ClusterId)
  | lstat (c : ClusterId)
  | cdf (c : ClusterId)
  | feedpack (c : ClusterId)
  | rng (c : ClusterId)
  | sem (c : ClusterId)
  | efeed (c : ClusterId)
  | eres (c : ClusterId)
  | fetchArm (c : ClusterId)
  -- the execute engine, its events and its registers (07, R217 to R230)
  | instructionComplete (c : ClusterId) (p : Pipe) (ev : CompleteEvent)
  | semWaitSatisfied (w : Waiter)
  | semPostArrive (at_ : Nat)
  | waitTimeout (w : Waiter)
  | exeStart (c : ClusterId)
  | halt (c : ClusterId)
  | pauseReq (c : ClusterId)
  | exeResume (c : ClusterId)
  | islandEnWrite (by_ : Agent) (c : ClusterId) (v : W32)
  | exeConfigWrite (c : ClusterId) (r : ExeConfig) (v : W32)
  | storeScrub (c : ClusterId) (line : Fin 8192) (found : ScrubResult)
  -- the fetch engine and the semaphores (09)
  | arm (c : ClusterId)
  | fetQAbort (c : ClusterId) (q : FetchNo)
  | fetDescWrite (c : ClusterId) (word : Fin 32) (v : W32)
  | fetCtrlEnable (c : ClusterId) (v : W32)
  | deliveryRowStart (c : ClusterId) (q : FetchNo)
  | fetchRequestIssue (c : ClusterId) (q : FetchNo)
  | fetchRequestReturn (c : ClusterId) (q : FetchNo) (k : Nat) (evs : List LineEvent)
  | semValWrite (d : Die) (sem : SemNo) (v : W32)
  | semPost (d : Die) (sem : SemNo) (v : W32)
  -- the entropy units (03)
  -- parity: the unit meets a parity error in a lane context or a side table as it takes the record (R107, R444)
  | latent (ch : ChannelId) (parity : Bool)
  | latentCdf (ch : ChannelId) (parity : Bool)
  | side (ch : ChannelId) (parity : Bool)
  | segmentStart (ch : ChannelId)
  | segmentEnd (ch : ChannelId)
  | entResultWrite (ch : ChannelId)
  | entChAbort (ch : ChannelId)
  | entChEnable (ch : ChannelId)
  | laneContextWrite (ch : ChannelId) (lane : Fin 8) (r : LaneReg) (v : W32)
  | sideTableWrite (d : Die) (unit : Fin 8) (table : Fin 128) (k : Fin 64) (v : BitVec 16)
  -- the stream: units received by a decoder, units emitted by an encoder (04)
  | streamUnit (s : SessionNo)
  | pictureUnit (s : SessionNo)
  | sliceUnit (s : SessionNo)
  | closeUnit (s : SessionNo)
  | droppedPictureUnit (s : SessionNo)
  | crcError (s : SessionNo)
  | unknownUnit (s : SessionNo)
  | sliceEmit (s : SessionNo) (sideLanes lanes : LaneTable) (latents : List LatentSym)
  | closeUnitEmit (s : SessionNo)
  -- the host's commands, executed from the front of a queue (11)
  | createQueue (q : QueueNo)
  | deleteQueue (q : QueueNo)
  | test (q : QueueNo)
  | openSession (q : QueueNo)
  | closeSession (q : QueueNo)
  | submit (q : QueueNo)
  | withdraw (q : QueueNo)
  | refresh (q : QueueNo)
  | pause (q : QueueNo)
  | resume (q : QueueNo)
  | query (q : QueueNo)
  | bell (q : QueueNo)
  -- queues, jobs and bells (11)
  | fwcSqTailWrite (q : QueueNo) (v : W32)
  | fwcCqHeadWrite (q : QueueNo) (v : W32)
  | jobDispatch (s : SessionNo)
  | bellRing (s : SessionNo)
  | loadUpdate (d : Die) (busy active gddrUsed gddrMax : Nat)
  -- sampled duplicates, cards, drain, exams (15)
  | duplicateCompare (c : ClusterId) (t : Fin 2) (checker : W64)
  | voteDecide (c : ClusterId) (t : Fin 2) (a b : Replay) (result : List (List (Nat × Byte)))
  | drainNow (by_ : Agent)
  | clearRecord (by_ : Agent)
  | drainRecordWrite
  | cardArchive (w : ArchiveWrite)
  | weightDigestCheck (s : SessionNo) (d : Die) (k : Nat)
  | examStart (c : ClusterId)
  | examComplete (c : ClusterId) (pass : Bool)
  | hltLibGo
  | libInstallComplete (flashOk : Bool)
  -- firmware (14)
  | fwcBootGo
  | procReady (d : Die) (p : ProcNo)
  | dieTimeout (d : Die)
  | procFail (d : Die) (p : ProcNo)
  | watchdog (d : Die) (p : ProcNo) (pc : W32)
  | protection (d : Die) (p : ProcNo) (pc addr : W32)
  | memoryUe (d : Die) (p : ProcNo) (pc : W32)
  | illegal (d : Die) (p : ProcNo) (pc : W32)
  | restart (d : Die) (p : ProcNo) (pc : W32)
  | procRestartDone (d : Die) (p : ProcNo)
  | fwcActGo
  | fwcActAbort
  | actCommit
  | emergencyTimeout
  | actConfirm
  -- start-up and resets (19)
  | packageReset
  | resetNRise
  | fwcPkgReset (v : W32)
  | startupHardwareDone (identityOk : Bool)
  | linkTrainingDone (found : List Training)
  | librarySelect
  | startupExamsDone (failed : List ClusterId)
  | gddr7TrainingDone (gddr : List GddrTraining) (cxl : List CxlTraining)
  | chartBuild
  | fwcAdminEnable
  | fwcPartReset
  | partitionReady (d : Die)
  -- memory (12)
  | serviceFaultReport (c : ClusterId) (q : FetchNo)
  | faultResponse (d : Die) (v : W32)
  | faultGiveUp (d : Die) (v : W32)
  | faultLimitExpiry (d : Die) (id : W32)
  | memFaultHeadWrite (d : Die) (v : W32)
  | memInvGo (d : Die)
  | invalidationComplete (d : Die)
  | sramApertureWrite (by_ : Agent) (entry : Die) (addr : Nat) (data : List Byte)
  | gddr7Refresh (d : Die) (temp0 temp1 : BitVec 8) (patrol : Option (Nat × ScrubResult))
  | cxlLinkDown (port : Fin 4)
  | cxlRetrainDone (port : Fin 4) (width : Nat)
  -- links (13)
  | flitReceive (l : LinkNo) (flit : List Byte)
  | readReq (l : LinkNo) (addr len : Nat)
  | readData (l : LinkNo) (addr : Nat) (data : List Byte) (poison : List Bool) (error : Bool)
  | write (l : LinkNo) (addr : Nat) (data : List Byte) (poison : Bool)
  | msg (l : LinkNo) (isWrite : Bool) (d : Die) (off : BitVec 24) (v : W32)
  | ack (l : LinkNo) (writes : Nat) (chan : Option (Fin 32 × Nat))
  | chan (l : LinkNo) (ch : Fin 32) (line : List Byte)
  | mgmt (l : LinkNo) (m : Management)
  | chanLineSend (l : LinkNo) (ch : Fin 32)
  | linkSilenceTimeout (l : LinkNo)
  | laneLockLoss (l : LinkNo)
  | linkTrainDone (found : Training)
  | retrain (l : LinkNo)
  | hostRouteTimeout (d : Die)
  | usingSecondaryClear (d : Die)
  | lnkChEnable (l : LinkNo)
  | lnkChAbort (l : LinkNo)
  | lnkHoldExpiry (l : LinkNo)
  -- power, clocks and thermal limits (17)
  | pmbusPoll (readings : List RailReading)
  | pmbAlert (address : BitVec 7) (status : BitVec 16)
  | refclkLost (d : Die)
  | limiterPeriod (dieEighths : List Nat) (memEighths : Nat) (avgWatts : Nat)
  | capCeilingStep (d : Die)
  | capFallback (d : Die)
  | thermalCeilingStep (d : Die) (sensors : List (BitVec 16))
  | thermalTrip (d : Die)
  | thermtripN (d : Die)
  | pwrFreqReqWrite (d : Die) (v : W32)
  | pwrVregWrite (d : Die) (v : W32)
  -- EtherCAT (16)
  | alStateRequest (want : AlState) (setup : List EscSet)
  | sdoUpload (index : BitVec 16) (ask : UploadAsk)
  | sdoDownload (index : BitVec 16) (sub : BitVec 8) (data : List Byte)
  | sdoInformation (what : SdoInfo)
  | sdoSegmentTimeout
  | ectFrame (port : Fin 2) (crcOk : Bool) (asks : FrameAsk) (mailbox : Bool)
  | mirrorRefresh
  | login (key : List Byte)
  | logout
  | loginIdleTimeout
  | lockExpiry
  | txpdoMappingWrite (sub : BitVec 8) (v : W32)
  | testAction (v : BitVec 8)
  | odRefresh (slot : Fin 64)
  | stop (slot : Fin 64)
  | clearDrainRecord (v : W32)
  | odDrainNow (v : W32)
  | libStage (place : Segment) (last : Bool) (data : List Byte)
  | libInstall
  | ectKeyCommit
  | ectKeyClear
  -- identity and attestation (18), and the register access codes (00)
  | secAttGo
  | attSignDone (ms : BitVec 16) (hostOk : Bool)
  | secRevGo
  | registerReadClear (d : Die) (off : BitVec 24)
  | registerWrite (by_ : Agent) (d : Die) (off : BitVec 24) (v : W32)
  | vddAuxRemoved
  | packageResetRelease
  | revocationComplete (blown : Nat)
  | portLinkChange (port : Fin 2) (up : Bool)
  | rngHealthFail (d : Die)
  | secRngRefill (d : Die)
  deriving DecidableEq, Repr

end Sys2Proof
end

