-- ==== Sys2Proof/Decode.lean ====
section
/-!
DEFINITION. Decoding of table words. The table of operations and events gives its rows no bits: the block has no instruction
word of its own, so no word spells a command. The 128-bit instructions of a list, the host's 64-byte commands and every record are
read by Machine/Operands.lean and by the families that take them.
-/

namespace Sys2Proof

/-- The command that a word spells by the table's bits: none, since no row of the table has bits. -/
def decodeTableWord (_nbits _w : Nat) : Option Instr := none

end Sys2Proof
end

