-- ==== Sys2Proof/Config.lean ====
section
/-!
DEFINITION. What a part or its firmware fixes and the manual leaves open: fused values, functions that the manual names without
giving their values, and the free values. Each constant is opaque: no proof can see a value of it (notes/assumptions/1.md to 6.md).
-/

namespace Sys2Proof.Config

/-- The k-th value that the manual leaves open in a run; State.fresh counts them. -/
opaque freeValue : Nat → W64

/-! ### Fuses (R1 to R5, R530 to R535) -/

/-- The part is of grade B. -/
opaque gradeB : Bool

/-- The part is of stepping S2. -/
opaque steppingS2 : Bool

/-- The serial number of the part. -/
opaque serial : W64

/-- Regions disabled in manufacture, at most 6 of them (R3); the first entry of a die counts. -/
opaque fusedEntry : Fin 6 → Option (Fin 25 × Fin 8)

/-- VOP of a region in mV, as an offset above 700, at most 90 (R510). -/
opaque vopOffset : Nat → Nat → Fin 91

/-- Public keys of the key slots: set 0 firmware, set 1 exam; none when the slot is not programmed (R533 to R535). -/
opaque keySlot : Fin 2 → Fin 4 → Option (Vector Byte 64)

/-- Key slots revoked before the part was shipped (R535). -/
opaque keyRevoked : Fin 2 → Fin 4 → Bool

/-- The device's public key (R531). -/
opaque devicePublicKey : Vector Byte 64

/-! ### Signatures (R528, R538) -/

/-- SLH-DSA-SHAKE-256s verification: public key, message, signature (FIPS 205). -/
opaque slhVerify : List Byte → List Byte → List Byte → Bool

/-- The signature that the device's secret key makes over a message, byte by byte (R538). -/
opaque attestSignature : List Byte → Nat → Byte

/-! ### Float functions of the finish unit (R157), for finite operands -/

/-- The approximations, by function number and FP32 pattern. -/
opaque floatFunction : Nat → W32 → W32

/-- The unit, by its place among those of UNITS, in which a term of a float reduction is added: by the instruction, its record, the output channel
and the term's place (R296, R297). -/
opaque floatPart : BitVec 128 → List Byte → Nat → Nat → Nat

/-- Which of the partial sums still to come arrives next in free mode, by the count of open values, the output element and how many wait (R296). -/
opaque arrival : Nat → Nat → Nat → Nat

/-- The source format of a conversion by EW_FLOAT (R156). -/
opaque finishSource : BitVec 128 → List Byte → Nat

/-! ### Packets of a link (R392, R394) -/

/-- Byte i of the payload of a packet, by its kind, its address, its data and its poison bits. -/
opaque packetByte : Nat × Nat × List Byte × List Bool → Nat → Byte

/-! ### Selections that the manual gives an instruction without laying them out in its record (R207) -/

/-- The operation of EW_INT and EW_FLOAT (0 add, 1 subtract, 2 multiply, 3 minimum, 4 maximum, 5 rshift or conversion), the function of FFN and
of NORM, and the length of a row, by the instruction and its record. -/
opaque finishSelect : BitVec 128 → List Byte → Nat

/-- The store offset of the second operand of EW_INT and EW_FLOAT. -/
opaque finishSecond : BitVec 128 → List Byte → Nat

/-- The scale group of an element of a latent tensor, and the record kind and fields that FEEDPACK writes around it. -/
opaque latentGroup : BitVec 128 → List Byte → Nat → Nat
opaque feedHeader : BitVec 128 → List Byte → Nat → W64

/-- The function table that FNLOAD loads. -/
opaque fnTable : BitVec 128 → List Byte → Nat

/-! ### Codec networks (R60, R127) -/

/-- The synthesis of a codec image: its codec digest, the quality Q it is passed, the scale of each group, the side lanes, the lanes of each
slice that is coded, the planes of each reference; then the plane, row and column of an element. An image's networks are not the spec's. -/
opaque synthesis : List Byte → Nat → List Nat → List (List Byte) → List (List (List Byte)) → List (List (List (List Int))) → Nat × Nat × Nat
    → BitVec 24

/-- The lowest slice whose codes a tile-step of an image affects: the image's digest, the logical cluster and the instruction at which the
tile-step began (R119). -/
opaque sliceOf : List Byte → Nat → Nat → Nat

/-! ### Digests, and boundary scan (R320, R559) -/

/-- The share of a digest's bytes that the data engine of a die absorbs, by the die, the mask of dies and the bytes (R228, R320). -/
opaque digestShare : Nat → Nat → Nat → Nat

/-- The lands of a die's boundary register, nearest TDO first, and which instruction an opcode of a TAP is: 1 IDCODE, 2 SAMPLE/PRELOAD, 3 EXTEST, else
BYPASS. -/
opaque boundaryLands : Nat → List Nat
opaque tapCode : BitVec 8 → Nat

/-! ### Streams of weights and scales (R194) -/

/-- The fetch queue that carries the scale stream of a weight queue, and of an operand in the store (64). -/
opaque scaleQueue : Nat → Nat

/-- Entry e of the codebook of a W4 or W8 operand whose instruction names no block, which the manual does not give. -/
opaque codebookEntry : Nat → BitVec 8

/-! ### Images and save records -/

/-- Bodies of the sections of types 0x02, 0x03, 0x05 and 0x06, whose layout the manual does not give: the store offset that a
preload goes to, the device-virtual range of a weight section, the table number of a side table, and word k of a codec block. -/
opaque preloadOffset : List Byte → Nat
opaque weightTarget : List Byte → Nat × Nat
opaque sideTable : List Byte → Nat → Nat
opaque codecWord : List Byte → Nat → Nat

/-- Byte i of the body of the k-th save record, and what it takes beyond the stores and windows (R313). -/
opaque saveBody : Nat → Nat → Byte
opaque saveExtra : List Byte → Nat

/-- The words of the SII identity table (R486, R488), and the names of the dictionary's records (R498), which the spec does not state. -/
opaque siiWord : Nat → BitVec 16
opaque recordName : Nat → String

end Sys2Proof.Config
end

