-- ==== Sys2Proof/Machine/Codes.lean ====
section
/-!
DEFINITION. The numbers that the spec gives names to and that several families use: completion kinds (R338), status codes
(R339), engine and queue states (R230, R289), report-card kinds (R458) and translation faults (R383).
-/

namespace Sys2Proof.Machine

/-! ### Status codes (R339) -/
namespace St
abbrev ok : Nat := 0
abbrev imageBadHeader : Nat := 0x0101
abbrev imageBadDigest : Nat := 0x0102
abbrev imageBadRegion : Nat := 0x0103
abbrev imageTooLarge : Nat := 0x0104
abbrev imageBadOpcode : Nat := 0x0105
abbrev imageBadFormat : Nat := 0x0106
abbrev imageBadClass : Nat := 0x0107
abbrev imageBadRecord : Nat := 0x0108
abbrev imageBadPair : Nat := 0x0109
abbrev imageBadQpb : Nat := 0x010A
abbrev imageBadSem : Nat := 0x010B
abbrev imageBadCdfTable : Nat := 0x010C
abbrev imageSizeMismatch : Nat := 0x010D
abbrev badCodecParam : Nat := 0x0201
abbrev badPictureLayout : Nat := 0x0202
abbrev wsfModelMismatch : Nat := 0x0203
abbrev exeAccOverflow : Nat := 0x0301
abbrev exeDivZero : Nat := 0x0302
abbrev exeBadQpb : Nat := 0x0303
abbrev exeBadOpcode : Nat := 0x0304
abbrev exeBadRecord : Nat := 0x0305
abbrev exeStoreBounds : Nat := 0x0306
abbrev exeSemOverflow : Nat := 0x0307
abbrev exeWaitTimeout : Nat := 0x0308
abbrev exeNanTrap : Nat := 0x0309
abbrev fetBadDesc : Nat := 0x0401
abbrev fetDstFault : Nat := 0x0402
abbrev entBadFeed : Nat := 0x0501
abbrev entFeedOrder : Nat := 0x0502
abbrev entLaneOverflow : Nat := 0x0503
abbrev poisonConsumed : Nat := 0x0601
abbrev resumeImageMismatch : Nat := 0x0701
abbrev resumeFormat : Nat := 0x0702
abbrev badCommand : Nat := 0x0801
abbrev badQueue : Nat := 0x0802
abbrev noSession : Nat := 0x0803
abbrev sessionLimit : Nat := 0x0804
abbrev liveLimit : Nat := 0x0805
abbrev admissionLimit : Nat := 0x0806
abbrev badPartition : Nat := 0x0807
abbrev deviceDrained : Nat := 0x0808
abbrev partitionReset : Nat := 0x0809
abbrev jobNotFound : Nat := 0x080A
abbrev sessionEnded : Nat := 0x080B
abbrev saveTooSmall : Nat := 0x080C
end St

/-! ### Completion kinds (R338) -/
namespace Ck
abbrev done : Nat := 1
abbrev slice : Nat := 2
abbrev final : Nat := 3
abbrev dropped : Nat := 4
abbrev error : Nat := 5
abbrev sessionEnd : Nat := 6
end Ck

/-! ### Engine states of EXE_STATUS [2:0] (R230) -/
namespace Ex
abbrev idle : Nat := 0
abbrev running : Nat := 1
abbrev waiting : Nat := 2
abbrev paused : Nat := 3
abbrev halted : Nat := 4
abbrev ended : Nat := 5
end Ex

/-! ### Fetch-queue states of FET_Q_STATUS [2:0] (R289) -/
namespace Fq
abbrev idle : Nat := 0
abbrev creditWait : Nat := 1
abbrev active : Nat := 2
abbrev parkedFault : Nat := 3
abbrev parkedPause : Nat := 4
end Fq

/-! ### Host-queue states of FWC_Q_STATUS [1:0] (R341) -/
namespace Qs
abbrev unused : Nat := 0
abbrev active : Nat := 1
abbrev stalled : Nat := 2
abbrev deletedByReset : Nat := 3
end Qs

/-! ### Translation faults (R383) -/
namespace Fk
abbrev notValid : Nat := 1
abbrev notWritable : Nat := 2
abbrev badTarget : Nat := 3
abbrev badEntry : Nat := 4
end Fk

/-! ### Report cards (R458) -/
namespace Card
abbrev wrongResult : Nat := 1
abbrev checkWrong : Nat := 2
abbrev parityFetch : Nat := 3
abbrev parityUnit : Nat := 4
abbrev parityFinish : Nat := 5
abbrev parityInstr : Nat := 6
abbrev accOverflow : Nat := 7
abbrev divZero : Nat := 8
abbrev undecided : Nat := 9
abbrev entParity : Nat := 10
abbrev diebufUe : Nat := 11
abbrev memEdcFail : Nat := 12
abbrev memUncorrectable : Nat := 13
abbrev poisonDirFull : Nat := 14
abbrev examFail : Nat := 15
abbrev weightCopy : Nat := 16
abbrev replicaExpelled : Nat := 17
abbrev replicaSplit : Nat := 18
abbrev procFailed : Nat := 19
abbrev drainRequested : Nat := 20
end Card

/-! ### Processor states (R442) and processors (R418) -/
namespace Ps
abbrev stopped : Nat := 0
abbrev starting : Nat := 1
abbrev running : Nat := 2
abbrev restarting : Nat := 3
abbrev failed : Nat := 4
end Ps

abbrev scheduler : Nat := 0
abbrev serviceCore : Nat := 1
abbrev healthCore : Nat := 2
abbrev sessionCore : Nat := 3

/-- The mark of a record that concerns no session (R434, R459). -/
def noSessionMark : Nat := 0x8000

end Sys2Proof.Machine
end

