-- ==== Sys2Proof/Machine/Bits.lean ====
section
/-!
DEFINITION. Fields of words, byte orders, signed readings, checksums and the generator permutation: the plain arithmetic the
meanings share. A field [hi:lo] of a value v is (v >> lo) and (2^(hi-lo+1) - 1), as R11 says.
-/

namespace Sys2Proof.Machine

/-- The field [hi:lo] of a number (R11). -/
def fieldN (v hi lo : Nat) : Nat := v / 2 ^ lo % 2 ^ (hi - lo + 1)

/-- Bit n of a number. -/
def bitN (v n : Nat) : Bool := v / 2 ^ n % 2 == 1

/-- The number v with its field [hi:lo] replaced by x, x cut to the field. -/
def setFieldN (v hi lo x : Nat) : Nat :=
  v - fieldN v hi lo * 2 ^ lo + x % 2 ^ (hi - lo + 1) * 2 ^ lo

/-- The field [hi:lo] of a register (R11). -/
def getF (v : W32) (hi lo : Nat) : Nat := fieldN v.toNat hi lo

/-- The mask of the field [hi:lo] in 32 bits. -/
def maskF (hi lo : Nat) : W32 := BitVec.ofNat 32 ((2 ^ (hi - lo + 1) - 1) * 2 ^ lo)

/-- A register with its field [hi:lo] set to x. -/
def setF (v : W32) (hi lo x : Nat) : W32 :=
  (v &&& ~~~ maskF hi lo) ||| (BitVec.ofNat 32 (x * 2 ^ lo) &&& maskF hi lo)

/-- One as a number. -/
def b2n (b : Bool) : Nat := if b then 1 else 0

/-- A two's-complement reading of an n-bit pattern. -/
def signedN (bits v : Nat) : Int :=
  let w := v % 2 ^ bits
  if w < 2 ^ (bits - 1) then (w : Int) else (w : Int) - 2 ^ bits

/-- The n-bit two's-complement pattern of an integer, wrapped. -/
def patternN (bits : Nat) (x : Int) : Nat := (x % (2 ^ bits : Int)).toNat

/-- An integer held inside [lo, hi] and whether it had to be moved (R155, R192). -/
def clampI (lo hi x : Int) : Int × Bool :=
  if x < lo then (lo, true) else if hi < x then (hi, true) else (x, false)

/-- The integer part towards minus infinity of n / 2^s. -/
def floorShift (n : Int) (s : Nat) : Int := n / (2 ^ s : Int)

/-! ### Byte orders -/

/-- The number of a little-endian byte string. -/
def leNat : List Byte → Nat
  | [] => 0
  | b :: rest => b.toNat + 256 * leNat rest

/-- The n bytes of a number, least significant first. -/
def natLe : Nat → Nat → List Byte
  | 0, _ => []
  | n + 1, v => BitVec.ofNat 8 v :: natLe n (v / 256)

/-- The number of a big-endian byte string. -/
def beNat (bs : List Byte) : Nat := bs.foldl (fun a b => a * 256 + b.toNat) 0

/-- The n bytes of a number, most significant first. -/
def natBe (n v : Nat) : List Byte := (natLe n v).reverse

/-- n bytes of a string from an offset; bytes past its end read 0. -/
def sliceB (bs : List Byte) (off n : Nat) : List Byte :=
  let cut := (bs.drop off).take n
  cut ++ List.replicate (n - cut.length) 0

/-- The little-endian number of n bytes at an offset. -/
def leAt (bs : List Byte) (off n : Nat) : Nat := leNat (sliceB bs off n)

/-- The big-endian number of n bytes at an offset. -/
def beAt (bs : List Byte) (off n : Nat) : Nat := beNat (sliceB bs off n)

/-- A byte string with another one laid over it from an offset; what would reach past its end is cut. -/
def overlay (bs : List Byte) (off : Nat) (new : List Byte) : List Byte :=
  bs.take off ++ (new.take (bs.length - off)) ++ bs.drop (off + new.length)

/-- A list cut into pieces of k elements, with a bound on how many pieces are made. -/
def chunksOf {α : Type} : Nat → Nat → List α → List (List α)
  | 0, _, _ => []
  | n + 1, k, xs => if xs.isEmpty then [] else xs.take k :: chunksOf n k (xs.drop k)

/-! ### Checksums -/

/-- One byte of the CRC-32 of IEEE 802.3, reflected (R109). -/
def crc32Byte (c : W32) (b : Byte) : W32 :=
  (List.range 8).foldl (fun r _ => if r.getLsbD 0 then (r >>> 1) ^^^ 0xEDB8_8320 else r >>> 1)
    (c ^^^ b.setWidth 32)

/-- The CRC-32 of R109. -/
def crc32 (bs : List Byte) : W32 := ~~~ (bs.foldl crc32Byte 0xFFFF_FFFF)

/-- One byte of the CRC-64 of R392, not reflected. -/
def crc64Byte (c : W64) (b : Byte) : W64 :=
  (List.range 8).foldl
    (fun r _ => if r.getLsbD 63 then (r <<< 1) ^^^ 0x42F0_E1EB_A9EA_3693 else r <<< 1)
    (c ^^^ (b.setWidth 64 <<< 56))

/-- The CRC-64 register run over more bytes, from a register value. -/
def crc64Run (c : W64) (bs : List Byte) : W64 := bs.foldl crc64Byte c

/-- The CRC-64 of R392: initial value and final exclusive-or all ones. -/
def crc64 (bs : List Byte) : W64 := ~~~ (crc64Run 0xFFFF_FFFF_FFFF_FFFF bs)

/-! ### The generator (R305) -/

/-- The four words of the permutation's state. -/
structure Quad where
  x0 : W32
  x1 : W32
  x2 : W32
  x3 : W32
  deriving DecidableEq, Repr

/-- Round r of P under the key words k0 and k1 (R305). -/
def permRound (k0 k1 : W32) (r : Nat) (q : Quad) : Quad :=
  let x0 := q.x0 + (k0 + BitVec.ofNat 32 r * 0x9E37_79B9)
  let x1 := q.x1 ^^^ (k1 + BitVec.ofNat 32 r * 0x6A09_E667)
  let x0 := x0 + x1
  let x3 := (q.x3 ^^^ x0).rotateLeft 13
  let x2 := q.x2 + x3
  let x1 := (x1 ^^^ x2).rotateLeft 7
  let x0 := x0 + x1
  let x3 := (x3 ^^^ x0).rotateLeft 17
  let x2 := x2 + x3
  let x1 := (x1 ^^^ x2).rotateLeft 9
  { x0 := x1, x1 := x2, x2 := x3, x3 := x0 }

/-- The keyed permutation P (R305). -/
def perm (q : Quad) (seed : W64) : Quad :=
  let k0 := seed.setWidth 32
  let k1 := (seed >>> 32).setWidth 32
  let z := (List.range 10).foldl (fun a r => permRound k0 k1 r a) q
  { z with x0 := z.x0 + (k0 + 10 * 0x9E37_79B9), x1 := z.x1 ^^^ (k1 + 10 * 0x6A09_E667) }

/-- word(n, step, stream, seed) of R305: 32 bits for element index n. -/
def genWord (n : W32) (step : W64) (stream : W32) (seed : W64) : W32 :=
  let y := perm { x0 := n >>> 2, x1 := step.setWidth 32, x2 := (step >>> 32).setWidth 32, x3 := stream } seed
  match n.toNat % 4 with
  | 0 => y.x0
  | 1 => y.x1
  | 2 => y.x2
  | _ => y.x3

end Sys2Proof.Machine
end

