-- ==== Sys2Proof/Machine/Fields.lean ====
section
/-!
DEFINITION. The names of the registers' fields: for each field of each register table of the spec, the offset of its register
and its bits. Offsets of repeated blocks (a cluster, a queue, a link) count from the start of the block, the others from the
start of the control window.
-/

namespace Sys2Proof.Machine

/-- A field of a register: the register's offset and the bits [hi:lo] (R11). -/
structure Fld where
  off : Nat
  hi  : Nat
  lo  : Nat
  deriving DecidableEq, Repr

namespace F


/-! Unit registers of an entropy unit, by offset in its 64 KiB block (R106). -/

/-- ENT_ID [4:0], R106. -/
abbrev entIdDie : Fld := ⟨0x0, 4, 0⟩
/-- ENT_ID [7:5], R106. -/
abbrev entIdUnit : Fld := ⟨0x0, 7, 5⟩
/-- ENT_ID [11:8], R106. -/
abbrev entIdStepping : Fld := ⟨0x0, 11, 8⟩
/-- ENT_CTRL [0], R106. -/
abbrev entCtrlEnable : Fld := ⟨0x4, 0, 0⟩
/-- ENT_STATUS [3:0], R106. -/
abbrev entStatusEnabled : Fld := ⟨0x8, 3, 0⟩
/-- ENT_STATUS [7:4], R106. -/
abbrev entStatusOpen : Fld := ⟨0x8, 7, 4⟩
/-- ENT_ERR [0], R106. -/
abbrev entErrBadFeed : Fld := ⟨0xC, 0, 0⟩
/-- ENT_ERR [1], R106. -/
abbrev entErrFeedOrder : Fld := ⟨0xC, 1, 1⟩
/-- ENT_ERR [2], R106. -/
abbrev entErrLaneOverflow : Fld := ⟨0xC, 2, 2⟩
/-- ENT_ERR [3], R106. -/
abbrev entErrLaneSurplus : Fld := ⟨0xC, 3, 3⟩
/-- ENT_ERR [4], R106. -/
abbrev entErrTrailingZero : Fld := ⟨0xC, 4, 4⟩
/-- ENT_ERR [5], R106. -/
abbrev entErrTargetClamp : Fld := ⟨0xC, 5, 5⟩
/-- ENT_ERR [6], R106. -/
abbrev entErrPoisonIn : Fld := ⟨0xC, 6, 6⟩
/-- ENT_ERR [7], R106. -/
abbrev entErrCtxWriteWhileEnabled : Fld := ⟨0xC, 7, 7⟩
/-- ENT_ERR [8], R106. -/
abbrev entErrTableWriteWhileActive : Fld := ⟨0xC, 8, 8⟩
/-- ENT_ERR [13:12], R106. -/
abbrev entErrChannel : Fld := ⟨0xC, 13, 12⟩
/-- ENT_SYMCNT [31:0], R106. -/
abbrev entSymcnt : Fld := ⟨0x10, 31, 0⟩

/-! Channel registers of an entropy unit, by offset in the 64 bytes of a channel (R106). -/

/-- ENT_CH_CTRL [0], R106. -/
abbrev entChCtrlEnable : Fld := ⟨0x0, 0, 0⟩
/-- ENT_CH_CTRL [1], R106. -/
abbrev entChCtrlDir : Fld := ⟨0x0, 1, 1⟩
/-- ENT_CH_CTRL [2], R106. -/
abbrev entChCtrlAbort : Fld := ⟨0x0, 2, 2⟩
/-- ENT_CH_CTRL [27:16], R106. -/
abbrev entChCtrlSession : Fld := ⟨0x0, 27, 16⟩
/-- ENT_CH_FEED_BASE [23:0], R106. -/
abbrev entChFeedBase : Fld := ⟨0x4, 23, 0⟩
/-- ENT_CH_FEED_SIZE [15:0], R106. -/
abbrev entChFeedSize : Fld := ⟨0x8, 15, 0⟩
/-- ENT_CH_RES_BASE [23:0], R106. -/
abbrev entChResBase : Fld := ⟨0xC, 23, 0⟩
/-- ENT_CH_RES_SIZE [20:0], R106. -/
abbrev entChResSize : Fld := ⟨0x10, 20, 0⟩
/-- ENT_CH_SEM_FEED [12:0], R106. -/
abbrev entChSemFeedReady : Fld := ⟨0x14, 12, 0⟩
/-- ENT_CH_SEM_FEED [28:16], R106. -/
abbrev entChSemFeedFree : Fld := ⟨0x14, 28, 16⟩
/-- ENT_CH_SEM_RES [12:0], R106. -/
abbrev entChSemResReady : Fld := ⟨0x18, 12, 0⟩
/-- ENT_CH_SEM_RES [28:16], R106. -/
abbrev entChSemResFree : Fld := ⟨0x18, 28, 16⟩
/-- ENT_CH_LANES [7:0], R106. -/
abbrev entChLanes : Fld := ⟨0x1C, 7, 0⟩
/-- ENT_CH_STATUS [0], R106. -/
abbrev entChStatusOpen : Fld := ⟨0x20, 0, 0⟩
/-- ENT_CH_STATUS [15:8], R106. -/
abbrev entChStatusTag : Fld := ⟨0x20, 15, 8⟩
/-- ENT_CH_STATUS [31:16], R106. -/
abbrev entChStatusWaiting : Fld := ⟨0x20, 31, 16⟩
/-- ENT_CH_DAMAGE [15:0], R106. -/
abbrev entChDamage : Fld := ⟨0x24, 15, 0⟩

/-! Lane-context registers, by offset in the 32 bytes of a lane (R106). -/

/-- ENT_LC_LOW [31:0], R106. -/
abbrev entLcLow : Fld := ⟨0x0, 31, 0⟩
/-- ENT_LC_RANGE [31:0], R106. -/
abbrev entLcRange : Fld := ⟨0x4, 31, 0⟩
/-- ENT_LC_CACHE [7:0], R106. -/
abbrev entLcCacheCache : Fld := ⟨0x8, 7, 0⟩
/-- ENT_LC_CACHE [8], R106. -/
abbrev entLcCacheCarry : Fld := ⟨0x8, 8, 8⟩
/-- ENT_LC_CACHE [9], R106. -/
abbrev entLcCacheStarted : Fld := ⟨0x8, 9, 9⟩
/-- ENT_LC_CACHE [10], R106. -/
abbrev entLcCacheIsCode : Fld := ⟨0x8, 10, 10⟩
/-- ENT_LC_PEND [23:0], R106. -/
abbrev entLcPend : Fld := ⟨0xC, 23, 0⟩
/-- ENT_LC_POS [23:0], R106. -/
abbrev entLcPos : Fld := ⟨0x10, 23, 0⟩
/-- ENT_LC_OFFSET [23:0], R106. -/
abbrev entLcOffset : Fld := ⟨0x14, 23, 0⟩
/-- ENT_LC_LEN [23:0], R106. -/
abbrev entLcLen : Fld := ⟨0x18, 23, 0⟩
/-- ENT_LC_SYMS [31:0], R106. -/
abbrev entLcSyms : Fld := ⟨0x1C, 31, 0⟩

/-! Registers of a physical cluster, by offset in its 4 KiB block (R230, R289). -/

/-- CLS_ID [4:0], R230. -/
abbrev clsIdDie : Fld := ⟨0x0, 4, 0⟩
/-- CLS_ID [7:5], R230. -/
abbrev clsIdRegion : Fld := ⟨0x0, 7, 5⟩
/-- CLS_ID [12:8], R230. -/
abbrev clsIdSlot : Fld := ⟨0x0, 12, 8⟩
/-- CLS_SEAT [3:0], R230. -/
abbrev clsSeatLogical : Fld := ⟨0x4, 3, 0⟩
/-- CLS_SEAT [6:4], R230. -/
abbrev clsSeatKind : Fld := ⟨0x4, 6, 4⟩
/-- CLS_CTRL [0], R230. -/
abbrev clsCtrlIslandEn : Fld := ⟨0x8, 0, 0⟩
/-- CLS_CTRL [1], R230. -/
abbrev clsCtrlScrub : Fld := ⟨0x8, 1, 1⟩
/-- CLS_FREQ [11:0], R230. -/
abbrev clsFreq : Fld := ⟨0xC, 11, 0⟩
/-- CLS_STATUS [0], R230. -/
abbrev clsStatusBusy : Fld := ⟨0x10, 0, 0⟩
/-- CLS_STATUS [1], R230. -/
abbrev clsStatusScrub : Fld := ⟨0x10, 1, 1⟩
/-- CLS_ERR [0], R230. -/
abbrev clsErrStoreCe : Fld := ⟨0x14, 0, 0⟩
/-- CLS_ERR [1], R230. -/
abbrev clsErrStoreUe : Fld := ⟨0x14, 1, 1⟩
/-- CLS_ERR [2], R230. -/
abbrev clsErrParityFetch : Fld := ⟨0x14, 2, 2⟩
/-- CLS_ERR [3], R230. -/
abbrev clsErrParityUnit : Fld := ⟨0x14, 3, 3⟩
/-- CLS_ERR [4], R230. -/
abbrev clsErrParityFinish : Fld := ⟨0x14, 4, 4⟩
/-- CLS_ERR [5], R230. -/
abbrev clsErrParityInstr : Fld := ⟨0x14, 5, 5⟩
/-- CLS_ERR [6], R230. -/
abbrev clsErrStoreWriteWhileRunning : Fld := ⟨0x14, 6, 6⟩
/-- CLS_ERR [7], R230. -/
abbrev clsErrCtrlWriteRefused : Fld := ⟨0x14, 7, 7⟩
/-- CLS_ERR [28:16], R230. -/
abbrev clsErrLine : Fld := ⟨0x14, 28, 16⟩
/-- CLS_ECC_CE [15:0], R230. -/
abbrev clsEccCe : Fld := ⟨0x18, 15, 0⟩
/-- CLS_ECC_UE [15:0], R230. -/
abbrev clsEccUe : Fld := ⟨0x1C, 15, 0⟩
/-- EXE_CTRL [0], R230. -/
abbrev exeCtrlStart : Fld := ⟨0x400, 0, 0⟩
/-- EXE_CTRL [1], R230. -/
abbrev exeCtrlHalt : Fld := ⟨0x400, 1, 1⟩
/-- EXE_CTRL [2], R230. -/
abbrev exeCtrlPauseReq : Fld := ⟨0x400, 2, 2⟩
/-- EXE_CTRL [3], R230. -/
abbrev exeCtrlOrdered : Fld := ⟨0x400, 3, 3⟩
/-- EXE_CTRL [4], R230. -/
abbrev exeCtrlResume : Fld := ⟨0x400, 4, 4⟩
/-- EXE_SESSION [11:0], R230. -/
abbrev exeSession : Fld := ⟨0x404, 11, 0⟩
/-- EXE_STATUS [2:0], R230. -/
abbrev exeStatusState : Fld := ⟨0x408, 2, 0⟩
/-- EXE_STATUS [3], R230. -/
abbrev exeStatusUnitBusy : Fld := ⟨0x408, 3, 3⟩
/-- EXE_STATUS [4], R230. -/
abbrev exeStatusFinishBusy : Fld := ⟨0x408, 4, 4⟩
/-- EXE_STATUS [28:16], R230. -/
abbrev exeStatusSem : Fld := ⟨0x408, 28, 16⟩
/-- EXE_PC [23:0], R230. -/
abbrev exePc : Fld := ⟨0x40C, 23, 0⟩
/-- EXE_LIST_BASE [18:0], R230. -/
abbrev exeListBase : Fld := ⟨0x410, 18, 0⟩
/-- EXE_LIST_SIZE [14:0], R230. -/
abbrev exeListSize : Fld := ⟨0x414, 14, 0⟩
/-- EXE_LIST_SEM [12:0], R230. -/
abbrev exeListSemReady : Fld := ⟨0x418, 12, 0⟩
/-- EXE_LIST_SEM [28:16], R230. -/
abbrev exeListSemFree : Fld := ⟨0x418, 28, 16⟩
/-- EXE_LIST_SEM [31], R230. -/
abbrev exeListSemStreamed : Fld := ⟨0x418, 31, 31⟩
/-- EXE_LIST_LEN [23:0], R230. -/
abbrev exeListLen : Fld := ⟨0x41C, 23, 0⟩
/-- EXE_WAIT_LIMIT [23:0], R230. -/
abbrev exeWaitLimit : Fld := ⟨0x420, 23, 0⟩
/-- EXE_STEP_LO [31:0], R230. -/
abbrev exeStepLo : Fld := ⟨0x424, 31, 0⟩
/-- EXE_STEP_HI [31:0], R230. -/
abbrev exeStepHi : Fld := ⟨0x428, 31, 0⟩
/-- EXE_ERR [0], R230. -/
abbrev exeErrAccOverflow : Fld := ⟨0x42C, 0, 0⟩
/-- EXE_ERR [1], R230. -/
abbrev exeErrDivZero : Fld := ⟨0x42C, 1, 1⟩
/-- EXE_ERR [2], R230. -/
abbrev exeErrScaleTagMismatch : Fld := ⟨0x42C, 2, 2⟩
/-- EXE_ERR [3], R230. -/
abbrev exeErrFnWriteWhileActive : Fld := ⟨0x42C, 3, 3⟩
/-- EXE_ERR [4], R230. -/
abbrev exeErrBadQpb : Fld := ⟨0x42C, 4, 4⟩
/-- EXE_ERR [5], R230. -/
abbrev exeErrBadRecord : Fld := ⟨0x42C, 5, 5⟩
/-- EXE_ERR [6], R230. -/
abbrev exeErrBadOpcode : Fld := ⟨0x42C, 6, 6⟩
/-- EXE_ERR [7], R230. -/
abbrev exeErrStoreBounds : Fld := ⟨0x42C, 7, 7⟩
/-- EXE_ERR [8], R230. -/
abbrev exeErrSemOverflow : Fld := ⟨0x42C, 8, 8⟩
/-- EXE_ERR [9], R230. -/
abbrev exeErrWaitTimeout : Fld := ⟨0x42C, 9, 9⟩
/-- EXE_ERR [10], R230. -/
abbrev exeErrPoisonIn : Fld := ⟨0x42C, 10, 10⟩
/-- EXE_ERR [11], R230. -/
abbrev exeErrNanTrap : Fld := ⟨0x42C, 11, 11⟩
/-- EXE_ERR [12], R230. -/
abbrev exeErrCfgWriteWhileBusy : Fld := ⟨0x42C, 12, 12⟩
/-- EXE_ERR [13], R230. -/
abbrev exeErrBadConfig : Fld := ⟨0x42C, 13, 13⟩
/-- EXE_ERR_PC [23:0], R230. -/
abbrev exeErrPcIndex : Fld := ⟨0x430, 23, 0⟩
/-- EXE_ERR_PC [31:24], R230. -/
abbrev exeErrPcOpcode : Fld := ⟨0x430, 31, 24⟩
/-- EXE_CYCLES [31:0], R230. -/
abbrev exeCycles : Fld := ⟨0x434, 31, 0⟩
/-- EXE_STALL [31:0], R230. -/
abbrev exeStall : Fld := ⟨0x438, 31, 0⟩
/-- EXE_INSTRS [31:0], R230. -/
abbrev exeInstrs : Fld := ⟨0x43C, 31, 0⟩
/-- FET_CTRL [0], R289. -/
abbrev fetCtrlEnable : Fld := ⟨0x800, 0, 0⟩
/-- FET_STATUS [6:0], R289. -/
abbrev fetStatusBusy : Fld := ⟨0x804, 6, 0⟩
/-- FET_STATUS [14:8], R289. -/
abbrev fetStatusParked : Fld := ⟨0x804, 14, 8⟩
/-- FET_STATUS [22:16], R289. -/
abbrev fetStatusOutstanding : Fld := ⟨0x804, 22, 16⟩
/-- FET_ERR [0], R289. -/
abbrev fetErrBadDesc : Fld := ⟨0x808, 0, 0⟩
/-- FET_ERR [1], R289. -/
abbrev fetErrSrcFaultUnresolved : Fld := ⟨0x808, 1, 1⟩
/-- FET_ERR [2], R289. -/
abbrev fetErrDstFaultUnresolved : Fld := ⟨0x808, 2, 2⟩
/-- FET_ERR [3], R289. -/
abbrev fetErrWaitTimeout : Fld := ⟨0x808, 3, 3⟩
/-- FET_ERR [4], R289. -/
abbrev fetErrDescWriteWhileBusy : Fld := ⟨0x808, 4, 4⟩
/-- FET_ERR [5], R289. -/
abbrev fetErrPoisonOut : Fld := ⟨0x808, 5, 5⟩
/-- FET_ERR [6], R289. -/
abbrev fetErrWriteRefused : Fld := ⟨0x808, 6, 6⟩
/-- FET_ERR [13:8], R289. -/
abbrev fetErrQueue : Fld := ⟨0x808, 13, 8⟩
/-- FET_QSEL [5:0], R289. -/
abbrev fetQsel : Fld := ⟨0x80C, 5, 0⟩
/-- FET_BYTES [31:0], R289. -/
abbrev fetBytes : Fld := ⟨0x810, 31, 0⟩
/-- FET_REQ_STALL [31:0], R289. -/
abbrev fetReqStall : Fld := ⟨0x814, 31, 0⟩
/-- FET_CREDIT_STALL [31:0], R289. -/
abbrev fetCreditStall : Fld := ⟨0x818, 31, 0⟩
/-- FET_FAULTS [15:0], R289. -/
abbrev fetFaults : Fld := ⟨0x81C, 15, 0⟩
/-- FET_FAULT_LO [31:0], R289. -/
abbrev fetFaultLo : Fld := ⟨0x820, 31, 0⟩
/-- FET_FAULT_HI [19:0], R289. -/
abbrev fetFaultHiAddr : Fld := ⟨0x824, 19, 0⟩
/-- FET_FAULT_HI [25:20], R289. -/
abbrev fetFaultHiQueue : Fld := ⟨0x824, 25, 20⟩
/-- FET_FAULT_HI [26], R289. -/
abbrev fetFaultHiDst : Fld := ⟨0x824, 26, 26⟩
/-- FET_DESC [31:0], R289. -/
abbrev fetDesc : Fld := ⟨0x880, 31, 0⟩

/-! Queue registers of a fetch engine, by offset in the 16 bytes of a queue (R289). -/

/-- FET_Q_CTRL [0], R289. -/
abbrev fetQCtrlArm : Fld := ⟨0x0, 0, 0⟩
/-- FET_Q_CTRL [1], R289. -/
abbrev fetQCtrlAbort : Fld := ⟨0x0, 1, 1⟩
/-- FET_Q_CTRL [2], R289. -/
abbrev fetQCtrlResume : Fld := ⟨0x0, 2, 2⟩
/-- FET_Q_CTRL [3], R289. -/
abbrev fetQCtrlGiveUp : Fld := ⟨0x0, 3, 3⟩
/-- FET_Q_CTRL [27:16], R289. -/
abbrev fetQCtrlSession : Fld := ⟨0x0, 27, 16⟩
/-- FET_Q_STATUS [2:0], R289. -/
abbrev fetQStatusState : Fld := ⟨0x4, 2, 0⟩
/-- FET_Q_STATUS [3], R289. -/
abbrev fetQStatusRearmWhileBusy : Fld := ⟨0x4, 3, 3⟩
/-- FET_Q_STATUS [4], R289. -/
abbrev fetQStatusPoisoned : Fld := ⟨0x4, 4, 4⟩
/-- FET_Q_STATUS [14:8], R289. -/
abbrev fetQStatusOutstanding : Fld := ⟨0x4, 14, 8⟩
/-- FET_Q_STATUS [31:16], R289. -/
abbrev fetQStatusPosted : Fld := ⟨0x4, 31, 16⟩
/-- FET_Q_CURSOR [15:0], R289. -/
abbrev fetQCursorI2 : Fld := ⟨0x8, 15, 0⟩
/-- FET_Q_CURSOR [31:16], R289. -/
abbrev fetQCursorI3 : Fld := ⟨0x8, 31, 16⟩
/-- FET_Q_RPOS [15:0], R289. -/
abbrev fetQRposI4 : Fld := ⟨0xC, 15, 0⟩
/-- FET_Q_RPOS [31:16], R289. -/
abbrev fetQRposRing : Fld := ⟨0xC, 31, 16⟩

/-! Semaphore registers of a die that are no array, by offset in the control window (R291). -/

/-- SEM_ERR [0], R291. -/
abbrev semErrSemOverflow : Fld := ⟨0x718000, 0, 0⟩
/-- SEM_ERR [1], R291. -/
abbrev semErrSemWriteWhileBusy : Fld := ⟨0x718000, 1, 1⟩
/-- SEM_ERR [2], R291. -/
abbrev semErrUnownedPost : Fld := ⟨0x718000, 2, 2⟩
/-- SEM_ERR [28:16], R291. -/
abbrev semErrSem : Fld := ⟨0x718000, 28, 16⟩
/-- SEM_POSTS [31:0], R291. -/
abbrev semPosts : Fld := ⟨0x718004, 31, 0⟩
/-- SEM_WAITING [13:0], R291. -/
abbrev semWaiting : Fld := ⟨0x718008, 13, 0⟩

/-! Registers of a host queue, by offset in its 32 bytes (R341). -/

/-- FWC_SQ_TAIL [15:0], R341. -/
abbrev fwcSqTail : Fld := ⟨0x0, 15, 0⟩
/-- FWC_CQ_HEAD [15:0], R341. -/
abbrev fwcCqHead : Fld := ⟨0x4, 15, 0⟩
/-- FWC_Q_STATUS [1:0], R341. -/
abbrev fwcQStatusState : Fld := ⟨0x8, 1, 0⟩
/-- FWC_Q_STATUS [2], R341. -/
abbrev fwcQStatusBadDoorbell : Fld := ⟨0x8, 2, 2⟩
/-- FWC_Q_STATUS [3], R341. -/
abbrev fwcQStatusCqFullStall : Fld := ⟨0x8, 3, 3⟩
/-- FWC_Q_STATUS [31:16], R341. -/
abbrev fwcQStatusHead : Fld := ⟨0x8, 31, 16⟩
/-- FWC_Q_OWNER [4:0], R341. -/
abbrev fwcQOwnerHomeroom : Fld := ⟨0xC, 4, 0⟩
/-- FWC_Q_OWNER [8], R341. -/
abbrev fwcQOwnerCore : Fld := ⟨0xC, 8, 8⟩
/-- FWC_Q_OWNER [14:12], R341. -/
abbrev fwcQOwnerPriority : Fld := ⟨0xC, 14, 12⟩
/-- FWC_Q_CMDS [31:0], R341. -/
abbrev fwcQCmds : Fld := ⟨0x10, 31, 0⟩

/-! MEM registers, by offset in the control window (R387). -/

/-- MEM_ID [4:0], R387. -/
abbrev memIdDie : Fld := ⟨0x780000, 4, 0⟩
/-- MEM_ID [5], R387. -/
abbrev memIdHasGddr7 : Fld := ⟨0x780000, 5, 5⟩
/-- MEM_ID [6], R387. -/
abbrev memIdHasCxl : Fld := ⟨0x780000, 6, 6⟩
/-- MEM_ID [11:8], R387. -/
abbrev memIdOrdinal : Fld := ⟨0x780000, 11, 8⟩
/-- MEM_GD_CFG [1:0], R387. -/
abbrev memGdCfgDensity : Fld := ⟨0x780004, 1, 0⟩
/-- MEM_GD_CFG [5:4], R387. -/
abbrev memGdCfgRate : Fld := ⟨0x780004, 5, 4⟩
/-- MEM_GD_CFG [8], R387. -/
abbrev memGdCfgPatrolEn : Fld := ⟨0x780004, 8, 8⟩
/-- MEM_GD_STATUS [1:0], R387. -/
abbrev memGdStatusTrained : Fld := ⟨0x780008, 1, 0⟩
/-- MEM_GD_STATUS [3:2], R387. -/
abbrev memGdStatusAbsent : Fld := ⟨0x780008, 3, 2⟩
/-- MEM_GD_STATUS [4], R387. -/
abbrev memGdStatusDoubled : Fld := ⟨0x780008, 4, 4⟩
/-- MEM_GD_TEMP [7:0], R387. -/
abbrev memGdTempDev0 : Fld := ⟨0x78000C, 7, 0⟩
/-- MEM_GD_TEMP [15:8], R387. -/
abbrev memGdTempDev1 : Fld := ⟨0x78000C, 15, 8⟩
/-- MEM_GD_ERR [0], R387. -/
abbrev memGdErrCorrected : Fld := ⟨0x780010, 0, 0⟩
/-- MEM_GD_ERR [1], R387. -/
abbrev memGdErrUncorrectable : Fld := ⟨0x780010, 1, 1⟩
/-- MEM_GD_ERR [2], R387. -/
abbrev memGdErrEdcRetry : Fld := ⟨0x780010, 2, 2⟩
/-- MEM_GD_ERR [3], R387. -/
abbrev memGdErrEdcFail : Fld := ⟨0x780010, 3, 3⟩
/-- MEM_GD_ERR [4], R387. -/
abbrev memGdErrPoisonDirFull : Fld := ⟨0x780010, 4, 4⟩
/-- MEM_GD_ERR [5], R387. -/
abbrev memGdErrBadAddr : Fld := ⟨0x780010, 5, 5⟩
/-- MEM_GD_ERR [6], R387. -/
abbrev memGdErrCfgWriteWhileBusy : Fld := ⟨0x780010, 6, 6⟩
/-- MEM_GD_CE [15:0], R387. -/
abbrev memGdCe : Fld := ⟨0x780014, 15, 0⟩
/-- MEM_GD_UE [15:0], R387. -/
abbrev memGdUe : Fld := ⟨0x780018, 15, 0⟩
/-- MEM_GD_RETRY [15:0], R387. -/
abbrev memGdRetry : Fld := ⟨0x78001C, 15, 0⟩
/-- MEM_PDIR_COUNT [14:0], R387. -/
abbrev memPdirCount : Fld := ⟨0x780020, 14, 0⟩
/-- MEM_ERR_LO [31:0], R387. -/
abbrev memErrLo : Fld := ⟨0x780024, 31, 0⟩
/-- MEM_ERR_HI [19:0], R387. -/
abbrev memErrHi : Fld := ⟨0x780028, 19, 0⟩
/-- MEM_ERR [0], R387. -/
abbrev memErrPoisonRead : Fld := ⟨0x78002C, 0, 0⟩
/-- MEM_ERR [1], R387. -/
abbrev memErrSramWriteOwned : Fld := ⟨0x78002C, 1, 1⟩
/-- MEM_ERR [2], R387. -/
abbrev memErrDbCe : Fld := ⟨0x78002C, 2, 2⟩
/-- MEM_ERR [3], R387. -/
abbrev memErrDbUe : Fld := ⟨0x78002C, 3, 3⟩
/-- MEM_CXL_STATUS [0], R387. -/
abbrev memCxlStatusLinkUp : Fld := ⟨0x780040, 0, 0⟩
/-- MEM_CXL_STATUS [5:1], R387. -/
abbrev memCxlStatusWidth : Fld := ⟨0x780040, 5, 1⟩
/-- MEM_CXL_STATUS [6], R387. -/
abbrev memCxlStatusDevicePresent : Fld := ⟨0x780040, 6, 6⟩
/-- MEM_CXL_STATUS [26:16], R387. -/
abbrev memCxlStatusGib : Fld := ⟨0x780040, 26, 16⟩
/-- MEM_CXL_ERR [0], R387. -/
abbrev memCxlErrReplay : Fld := ⟨0x780044, 0, 0⟩
/-- MEM_CXL_ERR [1], R387. -/
abbrev memCxlErrLinkDown : Fld := ⟨0x780044, 1, 1⟩
/-- MEM_CXL_ERR [2], R387. -/
abbrev memCxlErrPoisonRx : Fld := ⟨0x780044, 2, 2⟩
/-- MEM_CXL_ERR [3], R387. -/
abbrev memCxlErrWriteLost : Fld := ⟨0x780044, 3, 3⟩
/-- MEM_CXL_ERR [4], R387. -/
abbrev memCxlErrBadAddr : Fld := ⟨0x780044, 4, 4⟩
/-- MEM_CXL_REPLAYS [15:0], R387. -/
abbrev memCxlReplays : Fld := ⟨0x780048, 15, 0⟩
/-- MEM_FAULT_RING_LO [31:0], R387. -/
abbrev memFaultRingLo : Fld := ⟨0x780080, 31, 0⟩
/-- MEM_FAULT_RING_HI [31:0], R387. -/
abbrev memFaultRingHi : Fld := ⟨0x780084, 31, 0⟩
/-- MEM_FAULT_SIZE [3:0], R387. -/
abbrev memFaultSize : Fld := ⟨0x780088, 3, 0⟩
/-- MEM_FAULT_TAIL [11:0], R387. -/
abbrev memFaultTail : Fld := ⟨0x78008C, 11, 0⟩
/-- MEM_FAULT_HEAD [11:0], R387. -/
abbrev memFaultHead : Fld := ⟨0x780090, 11, 0⟩
/-- MEM_FAULT_RESP [15:0], R387. -/
abbrev memFaultRespId : Fld := ⟨0x780094, 15, 0⟩
/-- MEM_FAULT_RESP [16], R387. -/
abbrev memFaultRespGiveUp : Fld := ⟨0x780094, 16, 16⟩
/-- MEM_FAULT_LIMIT [23:0], R387. -/
abbrev memFaultLimit : Fld := ⟨0x780098, 23, 0⟩
/-- MEM_FAULT_ERR [0], R387. -/
abbrev memFaultErrFaultRingFull : Fld := ⟨0x78009C, 0, 0⟩
/-- MEM_FAULT_ERR [1], R387. -/
abbrev memFaultErrStaleResp : Fld := ⟨0x78009C, 1, 1⟩
/-- MEM_INV_LO [31:0], R387. -/
abbrev memInvLo : Fld := ⟨0x7800C0, 31, 0⟩
/-- MEM_INV_HI [15:0], R387. -/
abbrev memInvHi : Fld := ⟨0x7800C4, 15, 0⟩
/-- MEM_INV_LEN [31:0], R387. -/
abbrev memInvLen : Fld := ⟨0x7800C8, 31, 0⟩
/-- MEM_INV_CTRL [11:0], R387. -/
abbrev memInvCtrlSession : Fld := ⟨0x7800CC, 11, 0⟩
/-- MEM_INV_CTRL [12], R387. -/
abbrev memInvCtrlAll : Fld := ⟨0x7800CC, 12, 12⟩
/-- MEM_INV_CTRL [31], R387. -/
abbrev memInvCtrlGo : Fld := ⟨0x7800CC, 31, 31⟩
/-- MEM_INV_STATUS [0], R387. -/
abbrev memInvStatusBusy : Fld := ⟨0x7800D0, 0, 0⟩
/-- MEM_INV_STATUS [1], R387. -/
abbrev memInvStatusInvWhileBusy : Fld := ⟨0x7800D0, 1, 1⟩
/-- MEM_INV_STATUS [2], R387. -/
abbrev memInvStatusInvBadSession : Fld := ⟨0x7800D0, 2, 2⟩
/-- MEM_XC_WALKS [31:0], R387. -/
abbrev memXcWalks : Fld := ⟨0x7800D4, 31, 0⟩
/-- MEM_DBW_SEL [7:0], R387. -/
abbrev memDbwSel : Fld := ⟨0x780100, 7, 0⟩
/-- MEM_DBW_BASE [7:0], R387. -/
abbrev memDbwBaseBase : Fld := ⟨0x780104, 7, 0⟩
/-- MEM_DBW_BASE [15:8], R387. -/
abbrev memDbwBaseLength : Fld := ⟨0x780104, 15, 8⟩
/-- MEM_DBW_BASE [27:16], R387. -/
abbrev memDbwBaseOwner : Fld := ⟨0x780104, 27, 16⟩
/-- MEM_DB_FREE [7:0], R387. -/
abbrev memDbFree : Fld := ⟨0x780108, 7, 0⟩

/-! Registers of a local link, by offset in its 1 KiB (R416). -/

/-- LNK_ID [5:0], R416. -/
abbrev lnkIdNumber : Fld := ⟨0x0, 5, 0⟩
/-- LNK_ID [7:6], R416. -/
abbrev lnkIdLocal : Fld := ⟨0x0, 7, 6⟩
/-- LNK_ID [8], R416. -/
abbrev lnkIdPresent : Fld := ⟨0x0, 8, 8⟩
/-- LNK_CFG [1:0], R416. -/
abbrev lnkCfgRole : Fld := ⟨0x4, 1, 0⟩
/-- LNK_CFG [2], R416. -/
abbrev lnkCfgAutoRetrain : Fld := ⟨0x4, 2, 2⟩
/-- LNK_CFG [3], R416. -/
abbrev lnkCfgRetrain : Fld := ⟨0x4, 3, 3⟩
/-- LNK_STATUS [2:0], R416. -/
abbrev lnkStatusState : Fld := ⟨0x8, 2, 0⟩
/-- LNK_STATUS [7:4], R416. -/
abbrev lnkStatusLanes : Fld := ⟨0x8, 7, 4⟩
/-- LNK_STATUS [9:8], R416. -/
abbrev lnkStatusPartner : Fld := ⟨0x8, 9, 8⟩
/-- LNK_STATUS [15:10], R416. -/
abbrev lnkStatusLink : Fld := ⟨0x8, 15, 10⟩
/-- LNK_STATUS [20:16], R416. -/
abbrev lnkStatusDevice : Fld := ⟨0x8, 20, 16⟩
/-- LNK_STATUS [21], R416. -/
abbrev lnkStatusPort : Fld := ⟨0x8, 21, 21⟩
/-- LNK_PARTNER [15:0], R416. -/
abbrev lnkPartnerGroup : Fld := ⟨0xC, 15, 0⟩
/-- LNK_PARTNER [31:16], R416. -/
abbrev lnkPartnerAdapter : Fld := ⟨0xC, 31, 16⟩
/-- LNK_RTT [15:0], R416. -/
abbrev lnkRtt : Fld := ⟨0x10, 15, 0⟩
/-- LNK_ERR [0], R416. -/
abbrev lnkErrFecCorrected : Fld := ⟨0x14, 0, 0⟩
/-- LNK_ERR [1], R416. -/
abbrev lnkErrCrcFail : Fld := ⟨0x14, 1, 1⟩
/-- LNK_ERR [2], R416. -/
abbrev lnkErrRetry : Fld := ⟨0x14, 2, 2⟩
/-- LNK_ERR [3], R416. -/
abbrev lnkErrLinkDown : Fld := ⟨0x14, 3, 3⟩
/-- LNK_ERR [4], R416. -/
abbrev lnkErrRttTooLong : Fld := ⟨0x14, 4, 4⟩
/-- LNK_ERR [5], R416. -/
abbrev lnkErrGroupMismatch : Fld := ⟨0x14, 5, 5⟩
/-- LNK_ERR [6], R416. -/
abbrev lnkErrRoleRefused : Fld := ⟨0x14, 6, 6⟩
/-- LNK_ERR [7], R416. -/
abbrev lnkErrBadChannel : Fld := ⟨0x14, 7, 7⟩
/-- LNK_ERR [8], R416. -/
abbrev lnkErrHostFailover : Fld := ⟨0x14, 8, 8⟩
/-- LNK_FEC_CE [15:0], R416. -/
abbrev lnkFecCe : Fld := ⟨0x18, 15, 0⟩
/-- LNK_RETRIES [15:0], R416. -/
abbrev lnkRetries : Fld := ⟨0x1C, 15, 0⟩
/-- LNK_DOWNS [15:0], R416. -/
abbrev lnkDowns : Fld := ⟨0x20, 15, 0⟩
/-- LNK_TX_BYTES [31:0], R416. -/
abbrev lnkTxBytes : Fld := ⟨0x24, 31, 0⟩
/-- LNK_RX_BYTES [31:0], R416. -/
abbrev lnkRxBytes : Fld := ⟨0x28, 31, 0⟩
/-- LNK_FLOW [8:0], R416. -/
abbrev lnkFlowCredits : Fld := ⟨0x2C, 8, 0⟩
/-- LNK_FLOW [24:16], R416. -/
abbrev lnkFlowReplay : Fld := ⟨0x2C, 24, 16⟩
/-- LNK_CH_SEL [4:0], R416. -/
abbrev lnkChSelChan : Fld := ⟨0x40, 4, 0⟩
/-- LNK_CH_SEL [5], R416. -/
abbrev lnkChSelReceive : Fld := ⟨0x40, 5, 5⟩
/-- LNK_CH_CTRL [0], R416. -/
abbrev lnkChCtrlEnable : Fld := ⟨0x44, 0, 0⟩
/-- LNK_CH_CTRL [1], R416. -/
abbrev lnkChCtrlAbort : Fld := ⟨0x44, 1, 1⟩
/-- LNK_CH_CTRL [27:16], R416. -/
abbrev lnkChCtrlSession : Fld := ⟨0x44, 27, 16⟩
/-- LNK_CH_RING [23:0], R416. -/
abbrev lnkChRing : Fld := ⟨0x48, 23, 0⟩
/-- LNK_CH_SIZE [16:0], R416. -/
abbrev lnkChSize : Fld := ⟨0x4C, 16, 0⟩
/-- LNK_CH_SEM [12:0], R416. -/
abbrev lnkChSemSem : Fld := ⟨0x50, 12, 0⟩
/-- LNK_CH_SEM [20:16], R416. -/
abbrev lnkChSemDie : Fld := ⟨0x50, 20, 16⟩
/-- LNK_CH_SEM [31:24], R416. -/
abbrev lnkChSemPostLines : Fld := ⟨0x50, 31, 24⟩
/-- LNK_CH_PEER [4:0], R416. -/
abbrev lnkChPeer : Fld := ⟨0x54, 4, 0⟩
/-- LNK_CH_STATUS [0], R416. -/
abbrev lnkChStatusActive : Fld := ⟨0x58, 0, 0⟩
/-- LNK_CH_STATUS [1], R416. -/
abbrev lnkChStatusAborted : Fld := ⟨0x58, 1, 1⟩
/-- LNK_CH_STATUS [31:16], R416. -/
abbrev lnkChStatusLines : Fld := ⟨0x58, 31, 16⟩

/-! Link registers of a die, by offset in the control window (R416). -/

/-- LNK_GROUP [4:0], R416. -/
abbrev lnkGroupDevice : Fld := ⟨0x7C1000, 4, 0⟩
/-- LNK_GROUP [31:16], R416. -/
abbrev lnkGroupGroup : Fld := ⟨0x7C1000, 31, 16⟩
/-- LNK_HROUTE [5:0], R416. -/
abbrev lnkHroutePrimary : Fld := ⟨0x7C1004, 5, 0⟩
/-- LNK_HROUTE [6], R416. -/
abbrev lnkHroutePrimaryValid : Fld := ⟨0x7C1004, 6, 6⟩
/-- LNK_HROUTE [13:8], R416. -/
abbrev lnkHrouteSecondary : Fld := ⟨0x7C1004, 13, 8⟩
/-- LNK_HROUTE [14], R416. -/
abbrev lnkHrouteSecondaryValid : Fld := ⟨0x7C1004, 14, 14⟩
/-- LNK_HROUTE [16], R416. -/
abbrev lnkHrouteUsingSecondary : Fld := ⟨0x7C1004, 16, 16⟩
/-- LNK_HSHARE0–3 [31:0], R416. -/
abbrev lnkHshare : Fld := ⟨0x7C1008, 31, 0⟩
/-- LNK_HOLD [23:0], R416. -/
abbrev lnkHold : Fld := ⟨0x7C1018, 23, 0⟩
/-- LNK_DIE_ERR [0], R416. -/
abbrev lnkDieErrHostLost : Fld := ⟨0x7C101C, 0, 0⟩
/-- LNK_DIE_ERR [1], R416. -/
abbrev lnkDieErrCfgRefused : Fld := ⟨0x7C101C, 1, 1⟩

/-! Registers of a firmware processor, by offset in its 256 bytes (R442). -/

/-- FWC_PROC_ID [1:0], R442. -/
abbrev fwcProcId : Fld := ⟨0x0, 1, 0⟩
/-- FWC_PROC_CTRL [0], R442. -/
abbrev fwcProcCtrlRestart : Fld := ⟨0x4, 0, 0⟩
/-- FWC_PROC_STATUS [2:0], R442. -/
abbrev fwcProcStatusState : Fld := ⟨0x8, 2, 0⟩
/-- FWC_PROC_STATUS [3], R442. -/
abbrev fwcProcStatusRestartWhileRestarting : Fld := ⟨0x8, 3, 3⟩
/-- FWC_PROC_STATUS [11:8], R442. -/
abbrev fwcProcStatusRecent : Fld := ⟨0x8, 11, 8⟩
/-- FWC_PROC_CAUSE [3:0], R442. -/
abbrev fwcProcCause : Fld := ⟨0xC, 3, 0⟩
/-- FWC_PROC_PC [31:0], R442. -/
abbrev fwcProcPc : Fld := ⟨0x10, 31, 0⟩
/-- FWC_PROC_MPU [31:0], R442. -/
abbrev fwcProcMpu : Fld := ⟨0x14, 31, 0⟩
/-- FWC_PROC_RESTARTS [15:0], R442. -/
abbrev fwcProcRestarts : Fld := ⟨0x18, 15, 0⟩
/-- FWC_EVENT_LOST [15:0], R442. -/
abbrev fwcEventLost : Fld := ⟨0x1C, 15, 0⟩

/-! FWC registers of a die, by offset in the control window (R442, R564). -/

/-- FWC_FW_VERSION [31:0], R442. -/
abbrev fwcFwVersion : Fld := ⟨0x7E1000, 31, 0⟩
/-- FWC_STAMP_LO [31:0], R442. -/
abbrev fwcStampLo : Fld := ⟨0x7E1004, 31, 0⟩
/-- FWC_STAMP_HI [31:0], R442. -/
abbrev fwcStampHi : Fld := ⟨0x7E1008, 31, 0⟩
/-- FWC_LOG_HEAD [14:0], R442. -/
abbrev fwcLogHead : Fld := ⟨0x7E100C, 14, 0⟩
/-- FWC_LOG_WRAPS [31:0], R442. -/
abbrev fwcLogWraps : Fld := ⟨0x7E1010, 31, 0⟩
/-- FWC_LOG_LEVEL [1:0], R442. -/
abbrev fwcLogLevel : Fld := ⟨0x7E1014, 1, 0⟩
/-- FWC_TRACE_SEL [7:0], R442. -/
abbrev fwcTraceSel : Fld := ⟨0x7E1018, 7, 0⟩
/-- FWC_TRACE_COUNT [31:0], R442. -/
abbrev fwcTraceCount : Fld := ⟨0x7E101C, 31, 0⟩
/-- FWC_TRACE_EN0–7 [31:0], R442. -/
abbrev fwcTraceEn : Fld := ⟨0x7E1020, 31, 0⟩
/-- FWC_BOOT_CTRL [0], R442. -/
abbrev fwcBootCtrl : Fld := ⟨0x7E1100, 0, 0⟩
/-- FWC_BOOT_LEN [23:0], R442. -/
abbrev fwcBootLen : Fld := ⟨0x7E1104, 23, 0⟩
/-- FWC_BOOT_STATUS [7:0], R442. -/
abbrev fwcBootStatusCode : Fld := ⟨0x7E1108, 7, 0⟩
/-- FWC_BOOT_STATUS [12:8], R442. -/
abbrev fwcBootStatusDie : Fld := ⟨0x7E1108, 12, 8⟩
/-- FWC_BOOT_STATUS [16], R442. -/
abbrev fwcBootStatusGoWhileBusy : Fld := ⟨0x7E1108, 16, 16⟩
/-- FWC_ACT_SRC_LO [31:0], R442. -/
abbrev fwcActSrcLo : Fld := ⟨0x7E1110, 31, 0⟩
/-- FWC_ACT_SRC_HI [31:0], R442. -/
abbrev fwcActSrcHi : Fld := ⟨0x7E1114, 31, 0⟩
/-- FWC_ACT_LEN [23:0], R442. -/
abbrev fwcActLen : Fld := ⟨0x7E1118, 23, 0⟩
/-- FWC_ACT_CTRL [0], R442. -/
abbrev fwcActCtrlGo : Fld := ⟨0x7E111C, 0, 0⟩
/-- FWC_ACT_CTRL [1], R442. -/
abbrev fwcActCtrlAbort : Fld := ⟨0x7E111C, 1, 1⟩
/-- FWC_ACT_STATUS [7:0], R442. -/
abbrev fwcActStatusCode : Fld := ⟨0x7E1120, 7, 0⟩
/-- FWC_ACT_STATUS [8], R442. -/
abbrev fwcActStatusEmergency : Fld := ⟨0x7E1120, 8, 8⟩
/-- FWC_ACT_STATUS [31:16], R442. -/
abbrev fwcActStatusMs : Fld := ⟨0x7E1120, 31, 16⟩

/-! HLT registers, by offset in the control window (R483). -/

/-- HLT_ID [4:0], R483. -/
abbrev hltId : Fld := ⟨0x7A0000, 4, 0⟩
/-- HLT_STATUS [0], R483. -/
abbrev hltStatusDrained : Fld := ⟨0x7A0004, 0, 0⟩
/-- HLT_STATUS [1], R483. -/
abbrev hltStatusDraining : Fld := ⟨0x7A0004, 1, 1⟩
/-- HLT_STATUS [2], R483. -/
abbrev hltStatusOverride : Fld := ⟨0x7A0004, 2, 2⟩
/-- HLT_STATUS [3], R483. -/
abbrev hltStatusBelowGrade : Fld := ⟨0x7A0004, 3, 3⟩
/-- HLT_STATUS [4], R483. -/
abbrev hltStatusRecess : Fld := ⟨0x7A0004, 4, 4⟩
/-- HLT_STATUS [12:8], R483. -/
abbrev hltStatusSlot : Fld := ⟨0x7A0004, 12, 8⟩
/-- HLT_STATUS [15:13], R483. -/
abbrev hltStatusRegion : Fld := ⟨0x7A0004, 15, 13⟩
/-- HLT_STATUS [24:16], R483. -/
abbrev hltStatusCards : Fld := ⟨0x7A0004, 24, 16⟩
/-- HLT_ERR [0], R483. -/
abbrev hltErrUndecided : Fld := ⟨0x7A0008, 0, 0⟩
/-- HLT_ERR [1], R483. -/
abbrev hltErrWeightCopy : Fld := ⟨0x7A0008, 1, 1⟩
/-- HLT_ERR [2], R483. -/
abbrev hltErrExamFail : Fld := ⟨0x7A0008, 2, 2⟩
/-- HLT_ERR [3], R483. -/
abbrev hltErrBandMissed : Fld := ⟨0x7A0008, 3, 3⟩
/-- HLT_ERR [4], R483. -/
abbrev hltErrCardOverwritten : Fld := ⟨0x7A0008, 4, 4⟩
/-- HLT_ERR [5], R483. -/
abbrev hltErrFlashWriteFail : Fld := ⟨0x7A0008, 5, 5⟩
/-- HLT_ERR [6], R483. -/
abbrev hltErrCfgRefused : Fld := ⟨0x7A0008, 6, 6⟩
/-- HLT_SAMPLE [2:0], R483. -/
abbrev hltSample : Fld := ⟨0x7A000C, 2, 0⟩
/-- HLT_SKEY_LO [31:0], R483. -/
abbrev hltSkeyLo : Fld := ⟨0x7A0010, 31, 0⟩
/-- HLT_SKEY_HI [31:0], R483. -/
abbrev hltSkeyHi : Fld := ⟨0x7A0014, 31, 0⟩
/-- HLT_SUSPECT [3:0], R483. -/
abbrev hltSuspectN : Fld := ⟨0x7A0018, 3, 0⟩
/-- HLT_SUSPECT [31:8], R483. -/
abbrev hltSuspectWin : Fld := ⟨0x7A0018, 31, 8⟩
/-- HLT_WDIG [15:0], R483. -/
abbrev hltWdig : Fld := ⟨0x7A001C, 15, 0⟩
/-- HLT_CHECKS [31:0], R483. -/
abbrev hltChecks : Fld := ⟨0x7A0020, 31, 0⟩
/-- HLT_MISMATCH [15:0], R483. -/
abbrev hltMismatch : Fld := ⟨0x7A0024, 15, 0⟩
/-- HLT_VOTES [15:0], R483. -/
abbrev hltVotes : Fld := ⟨0x7A0028, 15, 0⟩
/-- HLT_CARD_HEAD [7:0], R483. -/
abbrev hltCardHead : Fld := ⟨0x7A0030, 7, 0⟩
/-- HLT_CARD_SEQ [31:0], R483. -/
abbrev hltCardSeq : Fld := ⟨0x7A0034, 31, 0⟩
/-- HLT_CARD_SEL [7:0], R483. -/
abbrev hltCardSel : Fld := ⟨0x7A0038, 7, 0⟩
/-- HLT_CARD [31:0], R483. -/
abbrev hltCard : Fld := ⟨0x7A0040, 31, 0⟩
/-- HLT_EXAM_CFG [7:0], R483. -/
abbrev hltExamCfgPeriod : Fld := ⟨0x7A0080, 7, 0⟩
/-- HLT_EXAM_CFG [15:8], R483. -/
abbrev hltExamCfgWait : Fld := ⟨0x7A0080, 15, 8⟩
/-- HLT_EXAM_CFG [16], R483. -/
abbrev hltExamCfgPause : Fld := ⟨0x7A0080, 16, 16⟩
/-- HLT_EXAM_STATUS [1:0], R483. -/
abbrev hltExamStatusState : Fld := ⟨0x7A0084, 1, 0⟩
/-- HLT_EXAM_DONE [15:0], R483. -/
abbrev hltExamDone : Fld := ⟨0x7A0088, 15, 0⟩
/-- HLT_DRAIN_CTRL [0], R483. -/
abbrev hltDrainCtrlOverride : Fld := ⟨0x7A0090, 0, 0⟩
/-- HLT_DRAIN_CTRL [1], R483. -/
abbrev hltDrainCtrlDrainNow : Fld := ⟨0x7A0090, 1, 1⟩
/-- HLT_DRAIN_CTRL [2], R483. -/
abbrev hltDrainCtrlClearRecord : Fld := ⟨0x7A0090, 2, 2⟩
/-- HLT_LIB_SRC_LO [31:0], R483. -/
abbrev hltLibSrcLo : Fld := ⟨0x7A00A0, 31, 0⟩
/-- HLT_LIB_SRC_HI [31:0], R483. -/
abbrev hltLibSrcHi : Fld := ⟨0x7A00A4, 31, 0⟩
/-- HLT_LIB_LEN [24:0], R483. -/
abbrev hltLibLen : Fld := ⟨0x7A00A8, 24, 0⟩
/-- HLT_LIB_CTRL [0], R483. -/
abbrev hltLibCtrlGo : Fld := ⟨0x7A00AC, 0, 0⟩
/-- HLT_LIB_CTRL [1], R483. -/
abbrev hltLibCtrlForward : Fld := ⟨0x7A00AC, 1, 1⟩
/-- HLT_LIB_STATUS [7:0], R483. -/
abbrev hltLibStatusCode : Fld := ⟨0x7A00B0, 7, 0⟩
/-- HLT_LIB_VERSION [31:0], R483. -/
abbrev hltLibVersion : Fld := ⟨0x7A00B4, 31, 0⟩
/-- HLT_CHART [31:0], R483. -/
abbrev hltChart : Fld := ⟨0x7A1000, 31, 0⟩

/-! ECT registers, by offset in the control window (R506). -/

/-- ECT_ID [15:0], R506. -/
abbrev ectId : Fld := ⟨0x7D0000, 15, 0⟩
/-- ECT_STATUS [3:0], R506. -/
abbrev ectStatusState : Fld := ⟨0x7D0004, 3, 0⟩
/-- ECT_STATUS [4], R506. -/
abbrev ectStatusPort0 : Fld := ⟨0x7D0004, 4, 4⟩
/-- ECT_STATUS [5], R506. -/
abbrev ectStatusPort1 : Fld := ⟨0x7D0004, 5, 5⟩
/-- ECT_STATUS [6], R506. -/
abbrev ectStatusClosed1 : Fld := ⟨0x7D0004, 6, 6⟩
/-- ECT_STATUS [9:8], R506. -/
abbrev ectStatusLevel : Fld := ⟨0x7D0004, 9, 8⟩
/-- ECT_STATUS [10], R506. -/
abbrev ectStatusLocked : Fld := ⟨0x7D0004, 10, 10⟩
/-- ECT_STATUS [11], R506. -/
abbrev ectStatusOpSet : Fld := ⟨0x7D0004, 11, 11⟩
/-- ECT_STATUS [12], R506. -/
abbrev ectStatusMaSet : Fld := ⟨0x7D0004, 12, 12⟩
/-- ECT_ERR [0], R506. -/
abbrev ectErrWrongKey : Fld := ⟨0x7D0008, 0, 0⟩
/-- ECT_ERR [1], R506. -/
abbrev ectErrLockout : Fld := ⟨0x7D0008, 1, 1⟩
/-- ECT_ERR [2], R506. -/
abbrev ectErrEmcyLost : Fld := ⟨0x7D0008, 2, 2⟩
/-- ECT_ERR [3], R506. -/
abbrev ectErrRxError : Fld := ⟨0x7D0008, 3, 3⟩
/-- ECT_ERR [4], R506. -/
abbrev ectErrAlRefused : Fld := ⟨0x7D0008, 4, 4⟩
/-- ECT_KEY_SEL [0], R506. -/
abbrev ectKeySel : Fld := ⟨0x7D000C, 0, 0⟩
/-- ECT_KEY_DIG0–7 [31:0], R506. -/
abbrev ectKeyDig : Fld := ⟨0x7D0010, 31, 0⟩
/-- ECT_KEY_CTRL [0], R506. -/
abbrev ectKeyCtrlCommit : Fld := ⟨0x7D0030, 0, 0⟩
/-- ECT_KEY_CTRL [1], R506. -/
abbrev ectKeyCtrlClear : Fld := ⟨0x7D0030, 1, 1⟩
/-- ECT_FRAMES [31:0], R506. -/
abbrev ectFrames : Fld := ⟨0x7D0034, 31, 0⟩
/-- ECT_RX_ERRORS [15:0], R506. -/
abbrev ectRxErrors : Fld := ⟨0x7D0038, 15, 0⟩
/-- ECT_RX_ERRORS_1 [15:0], R506. -/
abbrev ectRxErrors1 : Fld := ⟨0x7D003C, 15, 0⟩
/-- ECT_LOGIN_FAILS [15:0], R506. -/
abbrev ectLoginFails : Fld := ⟨0x7D0040, 15, 0⟩
/-- ECT_MIRROR_AGE [15:0], R506. -/
abbrev ectMirrorAge : Fld := ⟨0x7D0044, 15, 0⟩

/-! PWR registers, by offset in the control window (R526). -/

/-- PWR_ID [4:0], R526. -/
abbrev pwrId : Fld := ⟨0x7F0000, 4, 0⟩
/-- PWR_STATUS [0], R526. -/
abbrev pwrStatusThrottleT : Fld := ⟨0x7F0004, 0, 0⟩
/-- PWR_STATUS [1], R526. -/
abbrev pwrStatusThrottleP : Fld := ⟨0x7F0004, 1, 1⟩
/-- PWR_STATUS [2], R526. -/
abbrev pwrStatusEmergency : Fld := ⟨0x7F0004, 2, 2⟩
/-- PWR_STATUS [3], R526. -/
abbrev pwrStatusPkgEmergency : Fld := ⟨0x7F0004, 3, 3⟩
/-- PWR_STATUS [4], R526. -/
abbrev pwrStatusCapFallback : Fld := ⟨0x7F0004, 4, 4⟩
/-- PWR_STATUS [5], R526. -/
abbrev pwrStatusRefclkLost : Fld := ⟨0x7F0004, 5, 5⟩
/-- PWR_TJ [15:0], R526. -/
abbrev pwrTjTemp : Fld := ⟨0x7F0008, 15, 0⟩
/-- PWR_TJ [19:16], R526. -/
abbrev pwrTjSensor : Fld := ⟨0x7F0008, 19, 16⟩
/-- PWR_TSENSE_SEL [3:0], R526. -/
abbrev pwrTsenseSel : Fld := ⟨0x7F000C, 3, 0⟩
/-- PWR_TSENSE [15:0], R526. -/
abbrev pwrTsense : Fld := ⟨0x7F0010, 15, 0⟩
/-- PWR_CEIL [11:0], R526. -/
abbrev pwrCeilThermal : Fld := ⟨0x7F0014, 11, 0⟩
/-- PWR_CEIL [27:16], R526. -/
abbrev pwrCeilCap : Fld := ⟨0x7F0014, 27, 16⟩
/-- PWR_FREQ_REQ [11:0], R526. -/
abbrev pwrFreqReq : Fld := ⟨0x7F0018, 11, 0⟩
/-- PWR_DIE_POWER [15:0], R526. -/
abbrev pwrDiePower : Fld := ⟨0x7F001C, 15, 0⟩
/-- PWR_DIE_CAP [15:0], R526. -/
abbrev pwrDieCap : Fld := ⟨0x7F0020, 15, 0⟩
/-- PWR_VREG_SEL [2:0], R526. -/
abbrev pwrVregSel : Fld := ⟨0x7F0024, 2, 0⟩
/-- PWR_VREG [9:0], R526. -/
abbrev pwrVregWant : Fld := ⟨0x7F0028, 9, 0⟩
/-- PWR_VREG [25:16], R526. -/
abbrev pwrVregApplied : Fld := ⟨0x7F0028, 25, 16⟩
/-- PWR_VOP [9:0], R526. -/
abbrev pwrVop : Fld := ⟨0x7F002C, 9, 0⟩
/-- PWR_ERR [0], R526. -/
abbrev pwrErrVoutClamped : Fld := ⟨0x7F0030, 0, 0⟩
/-- PWR_ERR [1], R526. -/
abbrev pwrErrFreqClamped : Fld := ⟨0x7F0030, 1, 1⟩
/-- PWR_ERR [2], R526. -/
abbrev pwrErrRegFault : Fld := ⟨0x7F0030, 2, 2⟩
/-- PWR_ERR [3], R526. -/
abbrev pwrErrRegLost : Fld := ⟨0x7F0030, 3, 3⟩
/-- PWR_ERR [4], R526. -/
abbrev pwrErrRefclkLost : Fld := ⟨0x7F0030, 4, 4⟩
/-- PWR_ERR [5], R526. -/
abbrev pwrErrCapFallback : Fld := ⟨0x7F0030, 5, 5⟩
/-- PWR_ERR [6], R526. -/
abbrev pwrErrPmbusPec : Fld := ⟨0x7F0030, 6, 6⟩
/-- PWR_THROTTLE_US [31:0], R526. -/
abbrev pwrThrottleUs : Fld := ⟨0x7F0034, 31, 0⟩
/-- PWR_EMERG_COUNT [15:0], R526. -/
abbrev pwrEmergCount : Fld := ⟨0x7F0038, 15, 0⟩
/-- PWR_PKG_POWER [15:0], R526. -/
abbrev pwrPkgPowerNow : Fld := ⟨0x7F0100, 15, 0⟩
/-- PWR_PKG_POWER [31:16], R526. -/
abbrev pwrPkgPowerAvg : Fld := ⟨0x7F0100, 31, 16⟩
/-- PWR_PKG_LIMIT [15:0], R526. -/
abbrev pwrPkgLimit : Fld := ⟨0x7F0104, 15, 0⟩
/-- PWR_RAIL_SEL [6:0], R526. -/
abbrev pwrRailSel : Fld := ⟨0x7F0108, 6, 0⟩
/-- PWR_RAIL_VOUT [15:0], R526. -/
abbrev pwrRailVout : Fld := ⟨0x7F010C, 15, 0⟩
/-- PWR_RAIL_IOUT [15:0], R526. -/
abbrev pwrRailIout : Fld := ⟨0x7F0110, 15, 0⟩
/-- PWR_RAIL_STATUS [15:0], R526. -/
abbrev pwrRailStatusWord : Fld := ⟨0x7F0114, 15, 0⟩
/-- PWR_RAIL_STATUS [16], R526. -/
abbrev pwrRailStatusPresent : Fld := ⟨0x7F0114, 16, 16⟩
/-- PWR_RAIL_STATUS [17], R526. -/
abbrev pwrRailStatusLost : Fld := ⟨0x7F0114, 17, 17⟩

/-! SEC registers, by offset in the control window (R543). -/

/-- SEC_ID [4:0], R543. -/
abbrev secIdDie : Fld := ⟨0x7B0000, 4, 0⟩
/-- SEC_ID [5], R543. -/
abbrev secIdPrincipal : Fld := ⟨0x7B0000, 5, 5⟩
/-- SEC_SERIAL_LO [31:0], R543. -/
abbrev secSerialLo : Fld := ⟨0x7B0004, 31, 0⟩
/-- SEC_SERIAL_HI [31:0], R543. -/
abbrev secSerialHi : Fld := ⟨0x7B0008, 31, 0⟩
/-- SEC_PART [7:0], R543. -/
abbrev secPartGrade : Fld := ⟨0x7B000C, 7, 0⟩
/-- SEC_PART [15:8], R543. -/
abbrev secPartStepping : Fld := ⟨0x7B000C, 15, 8⟩
/-- SEC_KEYS [3:0], R543. -/
abbrev secKeysFwProgrammed : Fld := ⟨0x7B0010, 3, 0⟩
/-- SEC_KEYS [7:4], R543. -/
abbrev secKeysFwRevoked : Fld := ⟨0x7B0010, 7, 4⟩
/-- SEC_KEYS [11:8], R543. -/
abbrev secKeysExamProgrammed : Fld := ⟨0x7B0010, 11, 8⟩
/-- SEC_KEYS [15:12], R543. -/
abbrev secKeysExamRevoked : Fld := ⟨0x7B0010, 15, 12⟩
/-- SEC_KEYS [17:16], R543. -/
abbrev secKeysFwActive : Fld := ⟨0x7B0010, 17, 16⟩
/-- SEC_KEYS [19:18], R543. -/
abbrev secKeysExamActive : Fld := ⟨0x7B0010, 19, 18⟩
/-- SEC_KEY_SEL [0], R543. -/
abbrev secKeySelSet : Fld := ⟨0x7B0014, 0, 0⟩
/-- SEC_KEY_SEL [2:1], R543. -/
abbrev secKeySelSlot : Fld := ⟨0x7B0014, 2, 1⟩
/-- SEC_RNG [31:0], R543. -/
abbrev secRng : Fld := ⟨0x7B0018, 31, 0⟩
/-- SEC_ERR [0], R543. -/
abbrev secErrAttWhileBusy : Fld := ⟨0x7B001C, 0, 0⟩
/-- SEC_ERR [1], R543. -/
abbrev secErrRevWhileBusy : Fld := ⟨0x7B001C, 1, 1⟩
/-- SEC_ERR [2], R543. -/
abbrev secErrRngHealth : Fld := ⟨0x7B001C, 2, 2⟩
/-- SEC_ERR [3], R543. -/
abbrev secErrRngEmpty : Fld := ⟨0x7B001C, 3, 3⟩
/-- SEC_ERR [4], R543. -/
abbrev secErrIdentityFault : Fld := ⟨0x7B001C, 4, 4⟩
/-- SEC_DIG_BYTES [31:0], R543. -/
abbrev secDigBytes : Fld := ⟨0x7B0020, 31, 0⟩
/-- SEC_DEVPK [31:0], R543. -/
abbrev secDevpk : Fld := ⟨0x7B0040, 31, 0⟩
/-- SEC_KEY [31:0], R543. -/
abbrev secKey : Fld := ⟨0x7B0080, 31, 0⟩
/-- SEC_ATT_NONCE0–7 [31:0], R543. -/
abbrev secAttNonce : Fld := ⟨0x7B0100, 31, 0⟩
/-- SEC_ATT_SESSION [11:0], R543. -/
abbrev secAttSessionSession : Fld := ⟨0x7B0120, 11, 0⟩
/-- SEC_ATT_SESSION [16], R543. -/
abbrev secAttSessionSessionEn : Fld := ⟨0x7B0120, 16, 16⟩
/-- SEC_ATT_DST_LO [31:0], R543. -/
abbrev secAttDstLo : Fld := ⟨0x7B0124, 31, 0⟩
/-- SEC_ATT_DST_HI [31:0], R543. -/
abbrev secAttDstHi : Fld := ⟨0x7B0128, 31, 0⟩
/-- SEC_ATT_CTRL [0], R543. -/
abbrev secAttCtrl : Fld := ⟨0x7B012C, 0, 0⟩
/-- SEC_ATT_STATUS [3:0], R543. -/
abbrev secAttStatusCode : Fld := ⟨0x7B0130, 3, 0⟩
/-- SEC_ATT_STATUS [31:16], R543. -/
abbrev secAttStatusMs : Fld := ⟨0x7B0130, 31, 16⟩
/-- SEC_REV_SRC_LO [31:0], R543. -/
abbrev secRevSrcLo : Fld := ⟨0x7B0140, 31, 0⟩
/-- SEC_REV_SRC_HI [31:0], R543. -/
abbrev secRevSrcHi : Fld := ⟨0x7B0144, 31, 0⟩
/-- SEC_REV_CTRL [0], R543. -/
abbrev secRevCtrl : Fld := ⟨0x7B0148, 0, 0⟩
/-- SEC_REV_STATUS [7:0], R543. -/
abbrev secRevStatusCode : Fld := ⟨0x7B014C, 7, 0⟩

/-! FWC registers of a die, by offset in the control window (R442, R564). -/

/-- FWC_PART_ID [4:0], R564. -/
abbrev fwcPartIdLow : Fld := ⟨0x7E1040, 4, 0⟩
/-- FWC_PART_ID [10:8], R564. -/
abbrev fwcPartIdState : Fld := ⟨0x7E1040, 10, 8⟩
/-- FWC_ADMIN_SQ_LO [31:0], R564. -/
abbrev fwcAdminSqLo : Fld := ⟨0x7E1200, 31, 0⟩
/-- FWC_ADMIN_SQ_HI [31:0], R564. -/
abbrev fwcAdminSqHi : Fld := ⟨0x7E1204, 31, 0⟩
/-- FWC_ADMIN_CQ_LO [31:0], R564. -/
abbrev fwcAdminCqLo : Fld := ⟨0x7E1208, 31, 0⟩
/-- FWC_ADMIN_CQ_HI [31:0], R564. -/
abbrev fwcAdminCqHi : Fld := ⟨0x7E120C, 31, 0⟩
/-- FWC_ADMIN_SIZE [4:0], R564. -/
abbrev fwcAdminSizeSq : Fld := ⟨0x7E1210, 4, 0⟩
/-- FWC_ADMIN_SIZE [12:8], R564. -/
abbrev fwcAdminSizeCq : Fld := ⟨0x7E1210, 12, 8⟩
/-- FWC_ADMIN_CTRL [0], R564. -/
abbrev fwcAdminCtrlEnable : Fld := ⟨0x7E1214, 0, 0⟩
/-- FWC_ADMIN_CTRL [1], R564. -/
abbrev fwcAdminCtrlBadAdmin : Fld := ⟨0x7E1214, 1, 1⟩
/-- FWC_START_STATUS [3:0], R564. -/
abbrev fwcStartStatusPhase : Fld := ⟨0x7E1218, 3, 0⟩
/-- FWC_START_STATUS [8], R564. -/
abbrev fwcStartStatusNoHostLink : Fld := ⟨0x7E1218, 8, 8⟩
/-- FWC_START_STATUS [9], R564. -/
abbrev fwcStartStatusNoLibrary : Fld := ⟨0x7E1218, 9, 9⟩
/-- FWC_START_STATUS [10], R564. -/
abbrev fwcStartStatusLibFallback : Fld := ⟨0x7E1218, 10, 10⟩
/-- FWC_START_STATUS [11], R564. -/
abbrev fwcStartStatusPoisonLoop : Fld := ⟨0x7E1218, 11, 11⟩
/-- FWC_PART_DIES [24:0], R564. -/
abbrev fwcPartDies : Fld := ⟨0x7E1220, 24, 0⟩
/-- FWC_PART_CTRL [0], R564. -/
abbrev fwcPartCtrlReset : Fld := ⟨0x7E1224, 0, 0⟩
/-- FWC_PART_STATUS [0], R564. -/
abbrev fwcPartStatusBusy : Fld := ⟨0x7E1228, 0, 0⟩
/-- FWC_PART_STATUS [1], R564. -/
abbrev fwcPartStatusBadMask : Fld := ⟨0x7E1228, 1, 1⟩
/-- FWC_PART_STATUS [2], R564. -/
abbrev fwcPartStatusPartWhileBusy : Fld := ⟨0x7E1228, 2, 2⟩
/-- FWC_PKG_RESET [31:0], R564. -/
abbrev fwcPkgReset : Fld := ⟨0x7E122C, 31, 0⟩

end F

end Sys2Proof.Machine
end

