-- ==== Sys2Proof/Machine/Sparse.lean ====
section
/-!
DEFINITION. Sparse tables: lists of (key, value) pairs in one canonical form, keys strictly rising and no entry equal to
what an unlisted key reads as. Registers, memory and every collection of State that is indexed by a number are such tables.
-/

namespace Sys2Proof.Machine

/-- A table from numbers to values; a key that is not listed reads as a default that the reader supplies. -/
abbrev Sparse (α : Type) := List (Nat × α)

/-- The value at key i: the entry of i, or the default of i. Keys rise, so the search stops at the first key not below i. -/
def Sparse.get {α : Type} (dflt : Nat → α) : Sparse α → Nat → α
  | [], i => dflt i
  | (k, v) :: rest, i => if k < i then Sparse.get dflt rest i else if k = i then v else dflt i

/-- The entries whose key is above i, once the search has come to i. -/
def Sparse.dropUpTo {α : Type} (i : Nat) : Sparse α → Sparse α
  | [] => []
  | (k, v) :: rest => if k ≤ i then Sparse.dropUpTo i rest else (k, v) :: rest

/-- The table with v at key i; a v that equals the default of i leaves no entry, so equal tables are equal lists. -/
def Sparse.put {α : Type} [DecidableEq α] (dflt : Nat → α) : Sparse α → Nat → α → Sparse α
  | [], i, v => if v = dflt i then [] else [(i, v)]
  | (k, w) :: rest, i, v =>
    if k < i then (k, w) :: Sparse.put dflt rest i v
    else if v = dflt i then Sparse.dropUpTo i ((k, w) :: rest)
    else (i, v) :: Sparse.dropUpTo i ((k, w) :: rest)

/-- Keys rise strictly from a lower bound. -/
def Sparse.risesFrom {α : Type} : Nat → Sparse α → Bool
  | _, [] => true
  | lo, (k, _) :: rest => decide (lo ≤ k) && Sparse.risesFrom (k + 1) rest

/-- The canonical form: keys strictly rising, no entry equal to the default of its key. -/
def Sparse.wf {α : Type} [DecidableEq α] (dflt : Nat → α) (t : Sparse α) : Bool :=
  Sparse.risesFrom 0 t && t.all (fun e => decide (e.2 ≠ dflt e.1))

/-- A sorted set of numbers, without repeats. -/
abbrev NatSet := List Nat

/-- Is i a member? -/
def NatSet.mem (s : NatSet) (i : Nat) : Bool := s.any (fun k => k == i)

/-- The set with i. -/
def NatSet.insert : NatSet → Nat → NatSet
  | [], i => [i]
  | k :: rest, i => if k < i then k :: NatSet.insert rest i else if k = i then k :: rest else i :: k :: rest

/-- The set without i. -/
def NatSet.erase (s : NatSet) (i : Nat) : NatSet := s.filter (fun k => k != i)

end Sys2Proof.Machine
end

