-- ==== Sys2Proof/Machine/RegTable.lean ====
section
/-!
DEFINITION. The register tables of the spec, each row a field with its access code and its reset value, the keys under which
State holds registers, and the reset value of any register. Reset entries that are no number (by position, fused, from flash)
stand here as 0: those fields are computed when they are read (Machine/Registers.lean).
-/

namespace Sys2Proof.Machine

/-- The access codes of register tables (R15). -/
inductive Access where
  | ro | rw | w1c | wo | rc
  deriving DecidableEq, Repr

/-- A row of a register table: a field, its access code and its value after a reset of its die (R17). -/
structure RegField where
  fld   : Fld
  acc   : Access
  reset : Nat
  deriving DecidableEq, Repr

/-- Unit registers of an entropy unit, by offset in its 64 KiB block (R106). -/
def entUnitTable : List RegField :=
  [ ⟨F.entIdDie, .ro, 0⟩
  , ⟨F.entIdUnit, .ro, 0⟩
  , ⟨F.entIdStepping, .ro, 0⟩
  , ⟨F.entCtrlEnable, .rw, 0⟩
  , ⟨F.entStatusEnabled, .ro, 0⟩
  , ⟨F.entStatusOpen, .ro, 0⟩
  , ⟨F.entErrBadFeed, .w1c, 0⟩
  , ⟨F.entErrFeedOrder, .w1c, 0⟩
  , ⟨F.entErrLaneOverflow, .w1c, 0⟩
  , ⟨F.entErrLaneSurplus, .w1c, 0⟩
  , ⟨F.entErrTrailingZero, .w1c, 0⟩
  , ⟨F.entErrTargetClamp, .w1c, 0⟩
  , ⟨F.entErrPoisonIn, .w1c, 0⟩
  , ⟨F.entErrCtxWriteWhileEnabled, .w1c, 0⟩
  , ⟨F.entErrTableWriteWhileActive, .w1c, 0⟩
  , ⟨F.entErrChannel, .ro, 0⟩
  , ⟨F.entSymcnt, .rc, 0⟩ ]

/-- Channel registers of an entropy unit, by offset in the 64 bytes of a channel (R106). -/
def entChannelTable : List RegField :=
  [ ⟨F.entChCtrlEnable, .rw, 0⟩
  , ⟨F.entChCtrlDir, .rw, 0⟩
  , ⟨F.entChCtrlAbort, .wo, 0⟩
  , ⟨F.entChCtrlSession, .rw, 0⟩
  , ⟨F.entChFeedBase, .rw, 0⟩
  , ⟨F.entChFeedSize, .rw, 0⟩
  , ⟨F.entChResBase, .rw, 0⟩
  , ⟨F.entChResSize, .rw, 0⟩
  , ⟨F.entChSemFeedReady, .rw, 0⟩
  , ⟨F.entChSemFeedFree, .rw, 0⟩
  , ⟨F.entChSemResReady, .rw, 0⟩
  , ⟨F.entChSemResFree, .rw, 0⟩
  , ⟨F.entChLanes, .rw, 0⟩
  , ⟨F.entChStatusOpen, .ro, 0⟩
  , ⟨F.entChStatusTag, .ro, 0⟩
  , ⟨F.entChStatusWaiting, .ro, 0⟩
  , ⟨F.entChDamage, .rc, 0⟩ ]

/-- Lane-context registers, by offset in the 32 bytes of a lane (R106). -/
def entLaneTable : List RegField :=
  [ ⟨F.entLcLow, .rw, 0⟩
  , ⟨F.entLcRange, .rw, 4294967295⟩
  , ⟨F.entLcCacheCache, .rw, 0⟩
  , ⟨F.entLcCacheCarry, .rw, 0⟩
  , ⟨F.entLcCacheStarted, .rw, 0⟩
  , ⟨F.entLcCacheIsCode, .ro, 0⟩
  , ⟨F.entLcPend, .rw, 0⟩
  , ⟨F.entLcPos, .rw, 0⟩
  , ⟨F.entLcOffset, .rw, 0⟩
  , ⟨F.entLcLen, .rw, 0⟩
  , ⟨F.entLcSyms, .rw, 0⟩ ]

/-- Registers of a physical cluster, by offset in its 4 KiB block (R230, R289). -/
def clusterTable : List RegField :=
  [ ⟨F.clsIdDie, .ro, 0⟩
  , ⟨F.clsIdRegion, .ro, 0⟩
  , ⟨F.clsIdSlot, .ro, 0⟩
  , ⟨F.clsSeatLogical, .ro, 0⟩
  , ⟨F.clsSeatKind, .ro, 0⟩
  , ⟨F.clsCtrlIslandEn, .rw, 0⟩
  , ⟨F.clsCtrlScrub, .rw, 1⟩
  , ⟨F.clsFreq, .ro, 0⟩
  , ⟨F.clsStatusBusy, .ro, 0⟩
  , ⟨F.clsStatusScrub, .ro, 0⟩
  , ⟨F.clsErrStoreCe, .w1c, 0⟩
  , ⟨F.clsErrStoreUe, .w1c, 0⟩
  , ⟨F.clsErrParityFetch, .w1c, 0⟩
  , ⟨F.clsErrParityUnit, .w1c, 0⟩
  , ⟨F.clsErrParityFinish, .w1c, 0⟩
  , ⟨F.clsErrParityInstr, .w1c, 0⟩
  , ⟨F.clsErrStoreWriteWhileRunning, .w1c, 0⟩
  , ⟨F.clsErrCtrlWriteRefused, .w1c, 0⟩
  , ⟨F.clsErrLine, .ro, 0⟩
  , ⟨F.clsEccCe, .rc, 0⟩
  , ⟨F.clsEccUe, .rc, 0⟩
  , ⟨F.exeCtrlStart, .wo, 0⟩
  , ⟨F.exeCtrlHalt, .wo, 0⟩
  , ⟨F.exeCtrlPauseReq, .rw, 0⟩ ]
  ++
  [ ⟨F.exeCtrlOrdered, .rw, 0⟩
  , ⟨F.exeCtrlResume, .wo, 0⟩
  , ⟨F.exeSession, .rw, 0⟩
  , ⟨F.exeStatusState, .ro, 0⟩
  , ⟨F.exeStatusUnitBusy, .ro, 0⟩
  , ⟨F.exeStatusFinishBusy, .ro, 0⟩
  , ⟨F.exeStatusSem, .ro, 0⟩
  , ⟨F.exePc, .ro, 0⟩
  , ⟨F.exeListBase, .rw, 0⟩
  , ⟨F.exeListSize, .rw, 4⟩
  , ⟨F.exeListSemReady, .rw, 0⟩
  , ⟨F.exeListSemFree, .rw, 0⟩
  , ⟨F.exeListSemStreamed, .rw, 0⟩
  , ⟨F.exeListLen, .rw, 1⟩
  , ⟨F.exeWaitLimit, .rw, 100000⟩
  , ⟨F.exeStepLo, .ro, 0⟩
  , ⟨F.exeStepHi, .ro, 0⟩
  , ⟨F.exeErrAccOverflow, .w1c, 0⟩
  , ⟨F.exeErrDivZero, .w1c, 0⟩
  , ⟨F.exeErrScaleTagMismatch, .w1c, 0⟩
  , ⟨F.exeErrFnWriteWhileActive, .w1c, 0⟩
  , ⟨F.exeErrBadQpb, .w1c, 0⟩
  , ⟨F.exeErrBadRecord, .w1c, 0⟩
  , ⟨F.exeErrBadOpcode, .w1c, 0⟩ ]
  ++
  [ ⟨F.exeErrStoreBounds, .w1c, 0⟩
  , ⟨F.exeErrSemOverflow, .w1c, 0⟩
  , ⟨F.exeErrWaitTimeout, .w1c, 0⟩
  , ⟨F.exeErrPoisonIn, .w1c, 0⟩
  , ⟨F.exeErrNanTrap, .w1c, 0⟩
  , ⟨F.exeErrCfgWriteWhileBusy, .w1c, 0⟩
  , ⟨F.exeErrBadConfig, .w1c, 0⟩
  , ⟨F.exeErrPcIndex, .ro, 0⟩
  , ⟨F.exeErrPcOpcode, .ro, 0⟩
  , ⟨F.exeCycles, .rc, 0⟩
  , ⟨F.exeStall, .rc, 0⟩
  , ⟨F.exeInstrs, .rc, 0⟩
  , ⟨F.fetCtrlEnable, .rw, 1⟩
  , ⟨F.fetStatusBusy, .ro, 0⟩
  , ⟨F.fetStatusParked, .ro, 0⟩
  , ⟨F.fetStatusOutstanding, .ro, 0⟩
  , ⟨F.fetErrBadDesc, .w1c, 0⟩
  , ⟨F.fetErrSrcFaultUnresolved, .w1c, 0⟩
  , ⟨F.fetErrDstFaultUnresolved, .w1c, 0⟩
  , ⟨F.fetErrWaitTimeout, .w1c, 0⟩
  , ⟨F.fetErrDescWriteWhileBusy, .w1c, 0⟩
  , ⟨F.fetErrPoisonOut, .w1c, 0⟩
  , ⟨F.fetErrWriteRefused, .w1c, 0⟩
  , ⟨F.fetErrQueue, .ro, 0⟩ ]
  ++
  [ ⟨F.fetQsel, .rw, 0⟩
  , ⟨F.fetBytes, .rc, 0⟩
  , ⟨F.fetReqStall, .rc, 0⟩
  , ⟨F.fetCreditStall, .rc, 0⟩
  , ⟨F.fetFaults, .rc, 0⟩
  , ⟨F.fetFaultLo, .ro, 0⟩
  , ⟨F.fetFaultHiAddr, .ro, 0⟩
  , ⟨F.fetFaultHiQueue, .ro, 0⟩
  , ⟨F.fetFaultHiDst, .ro, 0⟩ ]

/-- Queue registers of a fetch engine, by offset in the 16 bytes of a queue (R289). -/
def fetchQueueTable : List RegField :=
  [ ⟨F.fetQCtrlArm, .wo, 0⟩
  , ⟨F.fetQCtrlAbort, .wo, 0⟩
  , ⟨F.fetQCtrlResume, .wo, 0⟩
  , ⟨F.fetQCtrlGiveUp, .wo, 0⟩
  , ⟨F.fetQCtrlSession, .rw, 0⟩
  , ⟨F.fetQStatusState, .ro, 0⟩
  , ⟨F.fetQStatusRearmWhileBusy, .w1c, 0⟩
  , ⟨F.fetQStatusPoisoned, .w1c, 0⟩
  , ⟨F.fetQStatusOutstanding, .ro, 0⟩
  , ⟨F.fetQStatusPosted, .ro, 0⟩
  , ⟨F.fetQCursorI2, .ro, 0⟩
  , ⟨F.fetQCursorI3, .ro, 0⟩
  , ⟨F.fetQRposI4, .ro, 0⟩
  , ⟨F.fetQRposRing, .rw, 0⟩ ]

/-- Semaphore registers of a die that are no array, by offset in the control window (R291). -/
def semDieTable : List RegField :=
  [ ⟨F.semErrSemOverflow, .w1c, 0⟩
  , ⟨F.semErrSemWriteWhileBusy, .w1c, 0⟩
  , ⟨F.semErrUnownedPost, .w1c, 0⟩
  , ⟨F.semErrSem, .ro, 0⟩
  , ⟨F.semPosts, .rc, 0⟩
  , ⟨F.semWaiting, .ro, 0⟩ ]

/-- Registers of a host queue, by offset in its 32 bytes (R341). -/
def hostQueueTable : List RegField :=
  [ ⟨F.fwcSqTail, .rw, 0⟩
  , ⟨F.fwcCqHead, .rw, 0⟩
  , ⟨F.fwcQStatusState, .ro, 0⟩
  , ⟨F.fwcQStatusBadDoorbell, .w1c, 0⟩
  , ⟨F.fwcQStatusCqFullStall, .w1c, 0⟩
  , ⟨F.fwcQStatusHead, .ro, 0⟩
  , ⟨F.fwcQOwnerHomeroom, .ro, 0⟩
  , ⟨F.fwcQOwnerCore, .ro, 0⟩
  , ⟨F.fwcQOwnerPriority, .ro, 0⟩
  , ⟨F.fwcQCmds, .rc, 0⟩ ]

/-- MEM registers, by offset in the control window (R387). -/
def memoryTable : List RegField :=
  [ ⟨F.memIdDie, .ro, 0⟩
  , ⟨F.memIdHasGddr7, .ro, 0⟩
  , ⟨F.memIdHasCxl, .ro, 0⟩
  , ⟨F.memIdOrdinal, .ro, 0⟩
  , ⟨F.memGdCfgDensity, .ro, 0⟩
  , ⟨F.memGdCfgRate, .rw, 2⟩
  , ⟨F.memGdCfgPatrolEn, .rw, 1⟩
  , ⟨F.memGdStatusTrained, .ro, 0⟩
  , ⟨F.memGdStatusAbsent, .ro, 0⟩
  , ⟨F.memGdStatusDoubled, .ro, 0⟩
  , ⟨F.memGdTempDev0, .ro, 0⟩
  , ⟨F.memGdTempDev1, .ro, 0⟩
  , ⟨F.memGdErrCorrected, .w1c, 0⟩
  , ⟨F.memGdErrUncorrectable, .w1c, 0⟩
  , ⟨F.memGdErrEdcRetry, .w1c, 0⟩
  , ⟨F.memGdErrEdcFail, .w1c, 0⟩
  , ⟨F.memGdErrPoisonDirFull, .w1c, 0⟩
  , ⟨F.memGdErrBadAddr, .w1c, 0⟩
  , ⟨F.memGdErrCfgWriteWhileBusy, .w1c, 0⟩
  , ⟨F.memGdCe, .rc, 0⟩
  , ⟨F.memGdUe, .rc, 0⟩
  , ⟨F.memGdRetry, .rc, 0⟩
  , ⟨F.memPdirCount, .ro, 0⟩
  , ⟨F.memErrLo, .ro, 0⟩ ]
  ++
  [ ⟨F.memErrHi, .ro, 0⟩
  , ⟨F.memErrPoisonRead, .w1c, 0⟩
  , ⟨F.memErrSramWriteOwned, .w1c, 0⟩
  , ⟨F.memErrDbCe, .w1c, 0⟩
  , ⟨F.memErrDbUe, .w1c, 0⟩
  , ⟨F.memCxlStatusLinkUp, .ro, 0⟩
  , ⟨F.memCxlStatusWidth, .ro, 0⟩
  , ⟨F.memCxlStatusDevicePresent, .ro, 0⟩
  , ⟨F.memCxlStatusGib, .ro, 0⟩
  , ⟨F.memCxlErrReplay, .w1c, 0⟩
  , ⟨F.memCxlErrLinkDown, .w1c, 0⟩
  , ⟨F.memCxlErrPoisonRx, .w1c, 0⟩
  , ⟨F.memCxlErrWriteLost, .w1c, 0⟩
  , ⟨F.memCxlErrBadAddr, .w1c, 0⟩
  , ⟨F.memCxlReplays, .rc, 0⟩
  , ⟨F.memFaultRingLo, .rw, 0⟩
  , ⟨F.memFaultRingHi, .rw, 0⟩
  , ⟨F.memFaultSize, .rw, 6⟩
  , ⟨F.memFaultTail, .ro, 0⟩
  , ⟨F.memFaultHead, .rw, 0⟩
  , ⟨F.memFaultRespId, .wo, 0⟩
  , ⟨F.memFaultRespGiveUp, .wo, 0⟩
  , ⟨F.memFaultLimit, .rw, 50000⟩
  , ⟨F.memFaultErrFaultRingFull, .w1c, 0⟩ ]
  ++
  [ ⟨F.memFaultErrStaleResp, .w1c, 0⟩
  , ⟨F.memInvLo, .rw, 0⟩
  , ⟨F.memInvHi, .rw, 0⟩
  , ⟨F.memInvLen, .rw, 0⟩
  , ⟨F.memInvCtrlSession, .rw, 0⟩
  , ⟨F.memInvCtrlAll, .rw, 0⟩
  , ⟨F.memInvCtrlGo, .wo, 0⟩
  , ⟨F.memInvStatusBusy, .ro, 0⟩
  , ⟨F.memInvStatusInvWhileBusy, .w1c, 0⟩
  , ⟨F.memInvStatusInvBadSession, .w1c, 0⟩
  , ⟨F.memXcWalks, .rc, 0⟩
  , ⟨F.memDbwSel, .rw, 0⟩
  , ⟨F.memDbwBaseBase, .ro, 0⟩
  , ⟨F.memDbwBaseLength, .ro, 0⟩
  , ⟨F.memDbwBaseOwner, .ro, 0⟩
  , ⟨F.memDbFree, .ro, 224⟩ ]

/-- Registers of a local link, by offset in its 1 KiB (R416). -/
def lnkLinkTable : List RegField :=
  [ ⟨F.lnkIdNumber, .ro, 0⟩
  , ⟨F.lnkIdLocal, .ro, 0⟩
  , ⟨F.lnkIdPresent, .ro, 0⟩
  , ⟨F.lnkCfgRole, .rw, 0⟩
  , ⟨F.lnkCfgAutoRetrain, .rw, 1⟩
  , ⟨F.lnkCfgRetrain, .wo, 0⟩
  , ⟨F.lnkStatusState, .ro, 0⟩
  , ⟨F.lnkStatusLanes, .ro, 0⟩
  , ⟨F.lnkStatusPartner, .ro, 0⟩
  , ⟨F.lnkStatusLink, .ro, 0⟩
  , ⟨F.lnkStatusDevice, .ro, 0⟩
  , ⟨F.lnkStatusPort, .ro, 0⟩
  , ⟨F.lnkPartnerGroup, .ro, 0⟩
  , ⟨F.lnkPartnerAdapter, .ro, 0⟩
  , ⟨F.lnkRtt, .ro, 0⟩
  , ⟨F.lnkErrFecCorrected, .w1c, 0⟩
  , ⟨F.lnkErrCrcFail, .w1c, 0⟩
  , ⟨F.lnkErrRetry, .w1c, 0⟩
  , ⟨F.lnkErrLinkDown, .w1c, 0⟩
  , ⟨F.lnkErrRttTooLong, .w1c, 0⟩
  , ⟨F.lnkErrGroupMismatch, .w1c, 0⟩
  , ⟨F.lnkErrRoleRefused, .w1c, 0⟩
  , ⟨F.lnkErrBadChannel, .w1c, 0⟩
  , ⟨F.lnkErrHostFailover, .w1c, 0⟩ ]
  ++
  [ ⟨F.lnkFecCe, .rc, 0⟩
  , ⟨F.lnkRetries, .rc, 0⟩
  , ⟨F.lnkDowns, .rc, 0⟩
  , ⟨F.lnkTxBytes, .rc, 0⟩
  , ⟨F.lnkRxBytes, .rc, 0⟩
  , ⟨F.lnkFlowCredits, .ro, 0⟩
  , ⟨F.lnkFlowReplay, .ro, 0⟩
  , ⟨F.lnkChSelChan, .rw, 0⟩
  , ⟨F.lnkChSelReceive, .rw, 0⟩
  , ⟨F.lnkChCtrlEnable, .rw, 0⟩
  , ⟨F.lnkChCtrlAbort, .wo, 0⟩
  , ⟨F.lnkChCtrlSession, .rw, 0⟩
  , ⟨F.lnkChRing, .rw, 0⟩
  , ⟨F.lnkChSize, .rw, 0⟩
  , ⟨F.lnkChSemSem, .rw, 0⟩
  , ⟨F.lnkChSemDie, .rw, 0⟩
  , ⟨F.lnkChSemPostLines, .rw, 1⟩
  , ⟨F.lnkChPeer, .rw, 0⟩
  , ⟨F.lnkChStatusActive, .ro, 0⟩
  , ⟨F.lnkChStatusAborted, .ro, 0⟩
  , ⟨F.lnkChStatusLines, .ro, 0⟩ ]

/-- Link registers of a die, by offset in the control window (R416). -/
def lnkDieTable : List RegField :=
  [ ⟨F.lnkGroupDevice, .rw, 0⟩
  , ⟨F.lnkGroupGroup, .rw, 0⟩
  , ⟨F.lnkHroutePrimary, .rw, 0⟩
  , ⟨F.lnkHroutePrimaryValid, .rw, 0⟩
  , ⟨F.lnkHrouteSecondary, .rw, 0⟩
  , ⟨F.lnkHrouteSecondaryValid, .rw, 0⟩
  , ⟨F.lnkHrouteUsingSecondary, .w1c, 0⟩
  , ⟨F.lnkHshare, .rw, 286331153⟩
  , ⟨⟨F.lnkHshare.off + 0x4, F.lnkHshare.hi, F.lnkHshare.lo⟩, .rw, 286331153⟩
  , ⟨⟨F.lnkHshare.off + 0x8, F.lnkHshare.hi, F.lnkHshare.lo⟩, .rw, 286331153⟩
  , ⟨⟨F.lnkHshare.off + 0xC, F.lnkHshare.hi, F.lnkHshare.lo⟩, .rw, 286331153⟩
  , ⟨F.lnkHold, .rw, 50000⟩
  , ⟨F.lnkDieErrHostLost, .w1c, 0⟩
  , ⟨F.lnkDieErrCfgRefused, .w1c, 0⟩ ]

/-- Registers of a firmware processor, by offset in its 256 bytes (R442). -/
def fwcProcTable : List RegField :=
  [ ⟨F.fwcProcId, .ro, 0⟩
  , ⟨F.fwcProcCtrlRestart, .wo, 0⟩
  , ⟨F.fwcProcStatusState, .ro, 0⟩
  , ⟨F.fwcProcStatusRestartWhileRestarting, .w1c, 0⟩
  , ⟨F.fwcProcStatusRecent, .ro, 0⟩
  , ⟨F.fwcProcCause, .ro, 0⟩
  , ⟨F.fwcProcPc, .ro, 0⟩
  , ⟨F.fwcProcMpu, .ro, 0⟩
  , ⟨F.fwcProcRestarts, .rc, 0⟩
  , ⟨F.fwcEventLost, .rc, 0⟩ ]

/-- FWC registers of a die, by offset in the control window (R442, R564). -/
def fwcDieTable : List RegField :=
  [ ⟨F.fwcFwVersion, .ro, 0⟩
  , ⟨F.fwcStampLo, .ro, 0⟩
  , ⟨F.fwcStampHi, .ro, 0⟩
  , ⟨F.fwcLogHead, .ro, 0⟩
  , ⟨F.fwcLogWraps, .ro, 0⟩
  , ⟨F.fwcLogLevel, .rw, 2⟩
  , ⟨F.fwcTraceSel, .rw, 0⟩
  , ⟨F.fwcTraceCount, .rc, 0⟩
  , ⟨F.fwcTraceEn, .rw, 0⟩
  , ⟨⟨F.fwcTraceEn.off + 0x4, F.fwcTraceEn.hi, F.fwcTraceEn.lo⟩, .rw, 0⟩
  , ⟨⟨F.fwcTraceEn.off + 0x8, F.fwcTraceEn.hi, F.fwcTraceEn.lo⟩, .rw, 0⟩
  , ⟨⟨F.fwcTraceEn.off + 0xC, F.fwcTraceEn.hi, F.fwcTraceEn.lo⟩, .rw, 0⟩
  , ⟨⟨F.fwcTraceEn.off + 0x10, F.fwcTraceEn.hi, F.fwcTraceEn.lo⟩, .rw, 0⟩
  , ⟨⟨F.fwcTraceEn.off + 0x14, F.fwcTraceEn.hi, F.fwcTraceEn.lo⟩, .rw, 0⟩
  , ⟨⟨F.fwcTraceEn.off + 0x18, F.fwcTraceEn.hi, F.fwcTraceEn.lo⟩, .rw, 0⟩
  , ⟨⟨F.fwcTraceEn.off + 0x1C, F.fwcTraceEn.hi, F.fwcTraceEn.lo⟩, .rw, 0⟩
  , ⟨F.fwcBootCtrl, .wo, 0⟩
  , ⟨F.fwcBootLen, .rw, 0⟩
  , ⟨F.fwcBootStatusCode, .ro, 0⟩
  , ⟨F.fwcBootStatusDie, .ro, 0⟩
  , ⟨F.fwcBootStatusGoWhileBusy, .w1c, 0⟩
  , ⟨F.fwcActSrcLo, .rw, 0⟩
  , ⟨F.fwcActSrcHi, .rw, 0⟩
  , ⟨F.fwcActLen, .rw, 0⟩ ]
  ++
  [ ⟨F.fwcActCtrlGo, .wo, 0⟩
  , ⟨F.fwcActCtrlAbort, .wo, 0⟩
  , ⟨F.fwcActStatusCode, .ro, 0⟩
  , ⟨F.fwcActStatusEmergency, .ro, 0⟩
  , ⟨F.fwcActStatusMs, .ro, 0⟩
  , ⟨F.fwcPartIdLow, .ro, 0⟩
  , ⟨F.fwcPartIdState, .ro, 1⟩
  , ⟨F.fwcAdminSqLo, .rw, 0⟩
  , ⟨F.fwcAdminSqHi, .rw, 0⟩
  , ⟨F.fwcAdminCqLo, .rw, 0⟩
  , ⟨F.fwcAdminCqHi, .rw, 0⟩
  , ⟨F.fwcAdminSizeSq, .rw, 4⟩
  , ⟨F.fwcAdminSizeCq, .rw, 4⟩
  , ⟨F.fwcAdminCtrlEnable, .wo, 0⟩
  , ⟨F.fwcAdminCtrlBadAdmin, .w1c, 0⟩
  , ⟨F.fwcStartStatusPhase, .ro, 1⟩
  , ⟨F.fwcStartStatusNoHostLink, .ro, 0⟩
  , ⟨F.fwcStartStatusNoLibrary, .ro, 0⟩
  , ⟨F.fwcStartStatusLibFallback, .ro, 0⟩
  , ⟨F.fwcStartStatusPoisonLoop, .ro, 0⟩
  , ⟨F.fwcPartDies, .rw, 0⟩
  , ⟨F.fwcPartCtrlReset, .wo, 0⟩
  , ⟨F.fwcPartStatusBusy, .ro, 0⟩
  , ⟨F.fwcPartStatusBadMask, .w1c, 0⟩ ]
  ++
  [ ⟨F.fwcPartStatusPartWhileBusy, .w1c, 0⟩
  , ⟨F.fwcPkgReset, .wo, 0⟩ ]

/-- HLT registers, by offset in the control window (R483). -/
def healthTable : List RegField :=
  [ ⟨F.hltId, .ro, 0⟩
  , ⟨F.hltStatusDrained, .ro, 0⟩
  , ⟨F.hltStatusDraining, .ro, 0⟩
  , ⟨F.hltStatusOverride, .ro, 0⟩
  , ⟨F.hltStatusBelowGrade, .ro, 0⟩
  , ⟨F.hltStatusRecess, .ro, 0⟩
  , ⟨F.hltStatusSlot, .ro, 0⟩
  , ⟨F.hltStatusRegion, .ro, 0⟩
  , ⟨F.hltStatusCards, .ro, 0⟩
  , ⟨F.hltErrUndecided, .w1c, 0⟩
  , ⟨F.hltErrWeightCopy, .w1c, 0⟩
  , ⟨F.hltErrExamFail, .w1c, 0⟩
  , ⟨F.hltErrBandMissed, .w1c, 0⟩
  , ⟨F.hltErrCardOverwritten, .w1c, 0⟩
  , ⟨F.hltErrFlashWriteFail, .w1c, 0⟩
  , ⟨F.hltErrCfgRefused, .w1c, 0⟩
  , ⟨F.hltSample, .rw, 5⟩
  , ⟨F.hltSkeyLo, .rw, 0⟩
  , ⟨F.hltSkeyHi, .rw, 0⟩
  , ⟨F.hltSuspectN, .rw, 2⟩
  , ⟨F.hltSuspectWin, .rw, 86400⟩
  , ⟨F.hltWdig, .rw, 16⟩
  , ⟨F.hltChecks, .rc, 0⟩
  , ⟨F.hltMismatch, .rc, 0⟩ ]
  ++
  [ ⟨F.hltVotes, .rc, 0⟩
  , ⟨F.hltCardHead, .ro, 0⟩
  , ⟨F.hltCardSeq, .ro, 0⟩
  , ⟨F.hltCardSel, .rw, 0⟩
  , ⟨F.hltCard, .ro, 0⟩
  , ⟨⟨F.hltCard.off + 0x4, F.hltCard.hi, F.hltCard.lo⟩, .ro, 0⟩
  , ⟨⟨F.hltCard.off + 0x8, F.hltCard.hi, F.hltCard.lo⟩, .ro, 0⟩
  , ⟨⟨F.hltCard.off + 0xC, F.hltCard.hi, F.hltCard.lo⟩, .ro, 0⟩
  , ⟨⟨F.hltCard.off + 0x10, F.hltCard.hi, F.hltCard.lo⟩, .ro, 0⟩
  , ⟨⟨F.hltCard.off + 0x14, F.hltCard.hi, F.hltCard.lo⟩, .ro, 0⟩
  , ⟨⟨F.hltCard.off + 0x18, F.hltCard.hi, F.hltCard.lo⟩, .ro, 0⟩
  , ⟨⟨F.hltCard.off + 0x1C, F.hltCard.hi, F.hltCard.lo⟩, .ro, 0⟩
  , ⟨⟨F.hltCard.off + 0x20, F.hltCard.hi, F.hltCard.lo⟩, .ro, 0⟩
  , ⟨⟨F.hltCard.off + 0x24, F.hltCard.hi, F.hltCard.lo⟩, .ro, 0⟩
  , ⟨⟨F.hltCard.off + 0x28, F.hltCard.hi, F.hltCard.lo⟩, .ro, 0⟩
  , ⟨⟨F.hltCard.off + 0x2C, F.hltCard.hi, F.hltCard.lo⟩, .ro, 0⟩
  , ⟨⟨F.hltCard.off + 0x30, F.hltCard.hi, F.hltCard.lo⟩, .ro, 0⟩
  , ⟨⟨F.hltCard.off + 0x34, F.hltCard.hi, F.hltCard.lo⟩, .ro, 0⟩
  , ⟨⟨F.hltCard.off + 0x38, F.hltCard.hi, F.hltCard.lo⟩, .ro, 0⟩
  , ⟨⟨F.hltCard.off + 0x3C, F.hltCard.hi, F.hltCard.lo⟩, .ro, 0⟩
  , ⟨F.hltExamCfgPeriod, .rw, 24⟩
  , ⟨F.hltExamCfgWait, .rw, 7⟩
  , ⟨F.hltExamCfgPause, .rw, 0⟩
  , ⟨F.hltExamStatusState, .ro, 0⟩ ]
  ++
  [ ⟨F.hltExamDone, .rc, 0⟩
  , ⟨F.hltDrainCtrlOverride, .rw, 0⟩
  , ⟨F.hltDrainCtrlDrainNow, .wo, 0⟩
  , ⟨F.hltDrainCtrlClearRecord, .wo, 0⟩
  , ⟨F.hltLibSrcLo, .rw, 0⟩
  , ⟨F.hltLibSrcHi, .rw, 0⟩
  , ⟨F.hltLibLen, .rw, 0⟩
  , ⟨F.hltLibCtrlGo, .wo, 0⟩
  , ⟨F.hltLibCtrlForward, .rw, 0⟩
  , ⟨F.hltLibStatusCode, .ro, 0⟩
  , ⟨F.hltLibVersion, .ro, 0⟩ ]

/-- ECT registers, by offset in the control window (R506). -/
def ethercatTable : List RegField :=
  [ ⟨F.ectId, .ro, 0⟩
  , ⟨F.ectStatusState, .ro, 1⟩
  , ⟨F.ectStatusPort0, .ro, 0⟩
  , ⟨F.ectStatusPort1, .ro, 0⟩
  , ⟨F.ectStatusClosed1, .ro, 0⟩
  , ⟨F.ectStatusLevel, .ro, 0⟩
  , ⟨F.ectStatusLocked, .ro, 0⟩
  , ⟨F.ectStatusOpSet, .ro, 0⟩
  , ⟨F.ectStatusMaSet, .ro, 0⟩
  , ⟨F.ectErrWrongKey, .w1c, 0⟩
  , ⟨F.ectErrLockout, .w1c, 0⟩
  , ⟨F.ectErrEmcyLost, .w1c, 0⟩
  , ⟨F.ectErrRxError, .w1c, 0⟩
  , ⟨F.ectErrAlRefused, .w1c, 0⟩
  , ⟨F.ectKeySel, .rw, 0⟩
  , ⟨F.ectKeyDig, .wo, 0⟩
  , ⟨⟨F.ectKeyDig.off + 0x4, F.ectKeyDig.hi, F.ectKeyDig.lo⟩, .wo, 0⟩
  , ⟨⟨F.ectKeyDig.off + 0x8, F.ectKeyDig.hi, F.ectKeyDig.lo⟩, .wo, 0⟩
  , ⟨⟨F.ectKeyDig.off + 0xC, F.ectKeyDig.hi, F.ectKeyDig.lo⟩, .wo, 0⟩
  , ⟨⟨F.ectKeyDig.off + 0x10, F.ectKeyDig.hi, F.ectKeyDig.lo⟩, .wo, 0⟩
  , ⟨⟨F.ectKeyDig.off + 0x14, F.ectKeyDig.hi, F.ectKeyDig.lo⟩, .wo, 0⟩
  , ⟨⟨F.ectKeyDig.off + 0x18, F.ectKeyDig.hi, F.ectKeyDig.lo⟩, .wo, 0⟩
  , ⟨⟨F.ectKeyDig.off + 0x1C, F.ectKeyDig.hi, F.ectKeyDig.lo⟩, .wo, 0⟩
  , ⟨F.ectKeyCtrlCommit, .wo, 0⟩ ]
  ++
  [ ⟨F.ectKeyCtrlClear, .wo, 0⟩
  , ⟨F.ectFrames, .rc, 0⟩
  , ⟨F.ectRxErrors, .rc, 0⟩
  , ⟨F.ectRxErrors1, .rc, 0⟩
  , ⟨F.ectLoginFails, .rc, 0⟩
  , ⟨F.ectMirrorAge, .ro, 0⟩ ]

/-- PWR registers, by offset in the control window (R526). -/
def powerTable : List RegField :=
  [ ⟨F.pwrId, .ro, 0⟩
  , ⟨F.pwrStatusThrottleT, .ro, 0⟩
  , ⟨F.pwrStatusThrottleP, .ro, 0⟩
  , ⟨F.pwrStatusEmergency, .ro, 0⟩
  , ⟨F.pwrStatusPkgEmergency, .ro, 0⟩
  , ⟨F.pwrStatusCapFallback, .ro, 0⟩
  , ⟨F.pwrStatusRefclkLost, .ro, 0⟩
  , ⟨F.pwrTjTemp, .ro, 0⟩
  , ⟨F.pwrTjSensor, .ro, 0⟩
  , ⟨F.pwrTsenseSel, .rw, 0⟩
  , ⟨F.pwrTsense, .ro, 0⟩
  , ⟨F.pwrCeilThermal, .ro, 1600⟩
  , ⟨F.pwrCeilCap, .ro, 1600⟩
  , ⟨F.pwrFreqReq, .rw, 1600⟩
  , ⟨F.pwrDiePower, .ro, 0⟩
  , ⟨F.pwrDieCap, .ro, 65535⟩
  , ⟨F.pwrVregSel, .rw, 0⟩
  , ⟨F.pwrVregWant, .rw, 0⟩
  , ⟨F.pwrVregApplied, .ro, 0⟩
  , ⟨F.pwrVop, .ro, 0⟩
  , ⟨F.pwrErrVoutClamped, .w1c, 0⟩
  , ⟨F.pwrErrFreqClamped, .w1c, 0⟩
  , ⟨F.pwrErrRegFault, .w1c, 0⟩
  , ⟨F.pwrErrRegLost, .w1c, 0⟩ ]
  ++
  [ ⟨F.pwrErrRefclkLost, .w1c, 0⟩
  , ⟨F.pwrErrCapFallback, .w1c, 0⟩
  , ⟨F.pwrErrPmbusPec, .w1c, 0⟩
  , ⟨F.pwrThrottleUs, .rc, 0⟩
  , ⟨F.pwrEmergCount, .rc, 0⟩
  , ⟨F.pwrPkgPowerNow, .ro, 0⟩
  , ⟨F.pwrPkgPowerAvg, .ro, 0⟩
  , ⟨F.pwrPkgLimit, .ro, 1450⟩
  , ⟨F.pwrRailSel, .rw, 64⟩
  , ⟨F.pwrRailVout, .ro, 0⟩
  , ⟨F.pwrRailIout, .ro, 0⟩
  , ⟨F.pwrRailStatusWord, .ro, 0⟩
  , ⟨F.pwrRailStatusPresent, .ro, 0⟩
  , ⟨F.pwrRailStatusLost, .ro, 0⟩ ]

/-- SEC registers, by offset in the control window (R543). -/
def securityTable : List RegField :=
  [ ⟨F.secIdDie, .ro, 0⟩
  , ⟨F.secIdPrincipal, .ro, 0⟩
  , ⟨F.secSerialLo, .ro, 0⟩
  , ⟨F.secSerialHi, .ro, 0⟩
  , ⟨F.secPartGrade, .ro, 0⟩
  , ⟨F.secPartStepping, .ro, 0⟩
  , ⟨F.secKeysFwProgrammed, .ro, 0⟩
  , ⟨F.secKeysFwRevoked, .ro, 0⟩
  , ⟨F.secKeysExamProgrammed, .ro, 0⟩
  , ⟨F.secKeysExamRevoked, .ro, 0⟩
  , ⟨F.secKeysFwActive, .ro, 0⟩
  , ⟨F.secKeysExamActive, .ro, 0⟩
  , ⟨F.secKeySelSet, .rw, 0⟩
  , ⟨F.secKeySelSlot, .rw, 0⟩
  , ⟨F.secRng, .rc, 0⟩
  , ⟨F.secErrAttWhileBusy, .w1c, 0⟩
  , ⟨F.secErrRevWhileBusy, .w1c, 0⟩
  , ⟨F.secErrRngHealth, .ro, 0⟩
  , ⟨F.secErrRngEmpty, .w1c, 0⟩
  , ⟨F.secErrIdentityFault, .ro, 0⟩
  , ⟨F.secDigBytes, .rc, 0⟩
  , ⟨F.secDevpk, .ro, 0⟩
  , ⟨⟨F.secDevpk.off + 0x4, F.secDevpk.hi, F.secDevpk.lo⟩, .ro, 0⟩
  , ⟨⟨F.secDevpk.off + 0x8, F.secDevpk.hi, F.secDevpk.lo⟩, .ro, 0⟩ ]
  ++
  [ ⟨⟨F.secDevpk.off + 0xC, F.secDevpk.hi, F.secDevpk.lo⟩, .ro, 0⟩
  , ⟨⟨F.secDevpk.off + 0x10, F.secDevpk.hi, F.secDevpk.lo⟩, .ro, 0⟩
  , ⟨⟨F.secDevpk.off + 0x14, F.secDevpk.hi, F.secDevpk.lo⟩, .ro, 0⟩
  , ⟨⟨F.secDevpk.off + 0x18, F.secDevpk.hi, F.secDevpk.lo⟩, .ro, 0⟩
  , ⟨⟨F.secDevpk.off + 0x1C, F.secDevpk.hi, F.secDevpk.lo⟩, .ro, 0⟩
  , ⟨⟨F.secDevpk.off + 0x20, F.secDevpk.hi, F.secDevpk.lo⟩, .ro, 0⟩
  , ⟨⟨F.secDevpk.off + 0x24, F.secDevpk.hi, F.secDevpk.lo⟩, .ro, 0⟩
  , ⟨⟨F.secDevpk.off + 0x28, F.secDevpk.hi, F.secDevpk.lo⟩, .ro, 0⟩
  , ⟨⟨F.secDevpk.off + 0x2C, F.secDevpk.hi, F.secDevpk.lo⟩, .ro, 0⟩
  , ⟨⟨F.secDevpk.off + 0x30, F.secDevpk.hi, F.secDevpk.lo⟩, .ro, 0⟩
  , ⟨⟨F.secDevpk.off + 0x34, F.secDevpk.hi, F.secDevpk.lo⟩, .ro, 0⟩
  , ⟨⟨F.secDevpk.off + 0x38, F.secDevpk.hi, F.secDevpk.lo⟩, .ro, 0⟩
  , ⟨⟨F.secDevpk.off + 0x3C, F.secDevpk.hi, F.secDevpk.lo⟩, .ro, 0⟩
  , ⟨F.secKey, .ro, 0⟩
  , ⟨⟨F.secKey.off + 0x4, F.secKey.hi, F.secKey.lo⟩, .ro, 0⟩
  , ⟨⟨F.secKey.off + 0x8, F.secKey.hi, F.secKey.lo⟩, .ro, 0⟩
  , ⟨⟨F.secKey.off + 0xC, F.secKey.hi, F.secKey.lo⟩, .ro, 0⟩
  , ⟨⟨F.secKey.off + 0x10, F.secKey.hi, F.secKey.lo⟩, .ro, 0⟩
  , ⟨⟨F.secKey.off + 0x14, F.secKey.hi, F.secKey.lo⟩, .ro, 0⟩
  , ⟨⟨F.secKey.off + 0x18, F.secKey.hi, F.secKey.lo⟩, .ro, 0⟩
  , ⟨⟨F.secKey.off + 0x1C, F.secKey.hi, F.secKey.lo⟩, .ro, 0⟩
  , ⟨⟨F.secKey.off + 0x20, F.secKey.hi, F.secKey.lo⟩, .ro, 0⟩
  , ⟨⟨F.secKey.off + 0x24, F.secKey.hi, F.secKey.lo⟩, .ro, 0⟩
  , ⟨⟨F.secKey.off + 0x28, F.secKey.hi, F.secKey.lo⟩, .ro, 0⟩ ]
  ++
  [ ⟨⟨F.secKey.off + 0x2C, F.secKey.hi, F.secKey.lo⟩, .ro, 0⟩
  , ⟨⟨F.secKey.off + 0x30, F.secKey.hi, F.secKey.lo⟩, .ro, 0⟩
  , ⟨⟨F.secKey.off + 0x34, F.secKey.hi, F.secKey.lo⟩, .ro, 0⟩
  , ⟨⟨F.secKey.off + 0x38, F.secKey.hi, F.secKey.lo⟩, .ro, 0⟩
  , ⟨⟨F.secKey.off + 0x3C, F.secKey.hi, F.secKey.lo⟩, .ro, 0⟩
  , ⟨F.secAttNonce, .rw, 0⟩
  , ⟨⟨F.secAttNonce.off + 0x4, F.secAttNonce.hi, F.secAttNonce.lo⟩, .rw, 0⟩
  , ⟨⟨F.secAttNonce.off + 0x8, F.secAttNonce.hi, F.secAttNonce.lo⟩, .rw, 0⟩
  , ⟨⟨F.secAttNonce.off + 0xC, F.secAttNonce.hi, F.secAttNonce.lo⟩, .rw, 0⟩
  , ⟨⟨F.secAttNonce.off + 0x10, F.secAttNonce.hi, F.secAttNonce.lo⟩, .rw, 0⟩
  , ⟨⟨F.secAttNonce.off + 0x14, F.secAttNonce.hi, F.secAttNonce.lo⟩, .rw, 0⟩
  , ⟨⟨F.secAttNonce.off + 0x18, F.secAttNonce.hi, F.secAttNonce.lo⟩, .rw, 0⟩
  , ⟨⟨F.secAttNonce.off + 0x1C, F.secAttNonce.hi, F.secAttNonce.lo⟩, .rw, 0⟩
  , ⟨F.secAttSessionSession, .rw, 0⟩
  , ⟨F.secAttSessionSessionEn, .rw, 0⟩
  , ⟨F.secAttDstLo, .rw, 0⟩
  , ⟨F.secAttDstHi, .rw, 0⟩
  , ⟨F.secAttCtrl, .wo, 0⟩
  , ⟨F.secAttStatusCode, .ro, 0⟩
  , ⟨F.secAttStatusMs, .ro, 0⟩
  , ⟨F.secRevSrcLo, .rw, 0⟩
  , ⟨F.secRevSrcHi, .rw, 0⟩
  , ⟨F.secRevCtrl, .wo, 0⟩
  , ⟨F.secRevStatusCode, .ro, 0⟩ ]

/-! ### Keys -/

/-- The key of offset off in the control window of die d: a window is 16 MiB long (R376). -/
def key (d off : Nat) : Nat := d * 0x100_0000 + off

/-- The number of a physical cluster in the package: 17 slots in each of 8 regions of a die (R21, R24). -/
def clusterNo (d r s : Nat) : Nat := (d * 8 + r) * 17 + s

/-- Where the registers of physical cluster r.s start in a control window (R230). -/
def clusterOff (r s : Nat) : Nat := 0x10_0000 + r * 0x2_0000 + s * 0x1000

/-- Where the registers of entropy unit e start (R106). -/
def entOff (e : Nat) : Nat := 0x60_0000 + e * 0x1_0000

end Sys2Proof.Machine

namespace Sys2Proof

open Machine

/-- The number of a cluster. -/
def ClusterId.no (c : ClusterId) : Nat := clusterNo c.die c.region c.slot

/-- The cluster of a number. -/
def clusterOfNo (k : Nat) : Option ClusterId :=
  if h : k / 136 < 25 then
    some { die := ⟨k / 136, h⟩, region := ⟨k / 17 % 8, Nat.mod_lt _ (by decide)⟩, slot := ⟨k % 17, Nat.mod_lt _ (by decide)⟩ }
  else none

/-- The key at which the registers of a cluster start. -/
def ClusterId.base (c : ClusterId) : Nat := key c.die (clusterOff c.region c.slot)

/-- The key at which the registers of fetch queue q of a cluster start (R289). -/
def ClusterId.fetchBase (c : ClusterId) (q : Nat) : Nat := c.base + 0xC00 + q * 0x10

/-- The number of a fetch queue in the package. -/
def ClusterId.fetchNo (c : ClusterId) (q : Nat) : Nat := c.no * 64 + q

/-- The key at which the registers of a channel's unit start. -/
def ChannelId.unitBase (ch : ChannelId) : Nat := key ch.die (entOff ch.unit)

/-- The key at which the registers of a channel start (R106). -/
def ChannelId.base (ch : ChannelId) : Nat := ch.unitBase + 0x100 + ch.chan * 0x40

/-- The key at which the context registers of lane l of a channel start (R106). -/
def ChannelId.laneBase (ch : ChannelId) (l : Nat) : Nat := ch.unitBase + 0x400 + ch.chan * 0x100 + l * 0x20

/-- The number of a channel in the package. -/
def ChannelId.no (ch : ChannelId) : Nat := (ch.die * 8 + ch.unit) * 4 + ch.chan

end Sys2Proof

namespace Sys2Proof.Machine

/-- The keys of a semaphore's three registers (R291). -/
def semValKey (d i : Nat) : Nat := key d (0x70_0000 + 4 * i)
def semCfgKey (d i : Nat) : Nat := key d (0x71_0000 + 4 * i)

/-- The key at which the registers of host queue q start in the window of die d (R341). -/
def queueBase (d q : Nat) : Nat := key d (0x74_0000 + q * 0x20)

/-- The key at which the registers of the local link j of die d start (R416). -/
def linkBase (d j : Nat) : Nat := key d (0x7C_0000 + j * 0x400)

/-- The key at which the registers of firmware processor p of die d start (R442). -/
def procBase (d p : Nat) : Nat := key d (0x7E_0000 + p * 0x100)

/-! ### Which table a register belongs to -/

/-- The table of a register and its offset in that table, for an offset of a control window. -/
def tableOf (off : Nat) : List RegField × Nat :=
  if off < 0x10_0000 then ([], 0)
  else if off < 0x20_0000 then
    let o := (off - 0x10_0000) % 0x2_0000
    if o / 0x1000 < 17 then
      if o % 0x1000 < 0xC00 then (clusterTable, o % 0x1000) else (fetchQueueTable, o % 0x10)
    else ([], 0)
  else if off < 0x60_0000 then ([], 0)
  else if off < 0x68_0000 then
    let o := (off - 0x60_0000) % 0x1_0000
    if o < 0x100 then (entUnitTable, o)
    else if o < 0x200 then (entChannelTable, o % 0x40)
    else if o < 0x400 then ([], 0)
    else if o < 0x800 then (entLaneTable, o % 0x20)
    else ([], 0)
  else if off < 0x70_0000 then ([], 0)
  else if off < 0x74_0000 then (semDieTable, off)
  else if off < 0x74_8000 then (hostQueueTable, off % 0x20)
  else if off < 0x78_0000 then ([], 0)
  else if off < 0x7A_0000 then (memoryTable, off)
  else if off < 0x7B_0000 then (healthTable, off)
  else if off < 0x7C_0000 then (securityTable, off)
  else if off < 0x7C_1000 then (lnkLinkTable, off % 0x400)
  else if off < 0x7D_0000 then (lnkDieTable, off)
  else if off < 0x7E_0000 then (ethercatTable, off)
  else if off < 0x7E_0400 then (fwcProcTable, off % 0x100)
  else if off < 0x7F_0000 then (fwcDieTable, off)
  else (powerTable, off)

/-- The fields of the register at an offset of a control window; an offset no table names has none (R16). -/
def fieldsAt (off : Nat) : List RegField :=
  let t := tableOf off
  t.1.filter (fun f => f.fld.off == t.2)

/-- The value of a register of these fields after reset. -/
def resetOf (fs : List RegField) : W32 := fs.foldl (fun v f => setF v f.fld.hi f.fld.lo f.reset) 0

/-- The value after reset of the register under a key: the Reset column (R17). -/
def regReset (k : Nat) : W32 := resetOf (fieldsAt (k % 0x100_0000))

end Sys2Proof.Machine
end

