-- ==== Sys2Proof/Machine/State.lean ====
section
/-!
DEFINITION. The state of the CQ25, as plain data: registers, memory, engines, sessions, queues, links, power, flash,
firmware and the queue of commands that wait. Each field's docstring names the rule of spec/ that gives it.
A register of a control window lives in regs, a register behind a selector in bank; the other fields hold what no register shows.
-/

namespace Sys2Proof.Machine

/-- Why the block stops. No meaning of this model raises it from a state a command can meet: R401 and R365 answer an absent
address with poisoned zeros and raise no fault. It stands for a step whose command names no unit. Safe. -/
inductive Fault where
  | noSuchUnit
  deriving DecidableEq, Repr

/-- Why a command has no meaning. -/
inductive Refusal where
  /-- Raised by exec for a row that has no meaning yet; none is left in this model. Safe. -/
  | notModelled (mnemonic : String)
  deriving DecidableEq, Repr

/-! ### Clusters and their execute engines -/

/-- What an engine has issued to a pipe and not completed (R201, R218). -/
structure InFlight where
  index : Nat
  word  : BitVec 128
  /-- Records or bytes that an EFEED or ERES has copied (R223). -/
  done  : Nat := 0
  /-- The function table that the block names by which it narrows, as the block was read at its start (R192, R198); 0: none. -/
  fn    : Nat := 0
  deriving DecidableEq, Repr

/-- A post on its way to a semaphore (R218, R276): who made it, where it goes, its count, and the instruction that made it. -/
structure Post where
  src    : Nat
  die    : Nat
  sem    : Nat
  count  : Nat
  index  : Nat := 0
  opcode : Nat := 0
  deriving DecidableEq, Repr

/-- An integer accumulator and an FP32 accumulator of a cell, and whether a poisoned operand has entered it (R139, R285). -/
structure Acc where
  value  : BitVec 48 := 0
  poison : Bool := false
  deriving DecidableEq, Repr

structure AccF where
  value  : W32 := 0
  poison : Bool := false
  deriving DecidableEq, Repr

/-- The tables that a TBUILD builds for the lookup instruction that follows (R181, R214): its index and word, how many halves of the lookup buffer of
each of its units they go through, one or both in turn, and the operands that it builds them from, as the bytes and the poisoned lines of the
cluster's store at its start (notes/assumptions/54.md). -/
structure Built where
  index  : Nat
  word   : BitVec 128
  halves : Nat := 1
  cells  : List Host.Cell := []
  lines  : List Nat := []
  deriving DecidableEq, Repr

/-- What makes a tile-step be resolved by replay: an accumulator overflow, a division by zero or a parity error (R143, R144, R445). -/
inductive Trap where
  | accOverflow
  | divZero
  | parity (path : ParityPath)
  deriving DecidableEq, Repr

/-- What the hardware captures in the cycle in which it detects an event: the values of its moment that a report card carries (R459). -/
structure Moment where
  stamp    : W64 := 0
  step     : W64 := 0
  temp     : BitVec 16 := 0
  /-- For each cluster that may be concerned, by number: its region's supply in mV and its island clock in MHz. -/
  supplies : List (Nat × Nat × Nat) := []
  deriving DecidableEq, Repr

/-- One element that an instruction writes: its address, its bytes and its poison. -/
structure Piece where
  addr   : Nat
  bytes  : List Byte
  poison : Bool := false
  deriving DecidableEq, Repr

/-- A range of memory that holds what a tile-step, by its number in the run, has written, or what a transfer has carried on from there (R449). -/
structure Derived where
  addr : Nat
  len  : Nat
  tile : Nat
  deriving DecidableEq, Repr

/-- A tile-step: the work from the start of a job or a STEP to the next STEP or END (R215), with what the replay window
holds of it (R450) and what the checks know of it (R446 to R449). -/
structure Tile where
  /-- t, the cluster's tile-steps since its last STEP with ADV = 1 (R446), and the index of its first instruction. -/
  number    : Nat := 0
  start     : Nat := 0
  /-- The cluster's copy of the step counter as the tile-step started. -/
  step      : W64 := 0
  session   : Nat := 0
  /-- Its number among the tile-steps that have begun, from 1; 0 before its first instruction (R450). -/
  id        : Nat := 0
  /-- SAMPLE_LOG2 as it became the next tile-step (R446, R483). -/
  log2      : Nat := 5
  /-- What its V = 0 instructions have written, each element with the index of its instruction (R448). -/
  written   : List (Nat × Piece) := []
  /-- It has a V = 0 instruction, so it may be sampled. -/
  classE    : Bool := false
  /-- Its first instruction has been reached, and its last has completed. -/
  begun     : Bool := false
  ended     : Bool := false
  sampled   : Bool := false
  compared  : Bool := false
  trap      : Option Trap := none
  /-- A duplicate whose digest differed, until the vote decides it (R455). -/
  checker   : Option W64 := none
  /-- The listed bytes of the cluster store as the tile-step started, its poisoned lines, the lines delivered since, and the function tables in
  force (R450, R569). -/
  inputs    : List Host.Cell := []
  poison    : List Nat := []
  /-- The tile-steps, not settled as it read them, that its inputs come from (R449). -/
  sources   : List Nat := []
  fn        : List (List (BitVec 16)) := []
  /-- Bytes that the tile-step overwrote, and the poison bits of the lines, newest first, so that its results can be discarded (R143, R445). -/
  undo      : List (Nat × Byte) := []
  undoLines : List (Nat × Bool) := []
  /-- The work it was part of has been dropped, restarted or ended: no result of it is replaced any more (R346, R482). -/
  dropped   : Bool := false
  /-- A replay has given its results: what its own cluster computes further is not written (R143, R445, R451). -/
  replaced  : Bool := false
  instr     : Nat := 0
  opcode    : BitVec 8 := 0
  /-- The moment of its event or mismatch (R459). -/
  moment    : Option Moment := none
  deriving DecidableEq, Repr

/-- A block of a weight or scale stream in a unit's queue, with the tag the fetch engine attached (R194, R263). -/
structure TaggedRow where
  tag    : BitVec 16
  bytes  : List Byte
  poison : Bool
  deriving DecidableEq, Repr

/-- A translation that a cache holds: a session's 64 KiB page and what it maps to (R380). -/
structure Translation where
  session  : Nat
  page     : Nat
  phys     : Nat
  writable : Bool
  deriving DecidableEq, Repr

/-- What a physical cluster holds besides its registers and its store. -/
structure Cluster where
  /-- Index of the next instruction to issue (R201). -/
  issue      : Nat := 0
  unitPipe   : List InFlight := []
  finPipe    : List InFlight := []
  /-- The wait of the next instruction has been satisfied and its count taken (R217). -/
  waitDone   : Bool := false
  /-- List lines that LIST_READY has delivered and lines posted free (R224). -/
  linesReady : Nat := 0
  linesFreed : Nat := 0
  /-- Posts that wait for one of an instruction issued earlier to the same semaphore, oldest first (R218). -/
  owed       : List Post := []
  /-- The integer and FP32 accumulator of each cell, by 64 × unit + cell (R139), and N and UNITS of the unit pipe's last instruction
  (R211). -/
  accInt     : Sparse Acc := []
  accFloat   : Sparse AccF := []
  accN       : Nat := 0
  accUnits   : BitVec 8 := 0
  /-- The tables in the halves of the lookup buffers, oldest first: at most two halves of a unit are in use (R181). -/
  tables     : List Built := []
  /-- The two function tables of the finish unit (R197); empty means every entry 0 (R569). -/
  fn0        : List (BitVec 16) := []
  fn1        : List (BitVec 16) := []
  /-- Weight and scale blocks that fetch queues with TAG_EN have delivered and no unit has taken, by queue (R194, R195). -/
  blocks     : Sparse (List TaggedRow) := []
  /-- The running tile-step and those of the replay window that are not settled (R450). -/
  tile       : Tile := {}
  window     : List Tile := []
  /-- The step counter copy as the job started (R302). -/
  jobStep    : W64 := 0
  /-- The translation cache of the fetch engine, newest first, at most 64 entries (R380). -/
  cache      : List Translation := []
  lastPass   : W64 := 0
  lastExam   : W64 := 0
  /-- Stamps of the report cards of KIND 1 to 8 against this cluster (R461, R462). -/
  cardStamps : List W64 := []
  deriving DecidableEq, Repr

/-- A request of a fetch queue in flight (R268): the physical address of its source, its length, the parts of its destination as
(offset in the request, address, length), the device-virtual pages it was translated through, and its delivery row. -/
structure Request where
  src   : Nat
  len   : Nat
  parts : List (Nat × Nat × Nat) := []
  pages : List Nat := []
  row   : Nat
  /-- The source has been given up: the request delivers 0x00 with poison (R282). -/
  zero  : Bool := false
  /-- Its queue parked: its data is discarded as it returns (R280). -/
  drop  : Bool := false
  /-- The host link over which its READ_REQ left, for a source in host memory; none while its die has no route (R403, R404). -/
  asked : Option Nat := none
  /-- It was translated through an entry that an invalidation drops, before that began (R381). -/
  old   : Bool := false
  /-- It has returned, and bytes of it wait for a host link (R403): it still counts as outstanding (R269). -/
  held  : Bool := false
  deriving DecidableEq, Repr

/-- Why a fetch queue is parked on a translation fault (R280, R383). -/
structure QueueFault where
  va    : Nat
  write : Bool
  kind  : Nat
  level : Nat
  entry : W64
  deriving DecidableEq, Repr

/-- A fetch queue: its descriptor and the transfer it runs (R258 to R272). -/
structure FetchQ where
  /-- The 128 bytes of the descriptor (R259), shown by FET_DESC. -/
  desc     : List Byte := []
  /-- Rows issued completely, whether the next one is being issued, and the next request inside it (R261, R268). -/
  row      : Nat := 0
  rowOpen  : Bool := false
  i1       : Nat := 0
  i0       : Nat := 0
  posted   : Nat := 0
  /-- Rows for which credit has been taken (R270, R281). -/
  credited : Nat := 0
  inflight : List Request := []
  fault    : Option QueueFault := none
  /-- The source has been given up (R282). -/
  poisoned : Bool := false
  /-- A pause stops the queue at its next delivery row (R288). -/
  pausing  : Bool := false
  /-- The tile-step, and the index in it, of the V = 0 FETCH_ARM that armed the queue (R448). -/
  armer    : Option (Nat × Nat) := none
  deriving DecidableEq, Repr

/-- A channel of an entropy unit, besides its registers and lane contexts (R99 to R104). -/
structure Channel where
  /-- Position in the feed ring, and symbols of the open segment taken. -/
  feedPos    : Nat := 0
  taken      : Nat := 0
  /-- The wait on FEED_READY for the next record, and on RES_FREE for the next result, has been satisfied (R101). -/
  fed        : Bool := false
  freed      : Bool := false
  /-- Position in the result ring, and results written and not posted. -/
  resPos     : Nat := 0
  unposted   : Nat := 0
  /-- A decoded code that waits for RES_FREE, and whether the record it came from had POST set (R101). -/
  result     : Option Byte := none
  postAfter  : Bool := false
  /-- The lane descriptor table of the open segment. -/
  desc       : Nat := 0
  /-- A lane clamped its target in the open segment (R86), and which kind of symbols the segment has carried: side symbols. -/
  clamped    : Bool := false
  side       : Bool := false
  /-- The channel has taken a record since it was enabled, so that STEP_TAG has a previous tag (R103). -/
  tagged     : Bool := false
  deriving DecidableEq, Repr

/-! ### Sessions -/

/-- The stream parameters of R58, R111 and R126, as a stream-unit payload carries them. -/
structure StreamParams where
  media      : Nat := 0
  format     : Nat := 0
  width      : Nat := 0
  height     : Nat := 0
  sliceRows  : Nat := 0
  window     : Nat := 0
  group      : Nat := 0
  refs       : Nat := 0
  slope      : Nat := 0
  q          : Nat := 0
  latentC    : Nat := 0
  sideC      : Nat := 0
  sInit      : Nat := 0
  sMin       : Nat := 0
  rate       : Nat := 0
  frameMs    : Nat := 0
  emission   : Bool := false
  audit      : Bool := false
  periodic   : Bool := false
  capPic     : Nat := 0
  capPer     : Nat := 0
  periodPics : Nat := 0
  refresh    : Nat := 0
  picBase    : Nat := 0
  codecDigest : List Byte := []
  deriving DecidableEq, Repr

/-- The codec block of an image (R227). -/
structure CodecBlock where
  format  : Nat := 0
  latentC : Nat := 0
  sideC   : Nat := 0
  slope   : Nat := 0
  refs    : Nat := 0
  qmask   : W64 := 0
  sizes   : List (Nat × Nat) := []
  deriving DecidableEq, Repr

/-- A list of one logical cluster as the image places it (R226): ring line, ring size, streamed, its bytes and length, and the count of
its STEP instructions with ADV = 1 (R302). -/
structure ListPlace where
  lclus    : BitVec 16
  line     : Nat
  sizeLog2 : Nat
  streamed : Bool
  words    : List Byte
  len      : Nat
  advSteps : Nat
  deriving DecidableEq, Repr

/-- A section 0x07 entry (R275). -/
structure SemEntry where
  sem    : Nat
  die    : Nat
  kind   : Nat
  waiter : BitVec 16
  queue  : Nat
  init   : W32
  deriving DecidableEq, Repr

/-- What the device keeps of a session's image (R225 to R228). -/
structure Image where
  digest       : List Byte := []
  weightDigest : List Byte := []
  codecDigest  : List Byte := []
  regionSet    : BitVec 200 := 0
  isCodec      : Bool := false
  codec        : CodecBlock := {}
  lists        : List ListPlace := []
  sems         : List SemEntry := []
  descs        : List (BitVec 16 × List Byte) := []
  windows      : List (Nat × Nat) := []
  weights      : List (List Byte) := []
  deriving DecidableEq, Repr

/-- A buffer-list entry (R335). -/
structure Buffer where
  addr  : Nat
  pitch : Nat
  len   : Nat
  deriving DecidableEq, Repr

/-- Where a job stands: waiting for clusters, running, or with every list ENDED and its checks or its close unit outstanding
(R345, R452). -/
inductive JobPhase where
  | queued | running | ended
  deriving DecidableEq, Repr

/-- A job of a session: a picture, a frame or a model invocation (R203, R335). -/
structure Job where
  tag    : W32
  queue  : Nat
  sqHead : Nat
  seq    : W32
  ins    : List Buffer
  outs   : List Buffer
  audit  : Nat
  due    : Option Nat := none
  /-- Due at a bell that rang during a restart of the homeroom (R353); withdrawn before its turn (R354). -/
  late   : Bool := false
  withdrawn : Bool := false
  /-- Its place in the order of submissions (R330). -/
  order  : Nat := 0
  phase  : JobPhase := .queued
  /-- The picture number that the job of a codec session has taken. -/
  pic    : Option W32 := none
  /-- The input bytes, as read when the job was dispatched (R320), and whether one of their lines was poisoned (R286). -/
  input  : List Byte := []
  tainted : Bool := false
  deriving DecidableEq, Repr

/-- An origin record of the exception summary (R160, R161). -/
structure Origin where
  step    : W64
  element : Nat
  instr   : Nat
  opcode  : BitVec 8
  punit   : BitVec 16
  lclus   : BitVec 16
  kind    : Nat
  ordered : Bool
  count   : W32
  deriving DecidableEq, Repr

/-- Values staged through the object dictionary for the next refresh point (R499, R500). -/
structure Staged where
  q       : BitVec 8 := 0xFF
  capPic  : W32 := 0
  capPer  : W32 := 0
  refresh : BitVec 16 := 0
  deriving DecidableEq, Repr

/-- The samples or elements of a plane: its rows, each from left to right. -/
abbrev Plane := List (List Int)

/-- A picture of the reference store (R63, R64): its number and the output of its synthesis, before output conversion (notes/assumptions/52.md). -/
structure Reference where
  pic    : W32
  planes : List Plane
  deriving DecidableEq, Repr

/-- A slice unit the encoder emitted, or a decoder holds: its index, edition, lanes and whole unit (R114, R119), and its
capped tiles. -/
structure Slice where
  index   : Nat
  edition : Nat
  lanes   : List (List Byte)
  unit    : List Byte
  cap     : Nat := 0
  /-- The largest |q| of its final codes by scale group, in an encoder (R67). -/
  maxima  : Sparse Nat := []
  deriving DecidableEq, Repr

/-- The picture an encoder codes (R117 to R123). -/
structure EncPicture where
  pic        : W32
  noref      : Bool
  forced     : Bool
  requested  : Bool
  /-- The planes after input conversion and padding (R48, R51, R57), the references that its stages read (none of a no-reference picture),
  and the quality that its networks are passed (R127). -/
  x          : List Plane := []
  reads      : List Reference := []
  q          : Nat := 0
  /-- The side lanes coded so far, by lane (R54). -/
  side       : Sparse (Option (List Byte)) := []
  /-- Its work has been discarded and starts again without references (R71). -/
  restart    : Bool := false
  /-- The picture unit has left, directly before slice unit 0, with these side lanes. -/
  unitOut    : Bool := false
  sideLanes  : List (List Byte) := []
  /-- Sizes of the picture unit, and the slices emitted at their last editions. -/
  unitSize   : Nat := 0
  slices     : List Slice := []
  /-- Slices from this index on are to be coded again after a vote (R119). -/
  recode     : Option Nat := none
  /-- An obligation that stood as the first slice unit of this no-reference picture left: its close discharges it (R72). -/
  owed       : Bool := false
  /-- Unit bytes in the order they left, with re-emissions: the position in the output buffer. -/
  emitted    : Nat := 0
  deriving DecidableEq, Repr

/-- The encoder side of a session. -/
structure Encoder where
  params       : StreamParams := {}
  staged       : Staged := {}
  nextPic      : W32 := 0
  /-- A refresh point is due before the next picture (R74), and no picture has closed since the last one (R118). -/
  refreshDue   : Bool := true
  noneClosed   : Bool := true
  requested    : Bool := false
  sinceRefresh : Nat := 0
  /-- A forced no-reference obligation stands (R72). -/
  obligation   : Bool := false
  current      : Option EncPicture := none
  /-- The reference store, newest first (R63, R64). -/
  refs         : List Reference := []
  periodSpent  : Nat := 0
  periodPics   : Nat := 0
  satAtClose   : W64 := 0
  cappedTiles  : W32 := 0
  reeditions   : W32 := 0
  deriving DecidableEq, Repr

/-- The picture a decoder has open (R124). -/
structure DecPicture where
  pic       : W32
  slices    : Nat
  noref     : Bool
  unit      : List Byte
  /-- Its side lanes, the references that its decoding reads (none of a marked picture, R73), and the quality passed (R127). -/
  side      : List (List Byte) := []
  reads     : List Reference := []
  q         : Nat := 0
  held      : List Slice := []
  /-- Its side segment was damaged, so that it counts as not received; the slices whose segments were damaged, by index and edition (R86). -/
  lost      : Bool := false
  damaged   : List (Nat × Nat) := []
  /-- Its SLICES is wrong: it is treated as not received, and its later units are discarded without count (R124). -/
  bad       : Bool := false
  /-- It has been counted in LOST (R75). -/
  counted   : Bool := false
  deriving DecidableEq, Repr

/-- The decoder side of a session (R112, R124, R125). -/
structure Decoder where
  /-- Stream bytes received and not yet parsed; the scan of R124 for the next good unit is under way. -/
  inbuf      : List Byte := []
  scanning   : Bool := false
  /-- The bytes of the running job end at a poisoned line (R286). -/
  cut        : Bool := false
  /-- The latest stream unit. -/
  stream     : Option StreamParams := none
  /-- No picture is written until the next refresh point, or until a stream unit that passes R112 (R75). -/
  blocked    : Bool := true
  /-- No picture has closed since the latest stream unit (R124). -/
  fresh      : Bool := false
  current    : Option DecPicture := none
  /-- The PIC of the latest picture or dropped-picture unit accepted, and the PIC expected next (R118, R124). -/
  previous   : Option W32 := none
  expect     : Option W32 := none
  /-- A picture whose close unit has been processed, with the input bytes of R320: its FINAL is outstanding. -/
  closing    : Option (DecPicture × List Byte) := none
  /-- FINAL completions posted for the running job. -/
  finals     : Nat := 0
  /-- The pictures that the reference store holds, newest first (R63). -/
  refs       : List Reference := []
  deriving DecidableEq, Repr

/-- The counters of a session that its status block reports (R340, R499). -/
structure Counters where
  lost        : W32 := 0
  crcErr      : W32 := 0
  unknown     : W32 := 0
  late        : W32 := 0
  duplicate   : W32 := 0
  dropped     : W32 := 0
  forcedNoref : W32 := 0
  pictures    : W32 := 0
  damaged     : W32 := 0
  lastSeq     : W32 := 0
  /-- Jobs dropped at bells; the latest first-slice and whole-picture latency, and the largest first-slice latency since it was last read, in µs
  (R499). -/
  bellDrops   : W32 := 0
  firstUs     : BitVec 16 := 0
  pictureUs   : BitVec 16 := 0
  worstUs     : BitVec 16 := 0
  deriving DecidableEq, Repr

/-- The kinds of a session (R326); none: the number is free. -/
inductive Kind where
  | none | encode | decode | model
  deriving DecidableEq, Repr

/-- The states a status block shows (R340). -/
inductive SessionState where
  | closed | open_ | paused | ending
  deriving DecidableEq, Repr

/-- What a job that has yielded its clusters holds of one of them (R330): the cluster's engine and unit state, whether its list had
ended, the bytes of its store and its poisoned lines, and the fetch queues armed for it, with the registers of each. -/
structure Yielded where
  lclus   : BitVec 16
  cluster : Cluster := {}
  ended   : Bool := false
  store   : List (Nat × Byte) := []
  poison  : List Nat := []
  fetch   : List (Nat × FetchQ × List (Nat × W32)) := []
  deriving DecidableEq, Repr

/-- A session: its parameters, image, jobs and class E state (R326 to R340). -/
structure Session where
  kind       : Kind := .none
  state      : SessionState := .closed
  queue      : Nat := 0
  homeroom   : Nat := 0
  dies       : BitVec 25 := 0
  live       : Bool := false
  ordered    : Bool := false
  nanTrap    : Bool := false
  bellHost   : Bool := false
  fullRedundancy : Bool := false
  deadline   : Nat := 0
  period     : Nat := 0
  jobCycles  : Nat := 0
  seeds      : List W64 := []
  image      : Image := {}
  root       : Nat := 0
  saveBytes  : Nat := 0
  sat        : W64 := 0
  excFlags   : BitVec 3 := 0
  /-- Origin records in the order of R162; the summary shows the first 256 and counts the others. -/
  origins    : List Origin := []
  counters   : Counters := {}
  /-- The running-maximum history of each scale group, oldest first, and the largest |q| of the open picture (R67 to R69). -/
  hist       : Sparse (List Nat) := []
  qMax       : Sparse Nat := []
  /-- The history of the pictures closed before the open one, by which the open picture is scaled; a dropped job leaves no entry
  (R68, R69, R302). -/
  histAtJob  : Sparse (List Nat) := []
  /-- The LSTAT instructions that took the open picture's statistic: cluster number and word (R67). -/
  stats      : List (Nat × BitVec 128) := []
  enc        : Encoder := {}
  dec        : Decoder := {}
  jobs       : List Job := []
  jobNumber  : W32 := 0
  /-- The latest bell, none before bell 0 (R343), and the homeroom's stamp as it rang (R330). -/
  bell       : Option Nat := Option.none
  bellStamp  : W64 := 0
  /-- PAUSE waits for a pause point: tag, queue, SQ head, destination (R310). -/
  pauseTo    : Option (W32 × Nat × Nat × Nat) := Option.none
  /-- A CLOSE_SESSION waits for the running job: tag, queue, SQ head. A live stream ends at its next bell with a status (R463, R501). -/
  closing    : Option (W32 × Nat × Nat) := Option.none
  stopAtBell : Option Nat := Option.none
  orderChanged : Bool := false
  slot       : Option Nat := Option.none
  /-- The session's copies of the step counter at clusters that another session's job has used since, by logical cluster (R215). -/
  copies     : Sparse W64 := []
  /-- Weight digests that other devices of a spanning session have sent, by device index (R468). -/
  replicas   : Sparse (List (List Byte)) := []
  /-- The step at which each die last recomputed the digest of a weight section, by 65536 × die + section, and that at which the principal die last
  sent the recorded ones (R466, R468). -/
  wdigAt     : Sparse Nat := []
  wdigSent   : Nat := 0
  /-- What the running job holds on the device while a live job has its clusters; it is asked to yield them (R330). -/
  yields     : List Yielded := []
  yielding   : Bool := false
  deriving DecidableEq, Repr, Inhabited

/-- What a save record's body holds of a paused session (R311): its control state, and by logical cluster, die or channel the
engines, stores, queues, semaphores, die-buffer windows and lane contexts that it uses; a store or window with its poisoned lines, and the
posts still on their way to its semaphores. -/
structure Snapshot where
  session  : Session
  clusters : List (BitVec 16 × Cluster) := []
  exe      : List (BitVec 16 × List (Nat × W32)) := []
  stores   : List (BitVec 16 × List (Nat × Byte) × List Nat) := []
  fetch    : List (BitVec 16 × Nat × FetchQ × List (Nat × W32)) := []
  sems     : List (Nat × Nat × W32) := []
  posts    : List Post := []
  buffers  : List (Nat × List (Nat × Byte) × List Nat) := []
  channels : List (Nat × Channel × List (Nat × W32)) := []
  /-- Firmware version, partition dies and physical slots at the save (R314). -/
  version  : Nat := 0
  slots    : List (BitVec 16 × Nat) := []
  deriving DecidableEq, Repr, Inhabited

/-! ### Queues and partitions -/

/-- A 64-byte command as the ring holds it (R335). -/
structure HostCmd where
  opcode  : BitVec 8 := 0
  flags   : BitVec 8 := 0
  session : BitVec 12 := 0
  tag     : W32 := 0
  args    : List W64 := []
  head    : Nat := 0
  /-- The bell at which the job of a live SUBMIT is due, by the moment of its fetch (R344); a BELL that rang as it was fetched (R343). -/
  due     : Option Nat := none
  rang    : Bool := false
  deriving DecidableEq, Repr

/-- A completion (R338), before the PHASE of its place in the ring is known. -/
structure Completion where
  tag     : W32 := 0
  session : Nat := 0
  kind    : Nat := 1
  status  : Nat := 0
  sqHead  : Nat := 0
  seq     : W32 := 0
  slice   : Nat := 0
  edition : Nat := 0
  audit   : Nat := 0
  order   : Bool := false
  detail  : W64 := 0
  /-- Its audit record, as bytes at physical addresses, until the host writes that it covers are acknowledged (R322, R402). -/
  record  : List (Nat × List Byte) := []
  /-- The die that writes the record, the session's homeroom as the job ended; and whether a memory has refused it, so that the session ends (R375). -/
  recDie  : Nat := 0
  refused : Bool := false
  deriving DecidableEq, Repr

/-- A host queue: its rings and what stands between them (R331 to R334). -/
structure HostQueue where
  sq       : Nat := 0
  cq       : Nat := 0
  sqLog2   : Nat := 0
  cqLog2   : Nat := 0
  homeroom : Nat := 12
  priority : Nat := 0
  /-- Commands fetched and not yet executed, oldest first. -/
  fetched  : List HostCmd := []
  /-- Completions written and consumed since the queue became active, and those held for room or for acknowledgements (R334, R402). -/
  written  : Nat := 0
  consumed : Nat := 0
  held     : List Completion := []
  /-- A doorbell kept while the owner restarts (R352). -/
  kept     : Option W32 := none
  /-- Commands whose completion is not written: FENCE waits for them (R333). -/
  openCmds : Nat := 0
  deriving DecidableEq, Repr

/-- The states of a partition (R328), with the codes FWC_PART_ID shows (R564). -/
inductive PartState where
  | startUp | test | recovery | service
  deriving DecidableEq, Repr

/-- A partition: its dies, its state, the poison resets in a row before SERVICE (R556), its load in 0.1 % (R349) and the
exams that a TEST request began and not yet run, by cluster number; leave requests wait for the exams in progress, and each is answered on queue
0 with its tag and ring head unless it came through the object dictionary (R329). -/
structure Partition where
  dies    : BitVec 25
  state   : PartState := .startUp
  poisonResets : Nat := 0
  load    : Nat := 0
  exams   : List Nat := []
  leaving : Option (List (W32 × Nat)) := none
  /-- Dies whose cores have not yet reported ready after a partition reset. -/
  waiting : BitVec 25 := 0
  deriving DecidableEq, Repr

/-- The seating chart (R469, R470): region words by 8d + r, and the header and die-word fields. -/
structure Chart where
  built      : Bool := false
  regions    : Sparse (BitVec 64) := []
  generation : W32 := 0
  buildStamp : W64 := 0
  lost       : NatSet := []
  failedDies : BitVec 25 := 0
  gdAbsent   : Sparse (BitVec 2) := []
  deriving DecidableEq, Repr

/-! ### Per-die state -/

/-- An open or held fault record (R382 to R385). -/
structure FaultRecord where
  id      : W32
  session : Nat
  kind    : Nat
  write   : Bool
  va      : Nat
  level   : Nat
  lclus   : BitVec 16
  queues  : List Nat
  entry   : W64
  /-- It has been written into the fault ring; false while the ring is full (R385). -/
  ring    : Bool := false
  deriving DecidableEq, Repr

/-- An invalidation that runs (R381). -/
structure Invalidation where
  session : Nat
  first   : Nat
  pages   : Nat
  all     : Bool
  deriving DecidableEq, Repr

/-- A write into host memory on its way: the die that made it, the host link it took, its session (none: 0x8000), its host
address and its bytes (R402 to R405). -/
structure HostWrite where
  die   : Nat
  link  : Nat
  ses   : Nat
  addr  : Nat
  bytes : List Byte
  /-- The fetch queue that made it, by its number (R568). -/
  queue : Option Nat := none
  /-- It has left before, over a link that went down: it is sent again (R404). -/
  again : Bool := false
  deriving DecidableEq, Repr

/-- A region of a processor's protection unit (R432). -/
structure Region where
  base  : Nat
  size  : Nat
  read  : Bool
  write : Bool
  exec  : Bool
  deriving DecidableEq, Repr

/-- The memories of a firmware processor: 256 KiB of code, which a restart copies from the shadow; 128 KiB of data, which it clears (R419, R427), as
bytes that are not 0 by address; and the regions that the firmware sets (R432). -/
structure ProcMem where
  code    : List Byte := []
  data    : List Host.Cell := []
  regions : List Region := []
  deriving DecidableEq, Repr

/-- What a die holds besides its registers. -/
structure DieState where
  /-- Cycles of the reference clock since the die's reset, in 10 ns (R14, R513). -/
  stamp      : W64 := 0
  /-- The partition reset or thermal trip stopped the clocks of the die (R522). -/
  tripped    : Bool := false
  /-- Report cards held, oldest first, at most 256, and how many die 12 has not taken (R460). -/
  cards      : List (List Byte) := []
  cardSeq    : Nat := 0
  unsent     : Nat := 0
  /-- The health core's totals (R484). -/
  mismatches : W32 := 0
  votes      : W32 := 0
  checks     : W32 := 0
  /-- Stamps of the restarts of each processor, newest first (R431), and the events its hardware queue holds (R430). -/
  restarts   : Sparse (List W64) := []
  events     : Sparse (List (BitVec 16)) := []
  /-- The memories and protection regions of each processor (R419, R432). -/
  procs      : Sparse ProcMem := []
  /-- Answers to fault records that came while the service core restarted: they are acted on after it (R429); by number, and whether to give up. -/
  answers    : List (W32 × Bool) := []
  /-- Open fault records, the number of the next one, and the records written into the ring and consumed (R382, R383, R385). -/
  faults       : List FaultRecord := []
  faultNext    : W32 := 0
  faultWritten : Nat := 0
  faultRead    : Nat := 0
  /-- Die-buffer windows: owner, base granule and length (R358). -/
  windows    : Sparse (Option (Nat × Nat × Nat)) := []
  /-- Die translation cache, newest first, at most 4,096 entries (R380). -/
  cache      : List Translation := []
  invalid    : Option Invalidation := none
  /-- Log records written since reset (R433), and by trace point the die's stamp as its count was last read, plus 1 (R436). -/
  logSeq     : Nat := 0
  traceRead  : Sparse Nat := []
  /-- Passes of each trace point since then for which it wrote a TRACE record (R436). -/
  traced     : Sparse Nat := []
  /-- Applied region supplies in mV and thermal emergency (R510, R521). -/
  vApplied   : Sparse Nat := []
  hot        : Bool := false
  /-- The limiter's cap in 1/8 W, rails in fault by PMBus address, and sensors in 1/8 degree (R512, R518, R520). -/
  limit      : Nat := 0xFFFF
  railFault  : NatSet := []
  sensors    : Sparse (BitVec 16) := []
  /-- The die's stamp at the last reading of a junction in the upper band or above; 0 before (R475, R476). -/
  bandAt     : W64 := 0
  /-- Random word ready (R537). -/
  rngWord    : Option W32 := none
  /-- Host writes that wait for a route (R403), and whether the die has had none for 10 µs (R405). -/
  hostHeld   : List HostWrite := []
  noRoute    : Bool := false
  /-- Clusters in RECESS: 17 × region + slot (R476), and the state that each one's slot had before. -/
  recess     : NatSet := []
  /-- The die's stamp as the exam in progress began (R475). -/
  recessAt   : W64 := 0
  seats      : Sparse Nat := []
  deriving DecidableEq, Repr

/-! ### Boundary scan (R559) -/

/-- The states of a TAP controller of IEEE 1149.1. -/
inductive TapState where
  | testLogicReset | runTestIdle | selectDr | captureDr | shiftDr | exit1Dr | pauseDr | exit2Dr | updateDr
  | selectIr | captureIr | shiftIr | exit1Ir | pauseIr | exit2Ir | updateIr
  deriving DecidableEq, Repr

/-- The instructions of a TAP. -/
inductive TapInstr where
  | bypass | idcode | samplePreload | extest
  deriving DecidableEq, Repr

/-- A die's TAP: the shift stage of its instruction register, the instruction in force, the data register that is shifted, and the boundary
register's held levels. -/
structure TestPort where
  shift    : BitVec 8 := 0
  instr    : TapInstr := .idcode
  data     : List Bool := []
  boundary : List Bool := []
  deriving DecidableEq, Repr

/-- The chain of 25 TAPs, which TMS moves together. -/
structure Jtag where
  state : TapState := .testLogicReset
  taps  : Sparse TestPort := []
  deriving DecidableEq, Repr

/-! ### Links, power, EtherCAT, security, flash, firmware, package -/

/-- What the package sends to the outside: answers to reads, mailbox answers, frames, messages to other principal dies. -/
inductive Reply where
  /-- A register read's value (R401). -/
  | register (die : Nat) (off : Nat) (value : W32)
  /-- READ_DATA: an address, its bytes and one poison bit per line (R394). -/
  | readData (addr : Nat) (data : List Byte) (poison : List Bool)
  /-- A unit that left an encoder (R117). -/
  | wsf (session : Nat) (unit : List Byte)
  /-- An SDO upload answer, a download answer, an abort (R493, R494). -/
  | sdoData (data : List Byte)
  /-- A segmented upload's first answer, the length of the value, and its segments (R492, R494). -/
  | sdoStart (size : Nat)
  | sdoSegment (toggle last : Bool) (data : List Byte)
  | sdoOk
  | sdoAbort (code : W32)
  /-- A mailbox request refused because the session core has failed (R489); an emergency message read from the mailbox (R504). -/
  | mailboxRefused
  | emergency (code field : BitVec 16)
  /-- The state machine's answer: the state and the AL status code (R488). -/
  | al (state : AlState) (status : BitVec 16)
  /-- A frame forwarded, with the input data inserted when it reads them (R490). -/
  | frame (port : Nat) (inputs : List Byte)
  /-- A word of the SII identity table (R488). -/
  | sii (v : BitVec 16)
  /-- READ_REQ and WRITE of the device to the host (R394, R402). -/
  | hostRead (link addr len : Nat)
  | hostWrite (write : HostWrite)
  /-- The identity word that the device sends in training: a CQ25, its group, its device index and the link's number (R391). -/
  | identity (link : Nat) (group : BitVec 16) (device : Nat)
  /-- A flit that carries no packet, or one that is sent again (R392, R396). -/
  | flit (link : Nat) (bytes : List Byte)
  /-- A channel line or channel credits sent to the partner (R410), and the abort of a channel pair with the status of its session (R412). -/
  | line (link : Nat) (chan : Nat) (bytes : List Byte)
  | chanCredit (link : Nat) (chan : Nat) (lines : Nat)
  | chanAbort (link : Nat) (chan : Nat) (status : Nat)
  /-- Weight digests sent to another device of a spanning session (R468), and a forwarded library (R481). -/
  | digests (link : Nat) (session : Nat) (values : List (List Byte))
  | library (link : Nat) (bytes : List Byte)
  /-- Answers of the SDO information service: the objects; an object's type, highest sub-index and name; an entry's type, bit length, access,
  mappability and name (R486, R492). -/
  | objectList (indices : List Nat)
  | objectDesc (index : BitVec 16) (type : CoeType) (maxSub : Nat) (name : String)
  | entryDesc (index : BitVec 16) (sub : BitVec 8) (type : CoeType) (bits : Nat) (access : String) (mappable : Bool) (name : String)
  /-- PMBus: the master reads a regulator; its answer is the command's operand (R511, R512). -/
  | pmbus (segment : Nat) (address : BitVec 7) (command : PmbusCommand)
  deriving DecidableEq, Repr

/-- A link channel of one direction (R410 to R413): where its ring lies and its lines while it is active; lines sent and credited
(transmit), written, freed and not yet posted (receive); credits that wait for the link, and lines that the partner will send again. -/
structure LinkChannel where
  base     : Nat := 0
  lines    : Nat := 0
  sent     : Nat := 0
  credited : Nat := 0
  written  : Nat := 0
  freed    : Nat := 0
  unposted : Nat := 0
  owed     : Nat := 0
  skip     : Nat := 0
  /-- Bytes written (transmit) or read (receive), one bit each, by line number. -/
  covered  : Sparse (BitVec 64) := []
  /-- The places of a receive ring that hold a line not yet read whole (R410). -/
  full     : NatSet := []
  deriving DecidableEq, Repr

/-- A packet that waits at a link: the die that it comes from (R406), its VC, its flits, the 64-byte lines of it still to be served, and what
is sent. -/
structure Packet where
  src   : Nat
  vc    : Nat
  flits : Nat
  lines : Nat
  reply : Reply
  deriving DecidableEq, Repr

/-- A flit in the replay buffer, and how often it has been sent (R396, R398). -/
structure SentFlit where
  bytes : List Byte
  sends : Nat := 1
  deriving DecidableEq, Repr

/-- A Mboholt link besides its registers (R392 to R398). -/
structure Link where
  /-- Sequence numbers of the next flit to send and of the last flit received correctly. -/
  txSeq    : BitVec 12 := 0
  rxSeq    : BitVec 12 := 0xFFF
  /-- A NAK has been sent and the flit it asks for has not come. -/
  nakSent  : Bool := false
  /-- The replay buffer: the flits sent and not acknowledged, oldest first (R396). -/
  replay   : List SentFlit := []
  /-- Credits held for each VC, none while the link is down; and buffers freed whose credits the next flit returns (R395). -/
  credits  : List Nat := [0, 0, 0, 0]
  owed     : List Nat := [0, 0, 0, 0]
  /-- Packets that wait for credits, for room in the replay buffer or for their die's turn (R395, R396, R406). -/
  waiting  : List Packet := []
  /-- The source die that the link serves, and the lines left of its turn (R406). -/
  turn     : Nat := 0
  left     : Nat := 0
  tx       : Sparse LinkChannel := []
  rx       : Sparse LinkChannel := []
  /-- RETRAIN is waited for after an expulsion (R468); only a RETRAIN of the host brings 8 lanes back (R398). -/
  expelled : Bool := false
  keepHalf : Bool := false
  /-- The role of the link's last training: a ROLE written since takes effect at the next one (R400). -/
  role     : Nat := 0
  deriving DecidableEq, Repr

/-- A regulator as the power manager last read it (R512, R526). -/
structure Rail where
  vout    : BitVec 16 := 0
  iout    : BitVec 16 := 0
  status  : BitVec 16 := 0
  present : Bool := false
  lost    : Bool := false
  fails   : Nat := 0
  deriving DecidableEq, Repr

/-- A login level (R495). -/
inductive Level where
  | observer | operator | maintainer
  deriving DecidableEq, Repr

/-- A segmented transfer in progress: the stamp of die 12 at its last segment, and the toggle that its next one must have (R494). -/
structure Transfer where
  last   : W64 := 0
  toggle : Bool := false
  deriving DecidableEq, Repr

/-- A segmented upload in progress: what it has still to send, the toggle of its next segment, and the stamp of die 12 at its last one (R494). -/
structure Upload where
  rest   : List Byte := []
  toggle : Bool := false
  last   : W64 := 0
  deriving DecidableEq, Repr

/-- The EtherCAT slave controller and the object dictionary's own values (16). -/
structure Ect where
  state       : AlState := .init
  alStatus    : BitVec 16 := 0
  /-- The session core has run since the package reset (R488). -/
  coreRan     : Bool := false
  coreFailed  : Bool := false
  level       : Level := .observer
  locked      : Bool := false
  wrongKeys   : Nat := 0
  /-- Stamps of die 12 at the last mailbox request, the start of the lock and the last refresh of the mirror. -/
  lastMailbox : W64 := 0
  lockStart   : W64 := 0
  lastRefresh : W64 := 0
  opDigest    : Option (List Byte) := none
  maDigest    : Option (List Byte) := none
  /-- Entries of 0x1A00, and how many of them are mapped (R491). -/
  mapping     : List W32 := []
  mapCount    : Nat := 8
  mirror      : List Byte := []
  heartbeat   : BitVec 16 := 0
  emergencies : List (BitVec 16 × BitVec 16) := []
  transfer    : Option Transfer := none
  uploading   : Option Upload := none
  /-- The settings of the sync managers (start, length) and FMMUs (logical start, length, physical start), by number (R486). -/
  sm          : Sparse (Nat × Nat) := []
  fmmu        : Sparse (Nat × Nat × Nat) := []
  cardSlot    : BitVec 16 := 0
  testDies    : W32 := 0
  jobsDropped : W32 := 0
  examsDone   : W32 := 0
  bandMissed  : W32 := 0
  stagedLen   : Nat := 0
  staging     : Bool := false
  link0       : Bool := false
  link1       : Bool := false
  /-- Port 1 has closed for want of a link (R486). -/
  closed1     : Bool := false
  /-- Mailbox requests that came while the session core restarted: they are answered after it (R441, R488). -/
  held        : List Instr := []
  deriving DecidableEq, Repr

/-- The security block of die 12 (18). -/
structure Security where
  revokedFw     : BitVec 4 := 0
  revokedExam   : BitVec 4 := 0
  identityFault : Bool := false
  /-- The captured report of the attestation in progress (R538). -/
  report        : List Byte := []
  /-- The revocation record in progress: set, new slot (R536). -/
  revoking      : Option (Nat × Nat) := none
  /-- A GO came while the session core restarted: it is acted on after the restart (R542). -/
  held          : Bool := false
  deriving DecidableEq, Repr

/-- A library install in progress (R480): the bytes written to the inactive bank, and whether it runs from staged bytes. -/
structure Install where
  bank    : Nat
  len     : Nat
  staged  : Bool
  deriving DecidableEq, Repr

/-- The firmware shadow of the dies, which all hold the same package (R419, R420), and what an activation knows (R437, R438). -/
structure Firmware where
  shadow0   : List Byte := []
  shadow1   : List Byte := []
  active    : Nat := 0
  /-- Stamps of die 12 at the activation's first emergency, at the last moment at which any emergency was present, and at the commit. -/
  firstEmergency : Option W64 := none
  lastEmergency  : Option W64 := none
  commitStamp    : Option W64 := none
  /-- The stamp at which every processor had reported ready after the commit (R437). -/
  readyStamp     : Option W64 := none
  /-- A processor restarted after the commit. -/
  commitRestart  : Bool := false
  deriving DecidableEq, Repr

/-- A drain in progress (R463): the card that caused it and the clusters it flagged. -/
structure Drain where
  card    : List Byte := []
  flagged : List ClusterId := []
  written : Bool := false
  deriving DecidableEq, Repr

/-- The package as a whole: power, resets, pins and drain (15, 19). -/
structure Package where
  powered    : Bool := true
  /-- In package reset: RESET_N low, or the 10 µs after a key write (R545, R546). -/
  resetLow   : Bool := false
  keyReset   : Bool := false
  ready      : Bool := false
  /-- FAULT_N, but for NO_LIBRARY, which holds the pin low while its bit stands (R560). -/
  faultN     : Bool := true
  drainedN   : Bool := true
  thermtripN : Bool := true
  drained    : Bool := false
  drain      : Option Drain := none
  /-- The bank whose library patterns are on every die (R549); whether the exams and memory training have ended (R548). -/
  library    : Option Nat := none
  examsDone  : Bool := false
  /-- The stamp of die 12 at which the start-up exams began (R550). -/
  examsAt    : W64 := 0
  trained    : Bool := false
  failedExam : List ClusterId := []
  install    : Option Install := none
  /-- Cards that the archive in flash has taken, by which its ring goes on (R460). -/
  archived   : Nat := 0
  /-- The last limiter period: package power in W, and its 1 ms average (R516, R517). -/
  power      : Nat := 0
  avgPower   : Nat := 0
  /-- The MODEL's own count of submissions, which orders jobs (R330). -/
  submitted  : Nat := 0
  deriving DecidableEq, Repr

/-- The state of the block. -/
structure State where
  /-- Registers of the 25 control windows (R376), by d × 2^24 + offset; an unlisted one holds its reset value. -/
  regs     : Sparse W32 := []
  /-- Registers behind a selector register, by the keys of Machine/Keys.lean. -/
  bank     : Sparse W32 := []
  /-- Memory by device physical address (R376): GDDR7, CXL, SRAM apertures and the host window. -/
  mem      : List Host.Cell := []
  /-- Poisoned lines, by line number (address / 64), in every memory (R285, R369). -/
  poison   : NatSet := []
  /-- The board's flash, by flash address (R478). -/
  flash    : List Host.Cell := []
  clusters : Sparse Cluster := []
  fetch    : Sparse FetchQ := []
  channels : Sparse Channel := []
  posts    : List Post := []
  sessions : Sparse Session := []
  queues   : Sparse HostQueue := []
  parts    : List Partition := []
  chart    : Chart := {}
  dies     : Sparse DieState := []
  links    : Sparse Link := []
  rails    : Sparse Rail := []
  ect      : Ect := {}
  sec      : Security := {}
  fw       : Firmware := {}
  pkg      : Package := {}
  jtag     : Jtag := {}
  out      : List Reply := []
  /-- How many tile-steps have begun, the ranges that hold results of tile-steps not settled (R449), and the tile-steps whose results a vote has
  replaced while another of the same step was open: the readers of all are replayed once (R451, R482). -/
  steps    : Nat := 0
  derived  : List Derived := []
  redo     : List Nat := []
  /-- Host writes not yet acknowledged, oldest first (R402). -/
  hostw    : List HostWrite := []
  /-- The MODEL's own field, not the spec's: what the bodies of the save records written so far hold, by the records' digests;
the layout of a body belongs to the firmware (R313). -/
  saves    : List (List Byte × Snapshot) := []
  /-- The MODEL's own field, not the spec's: dies at which the command that runs met a poison event (R287); empty between commands. -/
  pev      : NatSet := []
  /-- The MODEL's own field, not the spec's: how many free values the run has taken. -/
  fresh    : Nat := 0
  /-- The commands that wait, first in, first out. -/
  pending  : List Instr := []
  deriving DecidableEq, Repr

/-- The default TxPDO mapping after a package reset (R503). -/
def defaultMapping : List W32 :=
  [0x2003_0110, 0x2003_0210, 0x2100_0210, 0x2100_0510, 0x5000_0110, 0x5000_0310, 0x4000_0510, 0x2100_0320]

/-- The block right after reset: the package has left package reset and is in the hardware phase (R546, R548); nothing is
listed in memory or flash, every register reads its reset value, no session is open and no command waits. -/
def State.reset : State := { ect := { mapping := defaultMapping } }

end Sys2Proof.Machine
end

