-- ==== Sys2Proof/Machine/Ops.lean ====
section
/-!
DEFINITION. The named operations over registers, over the tables of State and over memory: every meaning reads and writes the
state through them.
-/

namespace Sys2Proof.Machine

/-- What a step answers. -/
abbrev Result := Host.Outcome State Fault Refusal

/-! ### Registers -/

/-- The register under a key as State holds it. -/
def State.rd (s : State) (k : Nat) : W32 := Sparse.get regReset s.regs k

/-- The state with the register under a key set. -/
def State.wr (s : State) (k : Nat) (v : W32) : State := { s with regs := Sparse.put regReset s.regs k v }

/-- A field of a register of the block that starts at key b. -/
def State.rf (s : State) (b : Nat) (f : Fld) : Nat := getF (s.rd (b + f.off)) f.hi f.lo

/-- The state with a field of a register set to x. -/
def State.sf (s : State) (b : Nat) (f : Fld) (x : Nat) : State :=
  s.wr (b + f.off) (setF (s.rd (b + f.off)) f.hi f.lo x)

/-- A one-bit field. -/
def State.bit (s : State) (b : Nat) (f : Fld) : Bool := s.rf b f == 1

/-- A sticky bit set by the hardware (R18). -/
def State.raise (s : State) (b : Nat) (f : Fld) : State := s.sf b f 1

/-- A counting field raised by n, holding at its largest value (R19). -/
def State.bump (s : State) (b : Nat) (f : Fld) (n : Nat) : State :=
  s.sf b f (min (s.rf b f + n) (2 ^ (f.hi - f.lo + 1) - 1))

/-- A one-bit field set to a truth value. -/
def State.flag (s : State) (b : Nat) (f : Fld) (x : Bool) : State := s.sf b f (b2n x)

/-- Die 12's registers start here: die 12 acts for the package (R27). -/
def die12 : Nat := key 12 0

/-! ### Registers behind a selector -/

/-- The value after reset of a register behind a selector: POST_LINES of a link channel is 1 (R416), all others 0. -/
def bankReset (k : Nat) : W32 := if k < 0x10_0000 ∧ k % 0x20 = 0x10 then 0x0100_0000 else 0

/-- A register behind a selector. -/
def State.brd (s : State) (k : Nat) : W32 := Sparse.get bankReset s.bank k

/-- The state with a register behind a selector set. -/
def State.bwr (s : State) (k : Nat) (v : W32) : State := { s with bank := Sparse.put bankReset s.bank k v }

/-- The key of a register of a link channel: link l, direction (receive or transmit), channel, offset from LNK_CH_CTRL's 0x44. -/
def chanKey (l : Nat) (receive : Bool) (ch : Nat) (f : Fld) : Nat :=
  (l * 64 + b2n receive * 32 + ch) * 0x20 + (f.off - 0x40)

/-- A field of a register of a link channel (R416). -/
def State.crf (s : State) (l : Nat) (receive : Bool) (ch : Nat) (f : Fld) : Nat :=
  getF (s.brd (chanKey l receive ch f)) f.hi f.lo

/-- The state with a field of a register of a link channel set. -/
def State.csf (s : State) (l : Nat) (receive : Bool) (ch : Nat) (f : Fld) (x : Nat) : State :=
  s.bwr (chanKey l receive ch f) (setF (s.brd (chanKey l receive ch f)) f.hi f.lo x)

/-- The key of the requested supply of a region (PWR_VREG) and of a staged key digest word. -/
def vregKey (d r : Nat) : Nat := 0x20_0000 + d * 8 + r
def digestKey (level k : Nat) : Nat := 0x40_0000 + level * 8 + k

/-! ### The tables of State -/

/-- A cluster, by its number. -/
def State.clN (s : State) (n : Nat) : Cluster := Sparse.get (fun _ => {}) s.clusters n
def State.setClN (s : State) (n : Nat) (x : Cluster) : State := { s with clusters := Sparse.put (fun _ => {}) s.clusters n x }
def State.cl (s : State) (c : ClusterId) : Cluster := s.clN c.no
def State.setCl (s : State) (c : ClusterId) (x : Cluster) : State := s.setClN c.no x

/-- A fetch queue, by its number. -/
def State.fqN (s : State) (n : Nat) : FetchQ := Sparse.get (fun _ => {}) s.fetch n
def State.setFqN (s : State) (n : Nat) (x : FetchQ) : State := { s with fetch := Sparse.put (fun _ => {}) s.fetch n x }
def State.fq (s : State) (c : ClusterId) (q : Nat) : FetchQ := s.fqN (c.fetchNo q)
def State.setFq (s : State) (c : ClusterId) (q : Nat) (x : FetchQ) : State := s.setFqN (c.fetchNo q) x

/-- A channel of an entropy unit. -/
def State.chan (s : State) (ch : ChannelId) : Channel := Sparse.get (fun _ => {}) s.channels ch.no
def State.setChan (s : State) (ch : ChannelId) (x : Channel) : State :=
  { s with channels := Sparse.put (fun _ => {}) s.channels ch.no x }

/-- A session, by its number. -/
def State.ses (s : State) (n : Nat) : Session := Sparse.get (fun _ => {}) s.sessions n
def State.setSes (s : State) (n : Nat) (x : Session) : State := { s with sessions := Sparse.put (fun _ => {}) s.sessions n x }

/-- A host queue, by its number. -/
def State.que (s : State) (q : Nat) : HostQueue := Sparse.get (fun _ => {}) s.queues q
def State.setQue (s : State) (q : Nat) (x : HostQueue) : State := { s with queues := Sparse.put (fun _ => {}) s.queues q x }

/-- What a die holds besides its registers. -/
def State.die (s : State) (d : Nat) : DieState := Sparse.get (fun _ => {}) s.dies d
def State.setDie (s : State) (d : Nat) (x : DieState) : State := { s with dies := Sparse.put (fun _ => {}) s.dies d x }

/-- A link, by its package number. -/
def State.lnk (s : State) (l : Nat) : Link := Sparse.get (fun _ => {}) s.links l
def State.setLnk (s : State) (l : Nat) (x : Link) : State := { s with links := Sparse.put (fun _ => {}) s.links l x }

/-- A regulator, by its PMBus address. -/
def State.rail (s : State) (a : Nat) : Rail := Sparse.get (fun _ => {}) s.rails a
def State.setRail (s : State) (a : Nat) (x : Rail) : State := { s with rails := Sparse.put (fun _ => {}) s.rails a x }

/-- The block sends something to the outside. -/
def State.send (s : State) (r : Reply) : State := { s with out := s.out ++ [r] }

/-- A value the manual leaves open, and the state in which it has been taken (the MODEL's own counter). -/
def State.free (s : State) : W64 × State := (Config.freeValue s.fresh, { s with fresh := s.fresh + 1 })

/-- The die-local stamp (R14). -/
def State.stamp (s : State) (d : Nat) : W64 := (s.die d).stamp

/-- n microseconds in the 10 ns units of a stamp (R434). -/
def micros (n : Nat) : Nat := n * 100

/-! ### Package coordinates -/

/-- The dies as numbers, in ascending index. -/
def allDies : List Nat := List.range 25

/-- The dies of a mask. -/
def diesOf (m : BitVec 25) : List Nat := allDies.filter (fun d => m.getLsbD d)

/-- The mask of one die. -/
def dieBit (d : Nat) : BitVec 25 := BitVec.ofNat 25 (2 ^ d)

/-- The mask of some dies. -/
def maskOf (ds : List Nat) : BitVec 25 := ds.foldl (fun m d => m ||| dieBit d) 0

/-- The perimeter dies, in the order of their ordinals (R364). -/
def perimeter : List Nat := [0, 1, 2, 3, 4, 5, 9, 10, 14, 15, 19, 20, 21, 22, 23, 24]

/-- The corner dies, in the order of their CXL ports (R372). -/
def corners : List Nat := [0, 4, 20, 24]

def isPerimeter (d : Nat) : Bool := perimeter.contains d
def isCorner (d : Nat) : Bool := corners.contains d

/-- The ordinal of a perimeter die; 0 for an inner one (R364, R387). -/
def ordinalOf (d : Nat) : Nat := if isPerimeter d then perimeter.idxOf d else 0

/-- The CXL port of a corner die. -/
def portOf (d : Nat) : Nat := corners.idxOf d

/-- Are two dies joined by a bridge pair (R26)? -/
def adjacent (a b : Nat) : Bool :=
  (a / 5 == b / 5 && (a % 5 == b % 5 + 1 || b % 5 == a % 5 + 1)) ||
  (a % 5 == b % 5 && (a / 5 == b / 5 + 1 || b / 5 == a / 5 + 1))

/-- One more ring of neighbours inside a mask. -/
def spread (m reach : BitVec 25) : BitVec 25 :=
  maskOf ((diesOf m).filter (fun d => reach.getLsbD d || (diesOf reach).any (adjacent d)))

/-- The dies of a mask that can be reached from one of them across bridge pairs inside the mask: 24 rings reach all. -/
def component (m : BitVec 25) (d : Nat) : BitVec 25 := (List.range 24).foldl (fun r _ => spread m r) (dieBit d &&& m)

/-- The condition of R29: 1 to 25 dies, each reachable from every other. -/
def connected (m : BitVec 25) : Bool :=
  match diesOf m with
  | [] => false
  | d :: _ => component m d == m

/-- The connected sets of a mask, by their lowest dies. -/
def components (m : BitVec 25) : List (BitVec 25) :=
  ((diesOf m).filter (fun d => (diesOf (component m d)).head? == some d)).map (component m)

/-- The die at the outward edge e (R389). -/
def edgeDie (e : Nat) : Nat :=
  [0, 1, 2, 3, 4, 4, 9, 14, 19, 24, 24, 23, 22, 21, 20, 20, 15, 10, 5, 0].getD e 0

/-- The die that holds a link (R389). -/
def linkDie (l : Nat) : Nat := edgeDie (l / 2)

/-- The links of a die, in ascending package number (R389). -/
def linksOf (d : Nat) : List Nat := (List.range 40).filter (fun l => linkDie l == d)

/-- The local index of a link on its die. -/
def linkLocal (l : Nat) : Nat := (linksOf (linkDie l)).idxOf l

/-- The key at which a link's registers start. -/
def lnkBase (l : Nat) : Nat := linkBase (linkDie l) (linkLocal l)

/-! ### Partitions, chart and power -/

/-- The partition of a die. -/
def State.partOf (s : State) (d : Nat) : Option Partition := s.parts.find? (fun p => p.dies.getLsbD d)

/-- The state with the partition of die d replaced. -/
def State.modPart (s : State) (d : Nat) (f : Partition → Partition) : State :=
  { s with parts := s.parts.map (fun p => if p.dies.getLsbD d then f p else p) }

/-- The state in which the partition of a die is; none: the die is in none. -/
def State.partState (s : State) (d : Nat) : Option PartState := (s.partOf d).map (·.state)

/-- The region disabled in manufacture on a die, if any: grade B only, at most one of a die (R2, R3). -/
def fusedRegion (d : Nat) : Option Nat :=
  if Config.gradeB then
    ((List.finRange 6).filterMap Config.fusedEntry).findSome? (fun e => if e.1.val = d then some e.2.val else none)
  else none

/-- Is a region disabled in manufacture (R4)? -/
def fused (d r : Nat) : Bool := fusedRegion d == some r

/-- The region word of the seating chart (R470). -/
def State.regionWord (s : State) (d r : Nat) : Nat := (Sparse.get (fun _ => 0) s.chart.regions (8 * d + r)).toNat

/-- The state of a physical slot in the chart: 0 ACTIVE to 5 FLAGGED (R230, R470). -/
def State.slotState (s : State) (d r sl : Nat) : Nat := fieldN (s.regionWord d r) (3 * sl + 2) (3 * sl)

/-- Has the exam at start-up made a region LOST (R472)? -/
def State.lost (s : State) (d r : Nat) : Bool := s.chart.lost.mem (8 * d + r)

/-- A region that a program may use: neither fused nor LOST, of a die that has not FAILED. -/
def State.regionOk (s : State) (d r : Nat) : Bool := !fused d r && !s.lost d r && !s.chart.failedDies.getLsbD d

/-- The physical slot of logical cluster n of a region (R471). -/
def State.seat (s : State) (d r n : Nat) : Nat :=
  let w := s.regionWord d r
  if bitN w 51 ∧ fieldN w 55 52 = n then 16 else n

/-- The logical cluster that a physical slot stands for (R471). -/
def State.logical (s : State) (d r sl : Nat) : Option Nat :=
  let w := s.regionWord d r
  if !s.regionOk d r then none
  else if sl = 16 then (if bitN w 51 then some (fieldN w 55 52) else none)
  else if bitN w 51 ∧ fieldN w 55 52 = sl then none else some sl

/-- LCLUS of a logical cluster d.r.Ln (R161). -/
def lclusOf (d r n : Nat) : Nat := d + r * 32 + n * 256

/-- PUNIT of a physical unit d.r.s.u (R161). -/
def punitOf (d r sl u : Nat) : Nat := d + r * 32 + sl * 256 + u * 8192

/-- LCLUS of a physical cluster, 0 when it is not seated (R459). -/
def State.lclusOfCluster (s : State) (c : ClusterId) : Nat :=
  match s.logical c.die c.region c.slot with
  | some n => lclusOf c.die c.region n
  | none => 0

/-- The physical cluster of an LCLUS, when its die and region exist. -/
def State.physOf (s : State) (l : Nat) : Option ClusterId :=
  let d := fieldN l 4 0
  let r := fieldN l 7 5
  let n := fieldN l 11 8
  if h : d < 25 then
    let sl := s.seat d r n
    if h2 : r < 8 ∧ sl < 17 then some { die := ⟨d, h⟩, region := ⟨r, h2.1⟩, slot := ⟨sl, h2.2⟩ } else none
  else none

/-- The physical clusters of a die, in ascending region and slot. -/
def clustersOf (d : Die) : List ClusterId :=
  (List.finRange 8).flatMap (fun r => (List.finRange 17).map (fun sl => { die := d, region := r, slot := sl }))

/-- The physical clusters of a region. -/
def clustersOfRegion (d : Die) (r : Fin 8) : List ClusterId :=
  (List.finRange 17).map (fun sl => { die := d, region := r, slot := sl })

/-- The package is powered and out of package reset (R545, R546). -/
def State.on (s : State) : Bool := s.pkg.powered && !s.pkg.resetLow && !s.pkg.keyReset

/-- The clocks of a die run (R522). -/
def State.dieOn (s : State) (d : Nat) : Bool := s.on && !(s.die d).tripped

/-- The phase of the start-up sequence (R548). -/
def State.phase (s : State) : Nat := s.rf die12 F.fwcStartStatusPhase

/-- A firmware processor runs: FWC_PROC_STATUS shows RUNNING (R442). -/
def State.procRuns (s : State) (d p : Nat) : Bool := s.rf (procBase d p) F.fwcProcStatusState == 2

/-! ### The address map (R376) -/

/-- What a device physical address reaches. -/
inductive Target where
  | gddr (die : Nat)
  | cxl (port : Nat)
  | dbuf (die off : Nat)
  | store (die region slot off : Nat)
  | host (addr : Nat)
  | control (die off : Nat)
  | absent
  deriving DecidableEq, Repr

/-- Are both GDDR7 devices of a die trained and present (R363, R551)? -/
def State.gddrUp (s : State) (d : Nat) : Bool :=
  isPerimeter d && s.rf (key d 0) F.memGdStatusTrained == 3 && s.rf (key d 0) F.memGdStatusAbsent == 0

/-- The bytes of a die's GDDR7 slot (R364): 8 GiB with 32 Gbit devices, 6 GiB with 24 Gbit devices. -/
def State.gddrSize (s : State) (d : Nat) : Nat :=
  if s.gddrUp d then (if s.rf (key d 0) F.memGdCfgDensity = 2 then 0x2_0000_0000 else 0x1_8000_0000) else 0

/-- The bytes mapped at a CXL port (R373). -/
def State.cxlSize (s : State) (port : Nat) : Nat :=
  s.rf (key (corners.getD port 0) 0) F.memCxlStatusGib * 2 ^ 30

/-- The range that an address lies in. -/
def State.target (s : State) (a : Nat) : Target :=
  if a < 0x20_0000_0000 then
    let d := perimeter.getD (a / 0x2_0000_0000) 0
    if a % 0x2_0000_0000 < s.gddrSize d then .gddr d else .absent
  else if 0x1_0000_0000_0000 ≤ a ∧ a < 0x1_0400_0000_0000 then
    let port := (a - 0x1_0000_0000_0000) / 0x100_0000_0000
    if a % 0x100_0000_0000 < s.cxlSize port then .cxl port else .absent
  else if 0x2_0000_0000_0000 ≤ a ∧ a < 0x2_0000_0000_0000 + 25 * 0x1_0000_0000 then
    let d := (a - 0x2_0000_0000_0000) / 0x1_0000_0000
    let o := a % 0x1_0000_0000
    if o < 0x100_0000 then .dbuf d o
    else if 0x1000_0000 ≤ o ∧ o < 0x1800_0000 ∧ o % 0x100_0000 < 17 * 0x8_0000 then
      .store d ((o - 0x1000_0000) / 0x100_0000) (o % 0x100_0000 / 0x8_0000) (o % 0x8_0000)
    else .absent
  else if 0x4_0000_0000_0000 ≤ a ∧ a < 0x8_0000_0000_0000 then .host (a - 0x4_0000_0000_0000)
  else if 0xF_F000_0000_0000 ≤ a ∧ a < 0xF_F000_0000_0000 + 25 * 0x100_0000 then
    .control ((a - 0xF_F000_0000_0000) / 0x100_0000) (a % 0x100_0000)
  else .absent

/-- The address of a byte of a die buffer (R376). -/
def dbufAddr (d off : Nat) : Nat := 0x2_0000_0000_0000 + d * 0x1_0000_0000 + off

/-- The address of a byte of a cluster store (R376). -/
def storeAddr (d r sl off : Nat) : Nat :=
  0x2_0000_0000_0000 + d * 0x1_0000_0000 + 0x1000_0000 + r * 0x100_0000 + sl * 0x8_0000 + off

/-- The address of a byte of host memory (R376). -/
def hostAddr (a : Nat) : Nat := 0x4_0000_0000_0000 + a

/-- The bytes of a cluster store (R199) and of a die buffer (R356). -/
def storeSize : Nat := 0x8_0000
def dbufSize : Nat := 0x100_0000

end Sys2Proof.Machine

namespace Sys2Proof

open Machine

/-- The address at which the store of a cluster starts. -/
def ClusterId.store (c : ClusterId) : Nat := storeAddr c.die c.region c.slot 0

end Sys2Proof

namespace Sys2Proof.Machine

/-! ### Memory -/

/-- What a byte that nothing has written reads as: 0 (notes/assumptions/2.md). -/
def memDefault : Nat → Byte := fun _ => 0

/-- The canonical form of memory: addresses strictly rising, no entry equal to what an unlisted address reads as. -/
abbrev Memory.wf (m : List Host.Cell) : Bool := Sparse.wf memDefault m

/-- One byte of memory. -/
def State.byte (s : State) (a : Nat) : Byte := Sparse.get memDefault s.mem a

/-- n bytes of memory. -/
def State.bytes (s : State) (a n : Nat) : List Byte := (List.range n).map (fun i => s.byte (a + i))

/-- One byte of memory written. -/
def State.poke (s : State) (a : Nat) (b : Byte) : State := { s with mem := Sparse.put memDefault s.mem a b }

/-- Bytes written from an address on. -/
def State.pokes (s : State) (a : Nat) : List Byte → State
  | [] => s
  | b :: rest => State.pokes (s.poke a b) (a + 1) rest

/-- The little-endian number of n bytes of memory. -/
def State.le (s : State) (a n : Nat) : Nat := leNat (s.bytes a n)

/-- The lines that n bytes from an address touch. -/
def linesOf (a n : Nat) : List Nat := if n = 0 then [] else List.range' (a / 64) ((a + n - 1) / 64 - a / 64 + 1)

/-- Is the line of an address poisoned? -/
def State.poisoned (s : State) (a : Nat) : Bool := s.poison.mem (a / 64)

/-- Is any line of n bytes poisoned? -/
def State.anyPoison (s : State) (a n : Nat) : Bool := (linesOf a n).any s.poison.mem

/-- The die in which an address lies; none for host memory, control windows and absent addresses. -/
def State.dieOfAddr (s : State) (a : Nat) : Option Nat :=
  match s.target a with
  | .gddr d => some d
  | .cxl p => corners[p]?
  | .dbuf d _ => some d
  | .store d _ _ _ => some d
  | _ => none

/-- A poison event at a die: a line that becomes poisoned, or a poisoned line that is read (R287). -/
def State.poisonEvent (s : State) (d : Nat) : State := { s with pev := NatSet.insert s.pev d }

/-- The poison events of a read of n bytes by die d. -/
def State.noteRead (s : State) (d a n : Nat) : State := if s.anyPoison a n then s.poisonEvent d else s

/-- The poison bit of a line set. -/
def State.markLine (s : State) (line : Nat) : State :=
  if s.poison.mem line then s
  else
    let s := { s with poison := NatSet.insert s.poison line }
    match s.dieOfAddr (line * 64) with
    | some d => s.poisonEvent d
    | none => s

/-- The poison bit of a line cleared. -/
def State.clearLine (s : State) (line : Nat) : State := { s with poison := NatSet.erase s.poison line }

/-- The entries of the poison directory of a die (R369): the poisoned lines of its slot. -/
def State.pdirCount (s : State) (d : Nat) : Nat :=
  if isPerimeter d then
    (s.poison.filter (fun l => l * 64 / 0x2_0000_0000 == ordinalOf d && decide (l * 64 < 0x20_0000_0000))).length
  else 0

/-- The poison bits after clean or poisoned bytes were written from an address on (R285, R369): a poisoned write poisons every
line it touches, a clean one clears the lines it covers whole. -/
def State.poisonAfter (s : State) (a n : Nat) (p : Bool) : State :=
  (linesOf a n).foldl (fun s l =>
    if p then s.markLine l
    else if a ≤ l * 64 ∧ l * 64 + 64 ≤ a + n then s.clearLine l else s) s

/-! ### Rings of link channels (R410) -/

/-- The bytes of a line that a range covers, one bit each. -/
def coverBits (line a n : Nat) : BitVec 64 :=
  BitVec.ofNat 64 (((List.range 64).filter (fun i => decide (a ≤ line * 64 + i ∧ line * 64 + i < a + n))).map (fun i => 2 ^ i)).sum

/-- Every byte of a line. -/
def allCovered : BitVec 64 := 0xFFFF_FFFF_FFFF_FFFF

/-- Does place k of a receive ring hold a line that has been written and not freed? -/
def LinkChannel.holds (x : LinkChannel) (k : Nat) : Bool := x.full.mem k

/-- A channel after n bytes from an address on have been written (transmit) or read (receive). -/
def LinkChannel.touch (receive : Bool) (x : LinkChannel) (a n : Nat) : LinkChannel :=
  (linesOf a n).foldl (fun x l =>
    if x.base ≤ l * 64 ∧ l * 64 < x.base + 64 * x.lines ∧ (!receive || x.holds (l - x.base / 64)) then
      { x with covered := Sparse.put (fun _ => 0) x.covered l (Sparse.get (fun _ => 0) x.covered l ||| coverBits l a n) }
    else x) x

/-- Bytes written into transmit rings. -/
def State.touchTx (s : State) (a n : Nat) : State :=
  { s with links := s.links.map (fun e => (e.1, { e.2 with tx := e.2.tx.map (fun c => (c.1, c.2.touch false a n)) })) }

/-- Bytes written with their poison bit: the one way by which data reaches memory. -/
def State.store (s : State) (a : Nat) (bs : List Byte) (p : Bool) : State :=
  ((s.pokes a bs).poisonAfter a bs.length p).touchTx a bs.length

/-- Zeros, without poison, over a range: bytes that are listed are dropped (R361). -/
def State.zeroRange (s : State) (a n : Nat) : State :=
  { s with
    mem := s.mem.filter (fun e => !(decide (a ≤ e.1) && decide (e.1 < a + n)))
    poison := s.poison.filter (fun l => !(decide (a ≤ l * 64) && decide (l * 64 < a + n))) }

/-- The board's flash: a byte that nothing has programmed reads 0xFF (notes/assumptions/3.md). -/
def flashDefault : Nat → Byte := fun _ => 0xFF

/-- The bytes of a library bank, and where a bank starts. -/
def bankSize : Nat := 0x1C0_0000
def bankBase (bank : Nat) : Nat := bank * bankSize

def State.flashByte (s : State) (a : Nat) : Byte := Sparse.get flashDefault s.flash a
def State.flashBytes (s : State) (a n : Nat) : List Byte := (List.range n).map (fun i => s.flashByte (a + i))
def State.flashPoke (s : State) (a : Nat) (b : Byte) : State := { s with flash := Sparse.put flashDefault s.flash a b }

/-- Bytes programmed into the flash. -/
def State.flashPokes (s : State) (a : Nat) : List Byte → State
  | [] => s
  | b :: rest => State.flashPokes (s.flashPoke a b) (a + 1) rest

/-! ### Posts -/

/-- Who makes a post: an engine, a fetch engine, an entropy unit, a link or software; posts of one maker to one semaphore
arrive in the order they were made (R218). -/
def srcEngine (c : ClusterId) : Nat := c.no
def srcFetch (c : ClusterId) (q : Nat) : Nat := 4000 + c.fetchNo q
def srcChannel (ch : ChannelId) : Nat := 300000 + ch.no
def srcLink (l : Nat) : Nat := 310000 + l

/-- A post of a count on its way to a semaphore, with the instruction that makes it when an engine does; a count of 0 needs no way (R217). -/
def State.post (s : State) (src d sem count : Nat) (index : Nat := 0) (opcode : Nat := 0) : State :=
  if count = 0 then s
  else { s with posts := s.posts ++ [{ src := src, die := d, sem := sem, count := count, index := index, opcode := opcode }] }

/-- A post of a session's traffic: it stays on its die or goes between two dies of the session's partition; to or from another die there is no way
(R30; notes/assumptions/65.md). -/
def State.postFor (s : State) (n own src d sem count : Nat) (index : Nat := 0) (opcode : Nat := 0) : State :=
  if d = own ∨ ((s.ses n).dies.getLsbD d ∧ (s.ses n).dies.getLsbD own) then s.post src d sem count index opcode else s

/-! ### Semaphores -/

/-- The value of a semaphore (R291). -/
def State.sem (s : State) (d i : Nat) : Nat := (s.rd (semValKey d i)).toNat

/-- The state with a semaphore's value set. -/
def State.setSem (s : State) (d i v : Nat) : State := s.wr (semValKey d i) (BitVec.ofNat 32 v)

/-- A satisfied wait for a count takes it in one operation; none when the value is below it (R217). -/
def State.take (s : State) (d i n : Nat) : Option State :=
  if n ≤ s.sem d i then some (s.setSem d i (s.sem d i - n)) else none

/-- A 32-bit counter raised by n, holding at its largest value (R340). -/
def hold32 (v : W32) (n : Nat) : W32 := BitVec.ofNat 32 (min (v.toNat + n) 0xFFFF_FFFF)

end Sys2Proof.Machine
end

