-- ==== Sys2Proof/Machine/Cards.lean ====
section
/-!
DEFINITION. Report cards (R458 to R462): their 64 bytes, the ring of the last 256 on a die, and when a card makes its cluster
suspect. Log records (R433 to R435) stand beside them.
-/

namespace Sys2Proof.Machine

/-- The copy of the step counter that a session has for a logical cluster (R215): the cluster's own while its jobs are the session's. -/
def State.copyOf (s : State) (n : Nat) (lclus : BitVec 16) : Nat :=
  match s.physOf lclus.toNat with
  | some c =>
    if s.rf c.base F.exeSession = n then s.rf c.base F.exeStepLo + s.rf c.base F.exeStepHi * 2 ^ 32
    else (Sparse.get (fun _ => 0) (s.ses n).copies lclus.toNat).toNat
  | none => 0

/-- The lowest copy of the step counter among the clusters that a session's lists name: 0 when it has none (R215). -/
def State.sessionStep (s : State) (n : Nat) : W64 :=
  match (s.ses n).image.lists.map (fun l => s.copyOf n l.lclus) with
  | [] => 0
  | x :: rest => BitVec.ofNat 64 (rest.foldl min x)

/-- The cluster's copy of the step counter (R215). -/
def State.stepCopy (s : State) (c : ClusterId) : W64 :=
  BitVec.ofNat 64 (s.rf c.base F.exeStepLo + s.rf c.base F.exeStepHi * 2 ^ 32)

/-- The state with a cluster's copy of the step counter set. -/
def State.setStepCopy (s : State) (c : ClusterId) (v : W64) : State :=
  (s.sf c.base F.exeStepLo (v.toNat % 2 ^ 32)).sf c.base F.exeStepHi (v.toNat / 2 ^ 32)

/-- What a report card says, before the hardware adds the values of its moment (R459). -/
structure CardInfo where
  kind     : Nat
  die      : Nat
  cluster  : Option ClusterId := none
  punit    : Nat := 0
  unitOk   : Bool := false
  instr    : Option (Nat × Nat) := none
  session  : Nat := noSessionMark
  noref    : Bool := false
  suspect  : Bool := false
  startUp  : Bool := false
  vote     : Nat := 0
  addr     : Nat := 0
  /-- When the event was detected, where that is not now. -/
  moment   : Option Moment := none
  deriving DecidableEq, Repr

/-- The window of HLT_SUSPECT_WIN in 10 ns units (R461). -/
def State.suspectWindow (s : State) (d : Nat) : Nat := s.rf (key d 0) F.hltSuspectWin * 100_000_000

/-- Cards of KIND 1 to 8 that stand against a cluster within the window (R461). -/
def State.recentCards (s : State) (c : ClusterId) : List W64 :=
  let now := (s.stamp c.die).toNat
  (s.cl c).cardStamps.filter (fun t => decide (now ≤ t.toNat + s.suspectWindow c.die))

/-- VOP of a region in mV (R510). -/
def vop (d r : Nat) : Nat := 700 + (Config.vopOffset d r).val

/-- The region supply that is applied now, in mV: VOP until the power manager has set another (R510). -/
def State.vApplied (s : State) (d r : Nat) : Nat :=
  if fused d r then 0 else Sparse.get (fun r => vop d r) (s.die d).vApplied r

/-- The region supply applied. -/
def State.setApplied (s : State) (d r mv : Nat) : State :=
  let x := s.die d
  s.setDie d { x with vApplied := Sparse.put (fun r => vop d r) x.vApplied r mv }

/-- The requested supply of a region: VOP until PWR_VREG has been written (R526). -/
def State.vWanted (s : State) (d r : Nat) : Nat :=
  let v := (s.brd (vregKey d r)).toNat
  if v = 0 then vop d r else v

/-- The supply of a region under exam: 95 % of VOP (R475, R515). -/
def examSupply (d r : Nat) : Nat := (2 * 95 * vop d r + 100) / 200

/-- The supply of every enabled region of the package set. -/
def State.setSupplies (s : State) (f : Nat → Nat → Nat) : State :=
  (allDies.flatMap (fun d => ((List.range 8).filter (fun r => !fused d r)).map (fun r => (d, r)))).foldl
    (fun s x => s.setApplied x.1 x.2 (f x.1 x.2)) s

/-- EXAM_TIME of the library whose patterns the dies hold, in µs (R479); 0 without one. -/
def State.examTime (s : State) : Nat := match s.pkg.library with | some k => leNat (s.flashBytes (bankBase k + 16) 2) | none => 0

/-- A recess in ticks of the stamp: EXAM_TIME and 200 µs of settling before and after (R475). -/
def State.examRound (s : State) : Nat := 100 * (s.examTime + 400)

/-- Ticks of the stamp since the start-up exams began. -/
def State.startUpTime (s : State) : Nat := (s.stamp 12).toNat - s.pkg.examsAt.toNat

/-- The slot that every enabled region examines now at a start, round after round; 17 and more once the rounds have passed (R550). -/
def State.startUpSlot (s : State) : Option Nat :=
  if s.phase = 6 ∧ s.pkg.examsDone = false then some (s.startUpTime / s.examRound) else none

/-- The island clock of a cluster in MHz, in steps of 8 (R513 to R515, R475): the lowest of the request and the two ceilings; 108 % of it
for the island in recess at the supply of an exam, 90 % for the others of its region; 0 while ISLAND_EN is 0 and nothing has been set. -/
def State.islandMHz (s : State) (c : ClusterId) : Nat :=
  let b := key c.die 0
  let ceiling := min (s.rf b F.pwrCeilThermal) (s.rf b F.pwrCeilCap)
  let base := min (s.rf b F.pwrFreqReq) ceiling
  let exam := s.vApplied c.die c.region == examSupply c.die c.region
    && ((s.die c.die).recess.any (fun k => k / 17 == c.region.val) || s.startUpSlot.any (fun sl => decide (sl < 17)))
  if !s.bit c.base F.clsCtrlIslandEn then 0
  else if s.bit b F.pwrStatusRefclkLost then 200
  else if !exam then base
  else if s.slotState c.die c.region c.slot = 4 ∨ s.startUpSlot = some c.slot.val then min 1728 (ceiling * 108 / 100 / 8 * 8)
  else min (s.rf b F.pwrFreqReq) (ceiling * 90 / 100 / 8 * 8)

/-- What the hardware captures of this moment for a tile-step of a cluster and its checkers: their logical cluster in each region (R447, R459). -/
def State.capture (s : State) (c : ClusterId) (session : Nat) : Moment :=
  let l := s.lclusOfCluster c
  let cs := c :: (List.range 8).filterMap (fun r => s.physOf (lclusOf c.die r (fieldN l 11 8)))
  { stamp := s.stamp c.die, step := s.sessionStep session, temp := BitVec.ofNat 16 (s.rf (key c.die 0) F.pwrTjTemp),
    supplies := cs.map (fun c => (c.no, s.vApplied c.die c.region, s.islandMHz c)) }

/-- The moment that a card carries: the one captured, or now (notes/assumptions/81.md). -/
def State.momentOf (s : State) (i : CardInfo) : Moment :=
  match i.moment with
  | some m => m
  | none =>
    { stamp := s.stamp i.die, step := if i.session = noSessionMark then 0 else s.sessionStep i.session,
      temp := BitVec.ofNat 16 (s.rf (key i.die 0) F.pwrTjTemp),
      supplies := match i.cluster with | some c => [(c.no, s.vApplied c.die c.region, s.islandMHz c)] | none => [] }

/-- The 64 bytes of a report card (R459). -/
def State.cardBytes (s : State) (i : CardInfo) (count seq : Nat) : List Byte :=
  let lclus := match i.cluster with | some c => s.lclusOfCluster c | none => 0
  let punit := match i.cluster with
    | some c => if i.punit = 0 then punitOf c.die c.region c.slot 0 else i.punit
    | none => i.punit
  let m := s.momentOf i
  let pass := match i.cluster with | some c => (s.cl c).lastPass.toNat | none => 0
  let supply : Nat × Nat := match i.cluster with | some c => ((m.supplies.find? (fun (e : Nat × Nat × Nat) => e.1 == c.no)).map (fun e => e.2)).getD (0, 0) | none => (0, 0)
  let instr := match i.instr with | some (n, op) => n % 2 ^ 24 + op * 2 ^ 24 | none => 0
  let flags := b2n i.unitOk + 2 * b2n i.instr.isSome + 4 * b2n i.noref + 8 * b2n i.suspect + 16 * b2n i.startUp
  natLe 8 m.stamp.toNat ++ natLe 8 m.step.toNat ++ natLe 8 pass ++ natLe 4 seq ++ natLe 2 i.session ++ natLe 1 i.kind
    ++ natLe 1 flags ++ natLe 2 punit ++ natLe 2 lclus ++ natLe 4 instr ++ natLe 2 m.temp.toNat
    ++ natLe 2 supply.1 ++ natLe 2 supply.2 ++ natLe 1 i.vote ++ natLe 1 (min count 255) ++ natLe 8 i.addr ++ natLe 8 0

/-- A card put into the ring of its die: the newest overwrites the oldest of 256, and one that die 12 had not taken sets
CARD_OVERWRITTEN (R460, R483). -/
def State.pushCard (s : State) (d : Nat) (card : List Byte) : State :=
  let x := s.die d
  let full := decide (256 ≤ x.cards.length)
  let lostOne := full && decide (256 ≤ x.unsent)
  let cards := (if full then x.cards.drop 1 else x.cards) ++ [card]
  let s := s.setDie d { x with cards := cards, cardSeq := x.cardSeq + 1, unsent := if lostOne then x.unsent else x.unsent + 1 }
  let s := s.sf (key d 0) F.hltCardHead ((s.rf (key d 0) F.hltCardHead + 1) % 256)
  let s := s.sf (key d 0) F.hltCardSeq x.cardSeq
  if lostOne then s.raise (key d 0) F.hltErrCardOverwritten else s

/-- Can a card of a kind make a cluster suspect: the cluster is seated, since a SPARE never becomes suspect, and its partition is in SERVICE (R461), or
in TEST for an exam (R477)? -/
def State.maySuspect (s : State) (c : ClusterId) (kind : Nat) : Bool :=
  let st := s.slotState c.die c.region c.slot
  let p := s.partState c.die
  st != 1 && st != 3 && (p == some .service || (p == some .test && kind == Card.examFail))

/-- A report card recorded, and whether it makes its cluster suspect: by its own cause, or because HLT_SUSPECT_N cards of KIND 1
to 8 stand against the cluster within the window (R461). -/
def State.fileCard (s : State) (i : CardInfo) : State × Bool :=
  match i.cluster with
  | none => (s.pushCard i.die (s.cardBytes i 0 (s.die i.die).cardSeq), false)
  | some c =>
    let counts := decide (1 ≤ i.kind ∧ i.kind ≤ 8)
    let recent := s.recentCards c
    let stamps := if counts then recent ++ [(s.momentOf i).stamp] else recent
    let enough := counts && decide (s.rf (key c.die 0) F.hltSuspectN ≤ stamps.length)
    let suspect := s.maySuspect c i.kind && (i.suspect || enough)
    let card := s.cardBytes { i with suspect := suspect } stamps.length (s.die i.die).cardSeq
    let s := s.setCl c { s.cl c with cardStamps := stamps }
    (s.pushCard i.die card, suspect)

/-- A report card of a kind that makes no cluster suspect. -/
def State.report (s : State) (i : CardInfo) : State := (s.fileCard i).1

/-! ### The log ring (R433 to R435) -/

/-- A record written into the log ring of a die: 32 bytes at 0xF0_0000 + 32i, whatever the level. -/
def State.logAlways (s : State) (d proc level session code arg : Nat) : State :=
  let i := s.rf (key d 0) F.fwcLogHead
  let step := if session = noSessionMark then 0 else (s.sessionStep session).toNat
  let x := s.die d
  let rec32 := natLe 8 x.stamp.toNat ++ natLe 8 step ++ natLe 1 proc ++ natLe 1 level ++ natLe 2 session ++ natLe 2 code
    ++ natLe 2 x.logSeq ++ natLe 8 arg
  let s := s.store (dbufAddr d (0xF0_0000 + 32 * i)) rec32 false
  let s := s.setDie d { x with logSeq := x.logSeq + 1 }
  let s := s.sf (key d 0) F.fwcLogHead ((i + 1) % 32768)
  if i + 1 = 32768 then s.bump (key d 0) F.fwcLogWraps 1 else s

/-- A record of level ERROR, WARN or INFO: written when its level is at most FWC_LOG_LEVEL (R435). -/
def State.log (s : State) (d proc level session code arg : Nat) : State :=
  if level ≤ s.rf (key d 0) F.fwcLogLevel then s.logAlways d proc level session code arg else s

/-! ### Events for the firmware (R430) -/

/-- An event counted by the health core: a mismatch (1), a vote (2) or a check (3). -/
def State.countEvent (s : State) (d : Nat) (code : BitVec 16) : State :=
  let x := s.die d
  if code = 1 then s.setDie d { x with mismatches := hold32 x.mismatches 1 }
  else if code = 2 then s.setDie d { x with votes := hold32 x.votes 1 }
  else if code = 3 then s.setDie d { x with checks := hold32 x.checks 1 }
  else s

/-- An event raised for a processor of a die: held while the processor restarts, also after a partition reset, discarded and counted as lost when its
queue of 1,024 is full; a processor that runs receives it at once, and one that has stopped or failed never does (R430, R555). -/
def State.event (s : State) (d p : Nat) (code : BitVec 16) : State :=
  let st := s.rf (procBase d p) F.fwcProcStatusState
  if st = Ps.running then (if p = healthCore then s.countEvent d code else s)
  else if st ≠ Ps.restarting ∧ st ≠ Ps.starting then s
  else
    let x := s.die d
    let q := Sparse.get (fun _ => []) x.events p
    if 1024 ≤ q.length then s.bump (procBase d p) F.fwcEventLost 1
    else s.setDie d { x with events := Sparse.put (fun _ => []) x.events p (q ++ [code]) }

/-- An error event, which goes to the scheduler core of the die (notes/assumptions/57.md). -/
def State.errEvent (s : State) (d code : Nat) : State := s.event d scheduler (BitVec.ofNat 16 code)

/-- An event of a die's memory or translation, which goes to its service core (notes/assumptions/57.md). -/
def State.serviceEvent (s : State) (d code : Nat) : State := s.event d serviceCore (BitVec.ofNat 16 code)

end Sys2Proof.Machine
end

