-- ==== Sys2Proof/Machine/Fec.lean ====
section
/-!
DEFINITION. The forward error correction of a flit (R393): two interleaved Reed–Solomon codewords over GF(2^8), each shortened to 128
symbols with 8 check symbols, each correcting up to 4 byte errors. The first byte of a codeword is its highest power
(notes/assumptions/30.md).
-/

namespace Sys2Proof.Machine

/-! ### GF(2^8) with x^8 + x^4 + x^3 + x^2 + 1 -/

/-- Times α. -/
def gfDouble (a : Nat) : Nat := if a < 128 then 2 * a else (2 * a) ^^^ 0x11D

/-- A product. -/
def gfMul (a b : Nat) : Nat :=
  ((List.range 8).foldl (fun (r : Nat × Nat) i => (if b / 2 ^ i % 2 = 1 then r.1 ^^^ r.2 else r.1, gfDouble r.2)) (0, a)).1

/-- A power. -/
def gfPow (a : Nat) : Nat → Nat
  | 0 => 1
  | n + 1 => gfMul a (gfPow a n)

/-- An inverse; that of 0 is 0. -/
def gfInv (a : Nat) : Nat := gfPow a 254

/-- A polynomial, lowest power first, at a point. -/
def gfEval (p : List Nat) (x : Nat) : Nat := p.foldr (fun c r => c ^^^ gfMul r x) 0

/-- Sum of two polynomials. -/
def gfAdd : List Nat → List Nat → List Nat
  | [], q => q
  | p, [] => p
  | a :: p, b :: q => (a ^^^ b) :: gfAdd p q

/-- A polynomial times c x^m. -/
def gfScale (c m : Nat) (p : List Nat) : List Nat := List.replicate m 0 ++ p.map (gfMul c)

/-! ### Encoding a codeword -/

/-- The product of (x + α^j) for j from 0 to 7, lowest power first: its last coefficient is 1. -/
def generator : List Nat := (List.range 8).foldl (fun g j => gfAdd (gfScale 1 1 g) (gfScale (gfPow 2 j) 0 g)) [1]

/-- The 8 check symbols of some data symbols, whose first is the highest power: the remainder of a division by the generator. -/
def rsCheck (data : List Nat) : List Nat :=
  let g := (generator.take 8).reverse
  data.foldl (fun r a =>
    let q := a ^^^ r.headD 0
    (List.range 8).map (fun i => r.getD (i + 1) 0 ^^^ gfMul q (g.getD i 0))) (List.replicate 8 0)

/-- A flit from its first 240 bytes: codeword 0 has the even bytes, codeword 1 the odd ones. -/
def fecEncode (b : List Byte) : List Byte :=
  let check := fun (k : Nat) => rsCheck ((List.range 120).map (fun i => (b.getD (2 * i + k) 0).toNat))
  let c0 := check 0
  let c1 := check 1
  b.take 240 ++ (List.range 8).flatMap (fun i => [BitVec.ofNat 8 (c0.getD i 0), BitVec.ofNat 8 (c1.getD i 0)])

/-! ### Decoding a codeword -/

/-- The 8 syndromes of a codeword, whose first symbol is the highest power: its values at α^0 to α^7. -/
def syndromes (w : List Nat) : List Nat := (List.range 8).map (fun j => gfEval w.reverse (gfPow 2 j))

/-- The state of the Berlekamp–Massey iteration. -/
structure Locator where
  c : List Nat := [1]
  b : List Nat := [1]
  l : Nat := 0
  m : Nat := 1
  d : Nat := 1
  deriving DecidableEq, Repr

/-- One step of the iteration, for syndrome n. -/
def locatorStep (s : List Nat) (x : Locator) (n : Nat) : Locator :=
  let d := (List.range (x.l + 1)).foldl (fun r i => r ^^^ gfMul (x.c.getD i 0) (s.getD (n - i) 0)) 0
  if d = 0 then { x with m := x.m + 1 }
  else
    let c := gfAdd x.c (gfScale (gfMul d (gfInv x.d)) x.m x.b)
    if 2 * x.l ≤ n then { c := c, b := x.c, l := n + 1 - x.l, m := 1, d := d } else { x with c := c, m := x.m + 1 }

/-- The error locator of some syndromes. -/
def locator (s : List Nat) : Locator := (List.range 8).foldl (locatorStep s) {}

/-- The value of the error at power p, from the locator and the syndromes. -/
def errorValue (s c : List Nat) (p : Nat) : Nat :=
  let x := gfPow 2 p
  let y := gfInv x
  let omega := (((List.range c.length).map (fun i => gfScale (c.getD i 0) i s)).foldl gfAdd []).take 8
  let slope := (List.range c.length).map (fun i => if i % 2 = 0 then c.getD (i + 1) 0 else 0)
  gfMul x (gfMul (gfEval omega y) (gfInv (gfEval slope y)))

/-- A codeword corrected, and whether it held an error; none: it has more errors than the code corrects. -/
def rsDecode (w : List Nat) : Option (List Nat × Bool) :=
  let s := syndromes w
  if s.all (· == 0) then some (w, false)
  else
    let x := locator s
    let n := w.length
    let roots := (List.range n).filter (fun p => gfEval x.c (gfInv (gfPow 2 p)) == 0)
    if 4 < x.l ∨ roots.length ≠ x.l then none
    else
      let fixed := (List.range n).map (fun i =>
        let p := n - 1 - i
        if roots.contains p then w.getD i 0 ^^^ errorValue s x.c p else w.getD i 0)
      if (syndromes fixed).all (· == 0) then some (fixed, true) else none

/-- Every second byte of a flit from `k` on: codeword k. -/
def codeword (flit : List Byte) (k : Nat) : List Nat := (List.range 128).map (fun i => (flit.getD (2 * i + k) 0).toNat)

/-- A flit corrected, and whether it held an error. -/
def fecDecode (flit : List Byte) : Option (List Byte × Bool) :=
  match rsDecode (codeword flit 0), rsDecode (codeword flit 1) with
  | some a, some b =>
    some ((List.range 256).map (fun i => BitVec.ofNat 8 ((if i % 2 = 0 then a.1 else b.1).getD (i / 2) 0)), a.2 || b.2)
  | _, _ => none

end Sys2Proof.Machine
end

