-- ==== Sys2Proof/Machine/Flits.lean ====
section
/-!
DEFINITION. What leaves over a Mboholt link (R392 to R396, R406): flits with their header, CRC and correction, the replay buffer, credits, and
the turns of the dies whose packets wait.
-/

namespace Sys2Proof.Machine

/-! ### Flits (R392) -/

/-- A flit: its header, 224 bytes of payload, the CRC over both and the correction. -/
def flitBytes (header : Nat) (payload : List Byte) : List Byte :=
  let body := natLe 8 header ++ sliceB payload 0 224
  fecEncode (body ++ natBe 8 (crc64 body).toNat)

/-- The header of a flit: SEQ, ACK, NAK, IDLE, VC and the credits returned. -/
def flitHeader (seq ack : BitVec 12) (nak idle : Bool) (vc : Nat) (credits : List Nat) : Nat :=
  seq.toNat + ack.toNat * 2 ^ 12 + b2n nak * 2 ^ 24 + b2n idle * 2 ^ 25 + vc % 4 * 2 ^ 26
    + ((List.range 4).map (fun i => credits.getD i 0 % 256 * 2 ^ (32 + 8 * i))).sum

/-- Flits sent and not acknowledged (R396, R416). -/
def Link.unacked (x : Link) : Nat := x.replay.length

/-- The next flit of a link: it takes the next SEQ, acknowledges what has come, returns the credits that are owed, and stays in the replay buffer. -/
def Link.push (x : Link) (nak idle : Bool) (vc : Nat) (payload : List Byte) : Link :=
  let f := flitBytes (flitHeader x.txSeq x.rxSeq nak idle vc x.owed) payload
  { x with replay := x.replay ++ [{ bytes := f }], txSeq := x.txSeq + 1, owed := [0, 0, 0, 0] }

/-- A flit without a packet, to acknowledge, return credits or send NAK: the replay buffer must have room (R396). -/
def State.sendIdle (s : State) (l : Nat) (nak : Bool) : State :=
  let x := s.lnk l
  if 256 ≤ x.unacked then s
  else
    let y := x.push nak true 0 []
    (s.setLnk l y).send (.flit l ((y.replay.getLast?.map (·.bytes)).getD []))

/-! ### Packets (R394) -/

/-- Flits that a packet with n bytes of data takes: each carries 224 payload bytes (R392; notes/assumptions/31.md). -/
def flitsFor (n : Nat) : Nat := max 1 ((n + 223) / 224)

/-- 64-byte lines of a packet with n bytes of data: at least one. -/
def lineCount (n : Nat) : Nat := max 1 ((n + 63) / 64)

/-- Data of management packets, cut so that none carries more than 1,024 bytes (notes/assumptions/83.md). -/
def managementPieces {α : Type} (size : Nat) (xs : List α) : List (List α) := chunksOf (xs.length * size / 1024 + 1) (1024 / size) xs

/-- What a packet carries: a number for its kind, its address, channel or session, its data and its poison bits. -/
def Reply.content : Reply → Nat × Nat × List Byte × List Bool
  | .hostRead _ a n => (0, a, natLe 2 n, [])
  | .register d off v => (1, d * 2 ^ 24 + off, natLe 4 v.toNat, [])
  | .readData a data p => (2, a, data, p)
  | .chanCredit _ ch k => (3, ch, natLe 4 k, [])
  | .hostWrite w => (4, w.addr, w.bytes, [])
  | .line _ ch b => (5, ch, b, [])
  | .chanAbort _ ch st => (6, ch, natLe 2 st, [])
  | .digests _ n vs => (7, n, vs.flatten, [])
  | .library _ b => (8, 0, b, [])
  | _ => (9, 0, [], [])

/-- The payload of flit k of a packet: how a packet lies in its flits is not stated (notes/assumptions/31.md). -/
def Reply.payload (r : Reply) (k : Nat) : List Byte :=
  (List.range 224).map (fun i => Config.packetByte r.content (224 * k + i))

/-- May a packet be sent: its VC has the credits, the replay buffer the room, and no earlier packet of its die and VC waits? -/
def Link.mayServe (x : Link) (p : Packet) : Bool :=
  decide (p.flits ≤ x.credits.getD p.vc 0) && decide (x.unacked + p.flits ≤ 256)
    && x.waiting.find? (fun q => q.src == p.src && q.vc == p.vc) == some p

/-- The last line of a packet is served: its flits leave. -/
def Link.sendOut (x : Link) (p : Packet) : Link :=
  let y := { x with credits := x.credits.set p.vc (x.credits.getD p.vc 0 - p.flits), waiting := x.waiting.erase p }
  (List.range p.flits).foldl (fun y k => y.push false false p.vc (p.reply.payload k)) y

/-- What a packet that leaves brings about: a WRITE puts its bytes into host memory and waits for its acknowledgement (R402). -/
def State.packetOut (s : State) (r : Reply) : State :=
  match r with
  | .hostWrite w =>
    let s := s.store (hostAddr w.addr) w.bytes false
    { s with hostw := s.hostw ++ [w], out := s.out ++ [r] }
  | _ => s.send r

/-! ### The turns of the dies (R406) -/

/-- The weight of a source die at a link's die; 0 is taken as 1 (R406, R416). -/
def State.shareOf (s : State) (l src : Nat) : Nat :=
  max 1 (fieldN (s.rd (key (linkDie l) (F.lnkHshare.off + 4 * (src / 8)))).toNat (4 * (src % 8) + 3) (4 * (src % 8)))

/-- Weighted round robin (R406): the die served goes on while it has traffic and lines left of its turn; then the next die with traffic has its
weight of lines. None: no die has traffic. -/
def nextTurn (weight : Nat → Nat) (busy : Nat → Bool) (turn left : Nat) : Option (Nat × Nat) :=
  if busy turn && left != 0 then some (turn, left)
  else (((List.range 25).map (fun k => (turn + 1 + k) % 25)).find? busy).map (fun d => (d, weight d))

/-- One turn of the link: lines of the first packet that may be sent of the die served. -/
def State.pumpOne (s : State) (l : Nat) : State :=
  let x := s.lnk l
  match nextTurn (s.shareOf l) (fun d => x.waiting.any (fun p => p.src == d && x.mayServe p)) x.turn x.left with
  | none => s
  | some (d, left) =>
    match x.waiting.find? (fun p => p.src == d && x.mayServe p) with
    | none => s
    | some p =>
      if left < p.lines then s.setLnk l { x with waiting := x.waiting.replace p { p with lines := p.lines - left }, turn := d, left := 0 }
      else ((s.setLnk l { x.sendOut p with turn := d, left := left - p.lines }).packetOut p.reply).bump (lnkBase l) F.lnkTxBytes (224 * p.flits)

/-- Every packet that can be sent now. -/
def State.pump (s : State) (l : Nat) : State :=
  (List.range ((s.lnk l).waiting.map (·.lines)).sum).foldl (fun s _ => s.pumpOne l) s

/-- A packet with n bytes of data, which a die sends, handed to a link. -/
def State.sendPacket (s : State) (l src vc n : Nat) (r : Reply) : State :=
  let x := s.lnk l
  (s.setLnk l { x with waiting := x.waiting ++ [{ src := src, vc := vc, flits := flitsFor n, lines := lineCount n, reply := r }] }).pump l

/-! ### Lines of link channels that have been read (R410) -/

/-- The lines of a receive channel that have been read whole are free, each at its own place: their credits go to the partner, or wait for the
link. -/
def State.freeLines (s : State) (l ch : Nat) (x : LinkChannel) : State :=
  let done := x.covered.filter (fun e => e.2 == allCovered)
  let st := s.rf (lnkBase l) F.lnkStatusState
  let up := st == 2 || st == 3
  let x := { x with covered := x.covered.filter (fun e => e.2 != allCovered), freed := x.freed + done.length
                    full := done.foldl (fun f e => NatSet.erase f (e.1 - x.base / 64)) x.full
                    owed := if up then x.owed else x.owed + done.length }
  let y := s.lnk l
  let s := s.setLnk l { y with rx := Sparse.put (fun _ => {}) y.rx ch x }
  if up && !done.isEmpty then s.sendPacket l (linkDie l) 1 0 (.chanCredit l ch done.length) else s

/-- Bytes read by engines, in receive rings. -/
def State.touchRx (s : State) (a n : Nat) : State :=
  s.links.foldl (fun s e => e.2.rx.foldl (fun s c =>
    let x := c.2.touch true a n
    if x = c.2 then s else s.freeLines e.1 c.1 x) s) s

end Sys2Proof.Machine
end

