-- ==== Sys2Proof/Machine/Access.lean ====
section
/-!
DEFINITION. Access to memory by device physical address with the outcome each range gives (R365 to R376), host-window traffic
over the routes of a die (R402 to R405), and translation through a session's page tables (R377, R378).
-/

namespace Sys2Proof.Machine

/-! ### Host routes -/

/-- The link is up or degraded (R416). -/
def State.linkUp (s : State) (l : Nat) : Bool :=
  let st := s.rf (lnkBase l) F.lnkStatusState
  st == 2 || st == 3

/-- The link is a host link that is up (R399). -/
def State.hostLinkUp (s : State) (l : Nat) : Bool :=
  decide (l < 40) && s.linkUp l && s.rf (lnkBase l) F.lnkStatusPartner == 2 && (s.lnk l).role == 2

/-- The link over which a die sends its host-window traffic: the primary while it is up, the secondary once the die has
switched to it and until USING_SECONDARY is cleared (R403, R404). -/
def State.route (s : State) (d : Nat) : Option Nat :=
  let b := key d 0
  let p := s.rf b F.lnkHroutePrimary
  let q := s.rf b F.lnkHrouteSecondary
  if s.bit b F.lnkHrouteUsingSecondary then
    if s.bit b F.lnkHrouteSecondaryValid && s.hostLinkUp q then some q else none
  else if s.bit b F.lnkHroutePrimaryValid && s.hostLinkUp p then some p
  else none

/-- Is one of the links that LNK_HROUTE names up? While none is for 10 µs, host reads are poisoned and host writes discarded (R405). -/
def State.anyHostLink (s : State) (d : Nat) : Bool :=
  let b := key d 0
  (s.bit b F.lnkHroutePrimaryValid && s.hostLinkUp (s.rf b F.lnkHroutePrimary))
    || (s.bit b F.lnkHrouteSecondaryValid && s.hostLinkUp (s.rf b F.lnkHrouteSecondary))

/-- The host-window requests of a die are held: it has no route, and has not been without a host link for 10 µs (R403, R405). -/
def State.routeHolds (s : State) (d : Nat) : Bool := (s.route d).isNone && !(s.die d).noRoute

/-- A range cut at multiples of 1,024 bytes, as READ_REQ and WRITE packets carry it (R394): at most fuel pieces of (address, length). -/
def blocksFrom : Nat → Nat → Nat → List (Nat × Nat)
  | 0, _, _ => []
  | fuel + 1, a, n =>
    if n = 0 then []
    else
      let k := min n (1024 - a % 1024)
      (a, k) :: blocksFrom fuel (a + k) (n - k)

def blocksOf (a n : Nat) : List (Nat × Nat) := blocksFrom (n / 1024 + 2) a n

/-- A WRITE into host memory handed to a link; it is on its way, and takes effect when its packet leaves (R402). -/
def State.sendWrite (s : State) (l : Nat) (w : HostWrite) : State :=
  s.sendPacket l w.die 2 w.bytes.length (.hostWrite { w with link := l })

/-- Is a host write one that waits at a link? -/
def Link.waitingWrites (x : Link) : List HostWrite :=
  x.waiting.filterMap (fun p => match p.reply with | .hostWrite w => some w | _ => none)

/-- How a write ended: made, held for a route or for its turn at the link, refused or lost behind its target (R568), or discarded because the poison
directory is full (R370). -/
inductive WriteEnd where
  | made | held | refused | dirFull
  deriving DecidableEq, Repr

/-- A host write of a die, in WRITEs: sent over its route, held while it has none (R403), discarded once the die has had no host link for 10 µs
(R405). -/
def State.hostWrite (s : State) (d ses addr : Nat) (bytes : List Byte) (queue : Option Nat := none) : State × WriteEnd :=
  let ws : List HostWrite := (blocksOf addr bytes.length).map (fun p =>
    { die := d, link := 0, ses := ses, addr := p.1, bytes := (bytes.drop (p.1 - addr)).take p.2, queue := queue })
  match s.route d with
  | some l =>
    let s := ws.foldl (fun s w => s.sendWrite l w) s
    (s, if (s.lnk l).waitingWrites.any (fun w => w.die == d) then .held else .made)
  | none =>
    if (s.die d).noRoute then (s, .refused)
    else
      let x := s.die d
      ((s.setDie d { x with hostHeld := x.hostHeld ++ ws }).raise (key d 0) F.lnkDieErrHostLost, .held)

/-- The writes of a fetch queue that wait and have not left before are dropped (R280, R288). -/
def State.dropWrites (s : State) (no : Nat) : State :=
  let keep := fun (w : HostWrite) => w.queue != some no || w.again
  let s := allDies.foldl (fun s d =>
    let x := s.die d
    if x.hostHeld.all keep then s else s.setDie d { x with hostHeld := x.hostHeld.filter keep }) s
  s.links.foldl (fun s e =>
    if e.2.waitingWrites.all keep then s
    else s.setLnk e.1 { e.2 with waiting := e.2.waiting.filter (fun p => match p.reply with | .hostWrite w => keep w | _ => true) }) s

/-- What a read of host memory by a die leaves: its READ_REQs over the die's route, or HOST_LOST while it has none (R394, R403). -/
def State.askHost (s : State) (d addr n : Nat) : State :=
  match s.route d with
  | some l => (blocksOf addr n).foldl (fun s p => s.sendPacket l d 0 0 (.hostRead l p.1 p.2)) s
  | none => if (s.die d).noRoute then s else s.raise (key d 0) F.lnkDieErrHostLost

/-- What a read of host memory by a die delivers: 0x00 with poison once the die has had no host link for 10 µs (R405). A read of firmware that waits
for a route delivers what the host's memory holds (notes/assumptions/82.md). -/
def State.hostRead (s : State) (d addr n : Nat) : List Byte × Bool :=
  if (s.route d).isNone && (s.die d).noRoute then (List.replicate n 0, true)
  else (s.bytes (hostAddr addr) n, s.anyPoison (hostAddr addr) n)

/-- The host writes of a die that wait: for a route, or for their turn at a link. -/
def State.waitingWrites (s : State) : List HostWrite :=
  allDies.flatMap (fun d => (s.die d).hostHeld) ++ s.links.flatMap (fun e => e.2.waitingWrites)

/-- Does some host write of a session still wait for its route or its acknowledgement (R402)? -/
def State.unacked (s : State) (ses : Nat) : Bool :=
  s.hostw.any (fun w => w.ses == ses) || s.waitingWrites.any (fun w => w.ses == ses)

/-! ### Physical addresses -/

/-- The address of the most recent memory error of a die (R387). -/
def State.noteAddr (s : State) (d a : Nat) : State :=
  (s.sf (key d 0) F.memErrLo (a % 2 ^ 32)).sf (key d 0) F.memErrHi (a / 2 ^ 32)

/-- How many lines of a write would enter the poison directory of a die. -/
def State.newPoison (s : State) (a n : Nat) : Nat := ((linesOf a n).filter (fun l => !s.poison.mem l)).length

/-- A die's poison directory is full: POISON_DIR_FULL and a report card against the memory interface (R370). -/
def State.dirFull (s : State) (d a ses : Nat) : State :=
  let s := (s.raise (key d 0) F.memGdErrPoisonDirFull).noteAddr d a
  s.report { kind := Card.poisonDirFull, die := d, punit := d, session := ses, addr := a }

/-- Bytes written at a physical address by die d for a session. -/
def State.physWrite (s : State) (d ses a : Nat) (bs : List Byte) (p : Bool) (queue : Option Nat := none) : State × WriteEnd :=
  match s.target a with
  | .gddr e =>
    if p && decide (16384 < s.pdirCount e + s.newPoison a bs.length) then (s.dirFull e a ses, .dirFull)
    else (s.store a bs p, .made)
  | .cxl port =>
    let b := key (corners.getD port 0) 0
    if s.bit b F.memCxlStatusLinkUp then (s.store a bs p, .made)
    else ((s.raise b F.memCxlErrWriteLost).noteAddr (corners.getD port 0) a, .refused)
  | .dbuf _ _ => (s.store a bs p, .made)
  | .store _ _ _ _ => (s.store a bs p, .made)
  | .host h => s.hostWrite d ses h bs queue
  | .control _ _ => (s, .refused)
  | .absent => (s, .refused)

/-- Bytes read at a physical address by die d, with their poison and the poison events of the read. -/
def State.physRead (s : State) (d a n : Nat) : List Byte × Bool × State :=
  match s.target a with
  | .cxl port =>
    let b := key (corners.getD port 0) 0
    if s.bit b F.memCxlStatusLinkUp then
      let p := s.anyPoison a n
      (s.bytes a n, p, if p then ((s.raise b F.memCxlErrPoisonRx).noteAddr (corners.getD port 0) a).poisonEvent d else s)
    else (List.replicate n 0, true, s.poisonEvent d)
  | .host h =>
    let r := s.hostRead d h n
    let s := s.askHost d h n
    (r.1, r.2, if r.2 then s.poisonEvent d else s)
  | .control _ _ => (List.replicate n 0, true, s.poisonEvent d)
  | .absent => (List.replicate n 0, true, s.poisonEvent d)
  | _ =>
    let p := s.anyPoison a n
    (s.bytes a n, p, if p then s.poisonEvent d else s)

/-! ### Translation -/

/-- What a walk of the page tables finds: the physical address and whether the page is writable at every level, or a fault
with its kind, level and entry (R377, R378, R383). -/
inductive Walk where
  | ok (phys : Nat) (writable : Bool)
  | fault (kind level : Nat) (entry : W64)
  deriving DecidableEq, Repr

/-- May a table or page of a session lie at this address: GDDR7 of the partition's dies, CXL memory of its ports, or the host
window (R378)? -/
def State.mayHold (s : State) (dies : BitVec 25) (a : Nat) : Bool :=
  match s.target a with
  | .gddr d => dies.getLsbD d
  | .cxl p => dies.getLsbD (corners.getD p 0)
  | .host _ => true
  | _ => false

/-- May a walk read a table here: R378, and the port of a CXL address is up (R375)? -/
def State.mayWalk (s : State) (dies : BitVec 25) (a : Nat) : Bool :=
  s.mayHold dies a &&
  match s.target a with
  | .cxl p => s.bit (key (corners.getD p 0) 0) F.memCxlStatusLinkUp
  | _ => true

/-- Is an entry with VALID = 1 ill formed at its level (R378): reserved bits, LEAF, or the alignment of what it names? -/
def badEntry (level : Nat) (e : Nat) : Bool :=
  let leaf := bitN e 1
  let addr := fieldN e 51 8 * 256
  fieldN e 7 3 != 0 || fieldN e 63 52 != 0
    || (decide (level ≤ 2) && leaf) || (decide (level = 4) && !leaf)
    || (decide (level ≤ 2) && decide (addr % 4096 ≠ 0))
    || (decide (level = 3) && leaf && decide (addr % 2 ^ 21 ≠ 0))
    || (decide (level = 4) && decide (addr % 2 ^ 16 ≠ 0))

/-- The index of a level (R377). -/
def walkIndex (level va : Nat) : Nat :=
  match level with
  | 1 => fieldN va 47 39
  | 2 => fieldN va 38 30
  | 3 => fieldN va 29 21
  | _ => fieldN va 20 16

/-- The walk from a level on, with the levels that are left as fuel; w: every entry read so far is writable (R377, R378). -/
def State.walkFrom (s : State) (d : Nat) (dies : BitVec 25) (va : Nat) (write : Bool) : Nat → Nat → Nat → Bool → Walk
  | 0, _, _, _ => .fault Fk.badEntry 4 0
  | fuel + 1, level, table, w =>
    let at_ := table + 8 * walkIndex level va
    if !s.mayWalk dies at_ then .fault Fk.badTarget level 0
    else
      let r := s.physRead d at_ 8
      let e := leNat r.1
      if r.2.1 then .fault Fk.badEntry level 0
      else if !bitN e 0 then .fault Fk.notValid level (BitVec.ofNat 64 e)
      else if badEntry level e then .fault Fk.badEntry level (BitVec.ofNat 64 e)
      else if write && !bitN e 2 then .fault Fk.notWritable level (BitVec.ofNat 64 e)
      else
        let addr := fieldN e 51 8 * 256
        let w := w && bitN e 2
        let final := level = 4 ∨ (level = 3 ∧ bitN e 1)
        if final then
          if !s.mayHold dies addr then .fault Fk.badTarget level (BitVec.ofNat 64 e)
          else .ok (addr + (if level = 4 then va % 2 ^ 16 else va % 2 ^ 21)) w
        else if !s.mayWalk dies addr then .fault Fk.badTarget level (BitVec.ofNat 64 e)
        else s.walkFrom d dies va write fuel (level + 1) addr w

/-- The walk of a session's tables for a device-virtual address by an engine of die d (R377); an address at or above 2^48 has
no walk. -/
def State.walk (s : State) (d n va : Nat) (write : Bool) : Walk :=
  let ses := s.ses n
  if 2 ^ 48 ≤ va then .fault Fk.badTarget 1 0
  else s.walkFrom d ses.dies va write 4 1 ses.root true

/-- A walk counts in MEM_XC_WALKS of the die that makes it (R387). -/
def State.countWalk (s : State) (d : Nat) : State := s.bump (key d 0) F.memXcWalks 1

/-- The addresses of the entries that a walk reads, up to the one at which it stops (R377, R378). -/
def State.entriesFrom (s : State) (d : Nat) (dies : BitVec 25) (va : Nat) (write : Bool) : Nat → Nat → Nat → List Nat
  | 0, _, _ => []
  | fuel + 1, level, table =>
    let at_ := table + 8 * walkIndex level va
    if !s.mayWalk dies at_ then []
    else
      let r := s.physRead d at_ 8
      let e := leNat r.1
      at_ :: (if r.2.1 || !bitN e 0 || badEntry level e || (write && !bitN e 2) || level == 4 || (level == 3 && bitN e 1) then []
        else s.entriesFrom d dies va write fuel (level + 1) (fieldN e 51 8 * 256))

/-- The entries that a walk of a session's tables reads. -/
def State.walkEntries (s : State) (d n va : Nat) (write : Bool) : List Nat :=
  if 2 ^ 48 ≤ va then [] else s.entriesFrom d (s.ses n).dies va write 4 1 (s.ses n).root

/-- What a walk leaves: its count, and what the reads of its entries leave: the event of a poisoned one, a READ_REQ for one in host memory (R287,
R374, R394). -/
def State.noteWalk (s : State) (d n va : Nat) (write : Bool) : State :=
  (s.walkEntries d n va write).foldl (fun s a => (s.physRead d a 8).2.2) (s.countWalk d)

/-- Does a walk wait for a route to the host (R403)? -/
def State.walkHeld (s : State) (d n va : Nat) (write : Bool) : Bool :=
  s.routeHolds d && (s.walkEntries d n va write).any (fun a => match s.target a with | .host _ => true | _ => false)

/-! ### Device-virtual access by firmware and engines on a fixed path -/

/-- A range cut at the boundaries of 64 KiB pages: at most fuel pieces of (address, length). -/
def pagePieces : Nat → Nat → Nat → List (Nat × Nat)
  | 0, _, _ => []
  | fuel + 1, va, n =>
    if n = 0 then []
    else
      let k := min n (2 ^ 16 - va % 2 ^ 16)
      (va, k) :: pagePieces fuel (va + k) (n - k)

/-- The pieces of a range. -/
def piecesOf (va n : Nat) : List (Nat × Nat) := pagePieces (n / 2 ^ 16 + 2) va n

/-- Bytes read at device-virtual addresses of a session by die d; a range that faults reads as 0x00 with poison (R282). -/
def State.virtRead (s : State) (d n va len : Nat) : List Byte × Bool × State :=
  (piecesOf va len).foldl (fun acc p =>
    let s := acc.2.2.noteWalk d n p.1 false
    match s.walk d n p.1 false with
    | .ok phys _ =>
      let r := s.physRead d phys p.2
      (acc.1 ++ r.1, acc.2.1 || r.2.1, r.2.2)
    | .fault _ _ _ => (acc.1 ++ List.replicate p.2 0, true, s)) ([], false, s)

/-- Bytes written at device-virtual addresses of a session by die d, and whether every part was taken: a range that faults, or
that its memory refuses, is not (R283, R568). -/
def State.virtWrite (s : State) (d n va : Nat) (bs : List Byte) : State × Bool :=
  (piecesOf va bs.length).foldl (fun acc p =>
    let s := acc.1.noteWalk d n p.1 true
    match s.walk d n p.1 true with
    | .ok phys _ =>
      let r := s.physWrite d n phys ((bs.drop (p.1 - va)).take p.2) false
      (r.1, acc.2 && (r.2 == .made || r.2 == .held))
    | .fault _ _ _ => (s, false)) (s, true)

/-- The bytes of a write at device-virtual addresses as pieces at physical addresses, and whether every part has one. -/
def State.virtPieces (s : State) (d n va : Nat) (bs : List Byte) : State × Bool × List (Nat × List Byte) :=
  (piecesOf va bs.length).foldl (fun acc p =>
    let s := acc.1.noteWalk d n p.1 true
    match s.walk d n p.1 true with
    | .ok phys _ => (s, acc.2.1, acc.2.2 ++ [(phys, (bs.drop (p.1 - va)).take p.2)])
    | .fault _ _ _ => (s, false, acc.2.2)) (s, true, [])

/-- Pieces of a session written at physical addresses, and whether every one was taken (R568). -/
def State.putPieces (s : State) (d n : Nat) (ps : List (Nat × List Byte)) : State × Bool :=
  ps.foldl (fun acc p =>
    let r := acc.1.physWrite d n p.1 p.2 false
    (r.1, acc.2 && (r.2 == .made || r.2 == .held))) (s, true)

/-- Does a session's device-virtual range lie whole in its tables? -/
def State.mapped (s : State) (d n va len : Nat) (write : Bool) : Bool :=
  (piecesOf va len).all (fun p => match s.walk d n p.1 write with | .ok _ _ => true | .fault _ _ _ => false)

end Sys2Proof.Machine
end

