-- ==== Sys2Proof/Machine/Keccak.lean ====
section
/-!
DEFINITION. SHAKE256, the hash of every digest the CQ25 makes (R319, R528), after the outside standard FIPS 202. The state is five
sheets, sheet x holding the lanes y = 0 to 4 as numbers below 2^64; offsets and round constants are computed, as the standard's
algorithms give them, and stand in no table.
-/

namespace Sys2Proof.Machine

/-- Five sheets of five lanes. -/
abbrev Sheets := List (List Nat)

/-- A lane turned left by n places, n below 64. -/
def turnLane (n v : Nat) : Nat := (v <<< n) % 2 ^ 64 ||| v >>> (64 - n)

/-- Theta: every lane takes the parity of the column before it and of the column after it, that one turned by one place. -/
def thetaStep (a : Sheets) : Sheets :=
  let parity := a.map (fun sheet => sheet.foldl Nat.xor 0)
  let mixed := (parity.rotateRight 1).zipWith (fun before after => before ^^^ turnLane 1 after) (parity.rotateLeft 1)
  a.zipWith (fun sheet m => sheet.map (fun v => v ^^^ m)) mixed

/-- The walk of rho over the 24 cells that are not (0, 0): cell, and the triangular number that turns it. -/
def rhoWalk : Nat → Nat → Nat × Nat → List ((Nat × Nat) × Nat)
  | 0, _, _ => []
  | n + 1, t, at_ => (at_, (t + 1) * (t + 2) / 2 % 64) :: rhoWalk n (t + 1) (at_.2, (2 * at_.1 + 3 * at_.2) % 5)

/-- The turn of the cell (x, y): 0 at (0, 0), the walk's elsewhere. -/
def rhoOf (walk : List ((Nat × Nat) × Nat)) (x y : Nat) : Nat := ((walk.find? (fun w => w.1 == (x, y))).map Prod.snd).getD 0

/-- Rho and pi together: sheet x takes, at y, the turned lane of the cell (x + 3y, x). -/
def rhoPiStep (walk : List ((Nat × Nat) × Nat)) (a : Sheets) : Sheets :=
  (List.range 5).map fun x => (List.range 5).map fun y =>
    let from_ := (x + 3 * y) % 5
    turnLane (rhoOf walk from_ x) ((a.getD from_ []).getD x 0)

/-- Chi: the bits of a sheet that the next sheet leaves 0 are turned by the sheet after that. -/
def chiStep (a : Sheets) : Sheets :=
  let gated := (a.rotateLeft 1).zipWith (fun next after => next.zipWith (fun u v => (u ^^^ (2 ^ 64 - 1)) &&& v) after) (a.rotateLeft 2)
  a.zipWith (fun sheet g => sheet.zipWith Nat.xor g) gated

/-- One step of the shift register behind the round constants, of the polynomial x^8 + x^6 + x^5 + x^4 + 1. -/
def rcShift (r : Nat) : Nat := if r < 128 then 2 * r else (2 * r) ^^^ 0x171

/-- Seven outputs of the register, output j at bit 2^j - 1: the register after them and the constant of one round. -/
def rcRound (r : Nat) : Nat × Nat :=
  (List.range 7).foldl (fun acc j => (rcShift acc.1, acc.2 + acc.1 % 2 * 2 ^ (2 ^ j - 1))) (r, 0)

/-- Iota: the round's constant goes into the lane (0, 0). -/
def iotaStep (rc : Nat) : Sheets → Sheets
  | (v :: column) :: sheets => ((v ^^^ rc) :: column) :: sheets
  | a => a

/-- n rounds of Keccak-f[1600] from the shift register r on. -/
def keccakRounds (walk : List ((Nat × Nat) × Nat)) : Nat → Nat → Sheets → Sheets
  | 0, _, a => a
  | n + 1, r, a =>
    let next := rcRound r
    keccakRounds walk n next.1 (iotaStep next.2 (chiStep (rhoPiStep walk (thetaStep a))))

/-- The sponge function: all 24 rounds. -/
def keccakF (a : Sheets) : Sheets := keccakRounds (rhoWalk 24 0 (1, 0)) 24 1 a

/-- The 136 bytes of a block enter the first 17 lanes, lane (x, y) being the 8 bytes at 8 x (x + 5y). -/
def spongeIn (a : Sheets) (block : List Byte) : Sheets :=
  keccakF (a.zipWith (fun sheet x => sheet.zipWith (fun v y => v ^^^ leAt block (8 * (x + 5 * y)) 8) (List.range 5)) (List.range 5))

/-- The bytes of a state in the order of the lanes, y before x. -/
def spongeBytes (a : Sheets) : List Byte :=
  (List.range 5).flatMap fun y => a.flatMap fun sheet => natLe 8 (sheet.getD y 0)

/-- The end of a message of n bytes: SHAKE's four bits 1111, then a 1, zeros, and a 1 at the end of the block of 136 bytes. -/
def shakeTail (n : Nat) : List Byte :=
  let room := 136 - n % 136
  natLe room (0x1F + 2 ^ (8 * room - 1))

/-- SHAKE256 with an output of n bytes, at most the 136 of one block: every digest of the CQ25 is 32 bytes long. -/
def shake256 (n : Nat) (m : List Byte) : List Byte :=
  let whole := m ++ shakeTail m.length
  (spongeBytes ((chunksOf (whole.length / 136) 136 whole).foldl spongeIn (List.replicate 5 (List.replicate 5 0)))).take n

/-- The 32-byte digest of a message (R319). -/
def digest32 (m : List Byte) : List Byte := shake256 32 m

end Sys2Proof.Machine
end

