-- ==== Sys2Proof/Machine/Sessions.lean ====
section
/-!
DEFINITION. What sessions share: the completions of queues (R334, R338, R402), the audit records (R318 to R323), the halt of
clusters and queues, the initial values of semaphores, and the end of a session (R354).
-/

namespace Sys2Proof.Machine

/-- Is the scheduler core of a die restarting (R352)? -/
def State.schedulerRestarts (s : State) (d : Nat) : Bool := s.rf (procBase d scheduler) F.fwcProcStatusState == Ps.restarting

/-- DETAIL of an ERROR (R338): instruction or section index, logical cluster, region 8d + r. -/
def detailOf (index lclus region : Nat) : Nat := index % 2 ^ 24 + lclus * 2 ^ 24 + region * 2 ^ 40

/-- DETAIL of an ERROR completion of a cluster (R338). -/
def State.exeDetail (s : State) (c : ClusterId) (index : Nat) : Nat :=
  detailOf index (s.lclusOfCluster c % 2 ^ 16) (8 * c.die.val + c.region.val)

/-! ### Completions -/

/-- The key at which the registers of a host queue start: the window of its homeroom, of die 12 for queue 0 (R341). -/
def State.qBase (s : State) (q : Nat) : Nat := queueBase (if q = 0 then 12 else (s.que q).homeroom) q

/-- Is the owner of a host queue restarting: the scheduler core of its homeroom, the session core for queue 0 (R352)? -/
def State.ownerRestarts (s : State) (q : Nat) : Bool :=
  if q = 0 then s.rf (procBase 12 sessionCore) F.fwcProcStatusState == Ps.restarting else s.schedulerRestarts (s.que q).homeroom

/-- The state in which a queue begins: STALLED while its owner restarts (R352). -/
def State.firstQState (s : State) (q : Nat) : Nat := if s.ownerRestarts q then Qs.stalled else Qs.active

/-- The state of a host queue (R341). -/
def State.qState (s : State) (q : Nat) : Nat := s.rf (s.qBase q) F.fwcQStatusState

/-- The die that writes the completions of a queue. -/
def State.qDie (s : State) (q : Nat) : Nat := if q = 0 then 12 else (s.que q).homeroom

/-- The 32 bytes of a completion, PHASE included (R338). -/
def completionBytes (c : Completion) (phase : Bool) : List Byte :=
  natLe 4 c.tag.toNat ++ natLe 2 c.session ++ natLe 1 c.kind ++ natLe 1 (b2n phase + 2 * b2n c.order) ++ natLe 2 c.status
    ++ natLe 2 c.sqHead ++ natLe 4 c.seq.toNat ++ natLe 2 c.slice ++ natLe 1 c.edition ++ natLe 1 c.audit ++ natLe 4 0
    ++ natLe 8 c.detail.toNat

/-- PHASE of the n-th completion written: 1 on the first pass of the ring, inverted at each wrap (R334). -/
def phaseOf (n size : Nat) : Bool := n / size % 2 == 0

/-- The completion at the head of those held goes into the ring. -/
def State.ringOne (s : State) (q : Nat) : State :=
  let x := s.que q
  match x.held with
  | [] => s
  | c :: rest =>
    let size := 2 ^ x.cqLog2
    let a := x.cq + 32 * (x.written % size)
    let r := s.hostWrite (s.qDie q) noSessionMark a (completionBytes c (phaseOf x.written size))
    r.1.setQue q { x with held := rest, written := x.written + 1 }

/-- The completion at the head of those held, written into the ring behind its audit record: nothing while the ring is full,
while the queue has no route, while a host write that it covers is not acknowledged (R334, R402, R405), or while its record has been refused and
the session it belongs to is open. -/
def State.flushOne (s : State) (q : Nat) : State :=
  let x := s.que q
  match x.held with
  | [] => s
  | c :: rest =>
    let size := 2 ^ x.cqLog2
    if s.qState q != Qs.active then s
    else if size ≤ x.written - x.consumed then s.raise (s.qBase q) F.fwcQStatusCqFullStall
    else if (s.route (s.qDie q)).isNone || s.unacked c.session || c.refused then s
    else if !c.record.isEmpty then
      let w := s.putPieces c.recDie c.session c.record
      if !w.2 then
        if (s.ses c.session).kind = .none then (w.1.setQue q { x with held := { c with record := [], audit := 0 } :: rest }).ringOne q
        else w.1.setQue q { x with held := { c with refused := true } :: rest }
      else if (w.1).unacked c.session then w.1.setQue q { x with held := { c with record := [] } :: rest }
      else (w.1.setQue q { x with held := { c with record := [] } :: rest }).ringOne q
    else s.ringOne q

/-- Every completion of a queue that can be written now. -/
def State.flush (s : State) (q : Nat) : State :=
  (List.range (s.que q).held.length).foldl (fun s _ => s.flushOne q) s

/-- A completion posted on a queue; one for an unused or deleted queue goes nowhere. -/
def State.complete (s : State) (q : Nat) (c : Completion) : State :=
  if s.qState q = Qs.active ∨ s.qState q = Qs.stalled then
    let x := s.que q
    (s.setQue q { x with held := x.held ++ [c] }).flush q
  else s

/-- The answer to a command: its tag, its session and the head of the submission ring after it (R338). -/
def answerTo (c : HostCmd) (kind status : Nat) (detail : Nat := 0) : Completion :=
  { tag := c.tag, session := c.session.toNat, kind := kind, status := status, sqHead := c.head,
    detail := BitVec.ofNat 64 detail }

/-- A command that started earlier has its completion posted: FENCE counts it no more (R333). -/
def State.closeCmd (s : State) (q : Nat) : State :=
  let x := s.que q
  s.setQue q { x with openCmds := x.openCmds - 1 }

/-! ### Audit records (R318 to R323) -/

/-- The links over which a session has a channel (R409, R410). -/
def State.sessionLinks (s : State) (n : Nat) : List Nat :=
  (s.links.filter (fun e => [false, true].any (fun r => (if r then e.2.rx else e.2.tx).any (fun c =>
    s.crf e.1 r c.1 F.lnkChCtrlEnable == 1 && s.crf e.1 r c.1 F.lnkChCtrlSession == n)))).map (·.1)

/-- One link for each device to which some links lead, the first of them (R408). -/
def State.oneEach (s : State) (ls : List Nat) : List Nat :=
  let device := fun (l : Nat) => s.rf (lnkBase l) F.lnkStatusDevice
  ls.foldl (fun acc l => if acc.any (fun k => device k == device l) then acc else acc ++ [l]) []

/-- Does a session span devices: has it a link channel (R409)? -/
def State.spans (s : State) (n : Nat) : Bool := !(s.sessionLinks n).isEmpty

/-- The device indices that a session spans, as this device sees them: its own and those of its links' partners (R323, R407). -/
def State.devicesOf (s : State) (n : Nat) : List Nat :=
  (s.rf die12 F.lnkGroupDevice :: (s.sessionLinks n).map (fun l => s.rf (lnkBase l) F.lnkStatusDevice)).eraseDups

/-- The form of a session's audit records: a digest record when its partition has 5 dies or more, or when it spans devices, else a replay record
(R318). -/
def State.digestForm (s : State) (n : Nat) : Bool := decide (5 ≤ (diesOf (s.ses n).dies).length) || s.spans n

/-- FW_VERSION of the active bank (R442). -/
def State.fwVersion (s : State) : Nat := s.rf die12 F.fwcFwVersion

/-- Bytes that the data engine of a die absorbs (R530, R543). -/
def State.absorb (s : State) (d n : Nat) : State := s.bump (key d 0) F.secDigBytes n

/-- The bytes of a digest that the data engines of several dies share (R228, R320); which die takes how many is not stated (notes/assumptions/44.md). -/
def State.absorbShared (s : State) (dies : BitVec 25) (n : Nat) : State :=
  (diesOf dies).foldl (fun s d => s.absorb d (min n (Config.digestShare d dies.toNat n))) s

/-- Did a check reach its digest: it passed, or failed there or later? -/
def digestReached (digestCode laterCode : Nat) (failure : Option Nat) : Bool :=
  match failure with
  | none => true
  | some k => k == digestCode || k == laterCode

/-- The chunks of input bytes, 1,048,576 bytes each (R320). -/
def inputChunks (input : List Byte) : List (List Byte) := chunksOf (input.length / 1048576 + 1) 1048576 input

/-- INPUT_DIGEST of R320: the digest over the leaf digests; over the empty string when there is no leaf. -/
def inputDigest (input : List Byte) : List Byte := digest32 ((inputChunks input).flatMap digest32)

/-- The digest of a picture or result (R321). -/
def resultDigest (img : Image) (input : List Byte) (step : Nat) : List Byte :=
  digest32 (sliceB img.digest 0 32 ++ sliceB img.weightDigest 0 32 ++ inputDigest input ++ natBe 8 step)

/-- The bytes that the digests of a result absorb: the input's chunks, their leaf digests, and the 104 bytes of R321. -/
def auditedBytes (input : List Byte) : Nat := input.length + 32 * (inputChunks input).length + 104

/-- An audit record (R323): a replay record when the picture or job is dropped (R322), else the session's form. -/
def State.auditBytes (s : State) (n : Nat) (seq : W32) (step : Nat) (dropped : Bool) (input : List Byte) : List Byte :=
  let ses := s.ses n
  let digest := s.digestForm n && !dropped
  natLe 8 step ++ natLe 4 seq.toNat ++ natLe 2 n ++ natLe 1 (if digest then 2 else 1)
    ++ natLe 1 (b2n ses.ordered + 2 * b2n dropped + 4 * b2n ses.orderChanged) ++ natLe 4 s.fwVersion
    ++ natLe 4 ses.dies.toNat ++ natLe 1 (s.devicesOf n).length ++ natLe 7 0 ++ sliceB ses.image.digest 0 32
    ++ (if digest then resultDigest ses.image input step ++ inputDigest input
        else ((List.range 16).flatMap (fun i => natLe 8 (ses.seeds.getD i 0).toNat)))

/-- The input bytes of a model job: the bytes of its input buffers in the order it names them (R320), and whether one of their
lines is poisoned. -/
def State.jobInput (s : State) (n : Nat) (j : Job) : List Byte × Bool × State :=
  j.ins.foldl (fun acc b =>
    let r := acc.2.2.virtRead (s.ses n).homeroom n b.addr b.len
    (acc.1 ++ r.1, acc.2.1 || r.2.1, r.2.2)) ([], false, s)

/-! ### Clusters of a session -/

/-- The clusters of a session, by its lists. -/
def State.clustersOfSession (s : State) (n : Nat) : List ClusterId :=
  (s.ses n).image.lists.filterMap (fun l => s.physOf l.lclus.toNat)

/-- An engine comes to a state: EXE_STATUS, and CLS_STATUS shows whether a list runs, waits or is paused (R230). -/
def State.setExe (s : State) (c : ClusterId) (st : Nat) : State :=
  let s := s.sf c.base F.exeStatusState st
  let s := if st = Ex.waiting then s else s.sf c.base F.exeStatusSem 0
  s.flag c.base F.clsStatusBusy (st == Ex.running || st == Ex.waiting || st == Ex.paused)

/-- The state of an engine. -/
def State.exe (s : State) (c : ClusterId) : Nat := s.rf c.base F.exeStatusState

/-- A list runs, waits or is paused on the cluster. -/
def State.engineBusy (s : State) (c : ClusterId) : Bool :=
  s.exe c == Ex.running || s.exe c == Ex.waiting || s.exe c == Ex.paused

/-- The state of a fetch queue (R289). -/
def State.fqState (s : State) (c : ClusterId) (q : Nat) : Nat := s.rf (c.fetchBase q) F.fetQStatusState

/-- A fetch queue runs a transfer (R266). -/
def State.fqBusy (s : State) (c : ClusterId) (q : Nat) : Bool := s.fqState c q != Fq.idle

/-- Fault records without a queue, and the record of which it is the last: withdrawn with it (R288). -/
def dropQueue (no : Nat) (fs : List FaultRecord) : List FaultRecord :=
  (fs.map (fun f => { f with queues := f.queues.filter (fun q => q != no) })).filter (fun f => !f.queues.isEmpty)

/-- The session of a queue (R289). -/
def State.fqSession (s : State) (c : ClusterId) (q : Nat) : Nat := s.rf (c.fetchBase q) F.fetQCtrlSession

/-- A fetch queue is aborted: no further request, write or post; the rows posted stay valid and the ring position is the line
after the last of them (R288). -/
def State.abortQueue (s : State) (c : ClusterId) (q : Nat) : State :=
  if s.fqBusy c q then
    let x := s.fq c q
    let s := s.setFq c q { x with row := 0, rowOpen := false, i0 := 0, i1 := 0, posted := 0, credited := 0, inflight := [], fault := none, poisoned := false, pausing := false }
    let s := s.dropWrites (c.fetchNo q)
    let s := (s.sf (c.fetchBase q) F.fetQStatusState Fq.idle).sf (c.fetchBase q) F.fetQStatusOutstanding 0
    s.setDie c.die { s.die c.die with faults := dropQueue (c.fetchNo q) (s.die c.die).faults }
  else s

/-- Every fetch queue of a cluster aborted. -/
def State.abortQueues (s : State) (c : ClusterId) : State := (List.range 64).foldl (fun s q => s.abortQueue c q) s

/-- Every fetch queue that is armed for a session aborted, on whichever cluster it is: a queue is busy until its transfer ends its session
(R266). -/
def State.abortQueuesOf (s : State) (n : Nat) : State :=
  s.fetch.foldl (fun s e => match clusterOfNo (e.1 / 64) with
    | some c => if s.fqSession c (e.1 % 64) = n then s.abortQueue c (e.1 % 64) else s
    | none => s) s

/-- HALT: the engine abandons what it runs, posts nothing further and is HALTED; PAUSE_REQ stands until the engine enters PAUSED (R229, R230). The
cluster's queues are aborted, whatever its engine does (R288); an engine that runs nothing keeps its state (notes/assumptions/58.md). -/
def State.haltCluster (s : State) (c : ClusterId) : State :=
  let s :=
    if s.engineBusy c then
      let s := s.setCl c { s.cl c with unitPipe := [], finPipe := [], owed := [], waitDone := false, tables := [] }
      ((s.setExe c Ex.halted).sf c.base F.exeStatusUnitBusy 0).sf c.base F.exeStatusFinishBusy 0
    else s
  s.abortQueues c

/-- The tile-steps of a cluster belong to work that is dropped, restarted or ended; their checks and votes go on (R346, R482). -/
def Cluster.dropTiles (x : Cluster) : Cluster :=
  { x with tile := { x.tile with dropped := true }, window := x.window.map (fun t => { t with dropped := true }) }

/-- A cluster is halted because its work is dropped, restarted or ended. -/
def State.quitCluster (s : State) (c : ClusterId) : State :=
  let s := s.haltCluster c
  s.setCl c (s.cl c).dropTiles

/-- Every semaphore that the image of a session names, set to INIT again (R275). -/
def State.initSems (s : State) (n : Nat) : State :=
  (s.ses n).image.sems.foldl (fun s e => s.setSem e.die e.sem e.init.toNat) s

/-- Each copy of the step counter set to the value it would have reached at the job's END (R302). -/
def State.stepsToEnd (s : State) (n : Nat) : State :=
  (s.ses n).image.lists.foldl (fun s l =>
    match s.physOf l.lclus.toNat with
    | some c =>
      if s.rf c.base F.exeSession = n then s.setStepCopy c ((s.cl c).jobStep + BitVec.ofNat 64 l.advSteps)
      else
        match (s.ses n).yields.find? (·.lclus == l.lclus) with
        | some y =>
          let v := y.cluster.jobStep + BitVec.ofNat 64 l.advSteps
          let ses := s.ses n
          s.setSes n { ses with copies := (Sparse.put (fun _ => 0) ses.copies l.lclus.toNat v) }
        | none => s
    | none => s) s

/-! ### Entropy channels and link channels of a session -/

/-- The lane contexts of a channel in their initial state (R82, R104). -/
def State.resetLanes (s : State) (ch : ChannelId) : State :=
  (List.range 8).foldl (fun s l =>
    let b := ch.laneBase l
    let s := ((s.wr (b + F.entLcLow.off) 0).wr (b + F.entLcRange.off) 0xFFFF_FFFF).wr (b + F.entLcCacheCache.off) 0
    let s := ((s.wr (b + F.entLcPend.off) 0).wr (b + F.entLcPos.off) 0).wr (b + F.entLcOffset.off) 0
    (s.wr (b + F.entLcLen.off) 0).wr (b + F.entLcSyms.off) 0) s

/-- The channels of the entropy units of a die. -/
def channelsOf (d : Die) : List ChannelId :=
  (List.finRange 8).flatMap (fun e => (List.finRange 4).map (fun c => { die := d, unit := e, chan := c }))

/-- A channel is closed with its session: disabled, its segment discarded. -/
def State.closeChannel (s : State) (ch : ChannelId) : State :=
  let s := (s.sf ch.base F.entChCtrlEnable 0).sf ch.base F.entChStatusOpen 0
  (s.resetLanes ch).setChan ch {}

/-- Is a channel one of a session: enabled for it, or disabled with a segment of it still open (R105)? -/
def State.chanOf (s : State) (n : Nat) (ch : ChannelId) : Bool :=
  (s.bit ch.base F.entChCtrlEnable || s.bit ch.base F.entChStatusOpen) && s.rf ch.base F.entChCtrlSession == n

/-- The channels of a session are closed. -/
def State.closeChannels (s : State) (n : Nat) : State :=
  (List.finRange 25).foldl (fun s d =>
    if (s.ses n).dies.getLsbD d.val then
      (channelsOf d).foldl (fun s ch => if s.chanOf n ch then s.closeChannel ch else s) s
    else s) s

/-- A link channel of a session is aborted, and the partner is told with the session's status (R412), in a management packet
(notes/assumptions/83.md). -/
def State.abortLinkChannel (s : State) (l : Nat) (receive : Bool) (ch status : Nat) : State :=
  let s := (s.csf l receive ch F.lnkChCtrlEnable 0).csf l receive ch F.lnkChStatusActive 0
  let s := s.csf l receive ch F.lnkChStatusAborted 1
  let x := s.lnk l
  let x := if receive then { x with rx := Sparse.put (fun _ => {}) x.rx ch {} } else { x with tx := Sparse.put (fun _ => {}) x.tx ch {} }
  (s.setLnk l x).sendPacket l (linkDie l) 3 0 (.chanAbort l ch status)

/-- The link channels of a session are aborted. -/
def State.abortLinkChannels (s : State) (n status : Nat) : State :=
  (List.range 40).foldl (fun s l =>
    (List.range 32).foldl (fun s ch =>
      [false, true].foldl (fun s r =>
        if s.crf l r ch F.lnkChCtrlEnable = 1 ∧ s.crf l r ch F.lnkChCtrlSession = n then s.abortLinkChannel l r ch status else s) s) s) s

/-! ### The end of a session -/

/-- The semaphores of a session are owned by nobody from now on (R292). -/
def State.freeSems (s : State) (n : Nat) : State :=
  (s.ses n).image.sems.foldl (fun s e =>
    let k := semCfgKey e.die e.sem
    if getF (s.rd k) 11 0 = n then s.wr k (setF (s.rd k) 12 12 0) else s) s

/-- The die-buffer windows of a session are free again (R358). -/
def State.freeWindows (s : State) (n : Nat) : State :=
  allDies.foldl (fun s d =>
    let x := s.die d
    let mine := (List.range 256).filter (fun w => match Sparse.get (fun _ => none) x.windows w with
      | some (o, _, _) => o == n
      | none => false)
    let granules := (mine.map (fun w => match Sparse.get (fun _ => none) x.windows w with | some (_, _, g) => g | none => 0)).sum
    let ws := mine.foldl (fun t w => Sparse.put (fun _ => none) t w none) x.windows
    let s := s.setDie d { x with windows := ws }
    s.sf (key d 0) F.memDbFree (s.rf (key d 0) F.memDbFree + granules)) s

/-- The cached translations of a session are dropped: another session may take its number, and its addresses are translated through its own tables
(R377). -/
def State.dropTranslations (s : State) (n : Nat) : State :=
  { s with clusters := s.clusters.map (fun e => (e.1, { e.2 with cache := e.2.cache.filter (fun t => t.session != n) }))
           dies := s.dies.map (fun e => (e.1, { e.2 with cache := e.2.cache.filter (fun t => t.session != n) })) }

/-- The fault records of a session are closed (R386). -/
def State.closeFaults (s : State) (n : Nat) : State :=
  allDies.foldl (fun s d =>
    let x := s.die d
    s.setDie d { x with faults := x.faults.filter (fun f => f.session != n) }) s

/-- The commands of a session that a queue has fetched complete with SESSION_ENDED (R354). -/
def State.failCommands (s : State) (n : Nat) : State :=
  (s.queues.map (·.1)).foldl (fun s q =>
    let x := s.que q
    let mine := x.fetched.filter (fun c => c.session.toNat == n && decide (4 ≤ c.opcode.toNat) && c.opcode != 5)
    let s := s.setQue q { x with fetched := x.fetched.filter (fun c => !(c.session.toNat == n && decide (4 ≤ c.opcode.toNat) && c.opcode != 5)) }
    mine.foldl (fun s c => s.complete q (answerTo c Ck.error St.sessionEnded)) s) s

/-- The jobs of a session that are not done complete: a running one with the session's status and the DETAIL of the event (R338), a queued one with
SESSION_ENDED (R354). -/
def State.failJobs (s : State) (n status detail : Nat) : State :=
  let ses := s.ses n
  let s := s.setSes n { ses with jobs := [] }
  ses.jobs.foldl (fun s j =>
      let st := if j.phase = .queued then St.sessionEnded else if status = St.ok then St.sessionEnded else status
      (s.closeCmd j.queue).complete j.queue
        { tag := j.tag, session := n, kind := Ck.error, status := st, sqHead := j.sqHead, seq := j.seq
          detail := BitVec.ofNat 64 (if j.phase = .queued then 0 else detail) }) s

/-- The clusters of a session that no other open session uses are cleared as it ends: stores, accumulators, tables and delivered blocks, so that no
session reads what an earlier one left behind (R361, notes/assumptions/85.md). -/
def State.wipeClusters (s : State) (n : Nat) : State :=
  let others := (s.sessions.filter (fun e => e.1 != n && e.2.kind != .none)).map (·.1)
  (s.clustersOfSession n).foldl (fun s c =>
    if others.any (fun m => (s.clustersOfSession m).contains c) then s
    else (s.zeroRange c.store storeSize).setCl c { s.cl c with accInt := [], accFloat := [], accN := 0, accUnits := 0, tables := [], fn0 := [], fn1 := [], blocks := [] }) s

/-- A session ends (R229, R286, R354): its clusters are halted, its channels closed, its storage freed, its jobs and commands
answered, and SESSION_END posted on its queue, on queue 0 when a partition reset ended it, or as the answer to its CLOSE_SESSION. -/
def State.endSession (s : State) (n status : Nat) (detail : Nat := 0) : State :=
  let ses := s.ses n
  if ses.kind = .none then s
  else
    let s := (s.clustersOfSession n).foldl (fun s c => if s.rf c.base F.exeSession = n then s.quitCluster c else s) s
    let s := ((s.abortQueuesOf n).closeChannels n).abortLinkChannels n status
    let s := ((((s.closeFaults n).dropTranslations n).freeSems n).freeWindows n).wipeClusters n
    let s := ((s.failJobs n status detail).failCommands n)
    let s := match ses.pauseTo with
      | some p => (s.closeCmd p.2.1).complete p.2.1
          { tag := p.1, session := n, kind := Ck.error, status := St.sessionEnded, sqHead := p.2.2.1 }
      | none => s
    let q := if status = St.partitionReset then 0 else ses.queue
    let end_ : Completion := { session := n, kind := Ck.sessionEnd, status := status }
    let s := match ses.closing with
      | some p =>
        let s := s.closeCmd p.2.1
        if status = St.ok then s.complete p.2.1 { end_ with tag := p.1, sqHead := p.2.2 }
        else (s.complete p.2.1 { tag := p.1, session := n, kind := Ck.error, status := St.sessionEnded, sqHead := p.2.2 }).complete q end_
      | none => s.complete q end_
    s.setSes n {}

/-- The completions of a queue that can be written now; where the audit record of one has been refused, its session ends and it is an ERROR
(R283, R375). -/
def State.flushEnd (s : State) (q : Nat) : State :=
  let s := s.flush q
  match (s.que q).held with
  | [] => s
  | c :: rest =>
    if c.refused then
      let e := { c with refused := false, record := [], audit := 0, kind := Ck.error, status := St.fetDstFault }
      ((s.setQue q { s.que q with held := e :: rest }).endSession c.session St.fetDstFault).flush q
    else s

/-- Every completion of every queue that can be written now. -/
def State.flushAll (s : State) : State := (s.queues.map (·.1)).foldl State.flushEnd s

/-! ### The completion of a job -/

/-- A completion of a job with its audit record, which is written before it (R322, R338) and, like it, after every host write that it covers has been
acknowledged (R402); its SEQ is PIC for a codec session and the job number otherwise (R323); an audit destination of 0 means that none is
written. A record that cannot be written ends the session (R283, R375); one that waits has its place from now on
(notes/assumptions/66.md). -/
def State.postRecord (s : State) (n : Nat) (j : Job) (c : Completion) (auditSeq : W32) (step : Nat) (dropped : Bool)
    (input : List Byte) : State :=
  let ses := s.ses n
  let s := s.setSes n { ses with orderChanged := false }
  let s := if s.digestForm n && !dropped && (j.audit != 0 || ses.kind == .encode) then s.absorbShared ses.dies (auditedBytes input) else s
  let c := { c with order := ses.orderChanged }
  if j.audit = 0 then s.complete j.queue { c with audit := 0 }
  else
    let w := s.virtPieces ses.homeroom n j.audit ((s.setSes n ses).auditBytes n auditSeq step dropped input)
    let c := { c with audit := if s.digestForm n && !dropped then 2 else 1 }
    if !w.2.1 then w.1.endSession n St.fetDstFault
    else if w.1.unacked n then w.1.complete j.queue { c with record := w.2.2, recDie := ses.homeroom }
    else
      let r := w.1.putPieces ses.homeroom n w.2.2
      if r.2 then r.1.complete j.queue c else r.1.endSession n St.fetDstFault

/-- The same for the completion that answers the job's SUBMIT. -/
def State.postJob (s : State) (n : Nat) (j : Job) (c : Completion) (auditSeq : W32) (step : Nat) (dropped : Bool)
    (input : List Byte) : State :=
  let s := s.postRecord n j c auditSeq step dropped input
  if (s.ses n).kind = .none then s else s.closeCmd j.queue

/-- A session ends on an error. -/
def State.endIf (s : State) (cond : Bool) (n status : Nat) : State := if cond then s.endSession n status else s

end Sys2Proof.Machine
end

