-- ==== Sys2Proof/Machine/Operands.lean ====
section
/-!
DEFINITION. What an instruction and the records it names say: the header and body of R205 and R206, the formats of R135, the
matrix record of R210, the window record of R235, the quantisation parameter block of R190 and the weight codes of R170 to R172.
-/

namespace Sys2Proof.Machine

/-! ### The 128-bit instruction (R205, R206) -/

def iV (w : Nat) : Bool := bitN w 127
def iOp (w : Nat) : Nat := fieldN w 126 119
def iFence (w : Nat) : Bool := bitN w 118
def iWaitEn (w : Nat) : Bool := bitN w 117
def iPostEn (w : Nat) : Bool := bitN w 116
def iWaitSem (w : Nat) : Nat := fieldN w 115 103
def iPostSem (w : Nat) : Nat := fieldN w 102 90
def iPostDie (w : Nat) : Nat := fieldN w 89 85
def iClass (w : Nat) : Nat := fieldN w 126 124
/-- Store offset of the operation record. -/
def iRec (w : Nat) : Nat := fieldN w 79 67 * 64
/-- Store offset of the quantisation parameter block. -/
def iQpb (w : Nat) : Nat := fieldN w 66 54 * 64
def iQpbEn (w : Nat) : Bool := bitN w 53
def iAccInit (w : Nat) : Nat := fieldN w 52 51
def iNarrow (w : Nat) : Bool := bitN w 50
def iUnits (w : Nat) : Nat := fieldN w 49 42
/-- The body of SEM (R217), of STEP (R215), of EFEED and ERES (R223). -/
def iWaitN (w : Nat) : Nat := fieldN w 79 64
def iPostN (w : Nat) : Nat := fieldN w 63 48
def iAdv (w : Nat) : Bool := bitN w 79
def iPausePoint (w : Nat) : Bool := bitN w 78
def iCount (w : Nat) : Nat := fieldN w 66 51
def iLine (w : Nat) : Nat := fieldN w 50 38 * 64

/-- The opcodes of R207. -/
def opcodes : List Nat :=
  [0x00, 0x01, 0x02, 0x20, 0x21, 0x22, 0x40, 0x41, 0x60, 0x61, 0x62, 0x63, 0x64, 0x80, 0x81, 0x82, 0x83, 0x84, 0x85, 0x86,
   0x87, 0x88, 0x89, 0x8A, 0x8B, 0xA0, 0xC0, 0xC1, 0xE0]

/-- How many low body bits of an opcode are reserved (R205): NOP and END 80, STEP 78, SEM 48, FETCH_ARM 67, EFEED and ERES 38,
classes 1 to 4 the 42 bits of R206. -/
def reservedLow (op : Nat) : Nat :=
  if op = 0x00 ∨ op = 0x01 then 80
  else if op = 0x02 then 78
  else if op = 0xA0 then 48
  else if op = 0xE0 then 67
  else if op = 0xC0 ∨ op = 0xC1 then 38
  else 42

/-- A reserved opcode, a reserved header value or a nonzero reserved body bit: BAD_OPCODE at run time (R205, R229). -/
def badInstruction (w : Nat) : Bool :=
  !opcodes.contains (iOp w) || fieldN w 84 80 != 0 || (decide (25 ≤ iPostDie w) && iPostDie w != 31)
    || w % 2 ^ reservedLow (iOp w) != 0

/-- The count that an instruction waits for and the count that it posts: those of the body for SEM, 1 for the others (R217). -/
def iWaitCount (w : Nat) : Nat := if iWaitEn w then (if iOp w = 0xA0 then iWaitN w else 1) else 0
def iPostCount (w : Nat) : Nat := if iPostEn w then (if iOp w = 0xA0 then iPostN w else 1) else 0

/-! ### Formats (R135) -/

/-- Bytes of a container; 0 for a format whose elements are weight codes. -/
def fmtBytes (f : Nat) : Nat :=
  match f with
  | 0 => 1 | 1 => 1 | 2 => 2 | 3 => 4 | 4 => 4 | 5 => 8 | 6 => 2 | 7 => 2 | 8 => 4
  | _ => 0

/-- Bits of an element in memory. -/
def fmtBits (f : Nat) : Nat :=
  match f with
  | 9 => 1 | 10 => 2 | 11 => 4 | 12 => 8
  | _ => fmtBytes f * 8

def fmtFloat (f : Nat) : Bool := f == 6 || f == 7 || f == 8
def fmtWeight (f : Nat) : Bool := decide (9 ≤ f ∧ f ≤ 12)
def fmtReserved (f : Nat) : Bool := decide (13 ≤ f)

/-- Value bits of an integer format and whether it is signed. -/
def fmtValueBits (f : Nat) : Nat :=
  match f with
  | 0 => 8 | 1 => 8 | 2 => 16 | 3 => 24 | 4 => 32 | 5 => 48
  | _ => 0

/-- The range of an integer format (R135). -/
def fmtLo (f : Nat) : Int := if f = 1 then 0 else -(2 ^ (fmtValueBits f - 1) : Int)
def fmtHi (f : Nat) : Int := if f = 1 then 255 else (2 ^ (fmtValueBits f - 1) : Int) - 1

/-- The value of an integer container (R136: INT24 and INT48 ignore the bits above the value). -/
def intOf (f v : Nat) : Int := if f = 1 then (v % 256 : Nat) else signedN (fmtValueBits f) v

/-- The container of an integer value, sign extended (R136). -/
def containerOf (f : Nat) (v : Int) : List Byte := natLe (fmtBytes f) (patternN (fmtBytes f * 8) v)

/-- The n pieces that the multiplier receives for an operand, least significant first (R146, R148): the low ones as plain
unsigned bytes, the top one signed. -/
def splitPieces : Nat → Int → List Int
  | 0, _ => []
  | 1, v => [v]
  | n + 1, v => v % 256 :: splitPieces n (v / 256)

/-- How many pieces an operand of an integer format has. -/
def pieceCount (f : Nat) : Nat := if f = 2 then 2 else if f = 3 then 3 else 1

/-! ### Weight codes (R170, R171) -/

/-- Code k of a packed row of codes. -/
def codeAt (f k : Nat) (row : List Byte) : Nat :=
  match f with
  | 9 => (row.getD (k / 8) 0).toNat / 2 ^ (k % 8) % 2
  | 10 => (row.getD (k / 4) 0).toNat / 2 ^ (2 * (k % 4)) % 4
  | 11 => (row.getD (k / 2) 0).toNat / 2 ^ (4 * (k % 2)) % 16
  | _ => (row.getD k 0).toNat

/-- The value of a W1 or W2 code (R171). -/
def codeValue (f map c : Nat) : Int :=
  match f, map, c with
  | 9, _, 0 => -1
  | 9, _, _ => 1
  | _, 0, c => 2 * (c : Int) - 3
  | _, _, 0 => 0
  | _, _, 1 => 1
  | _, _, 2 => -2
  | _, _, _ => -1

/-! ### The quantisation parameter block (R190) -/

/-- A block as the execute engine reads it; the channels and tables stay where they are in the store. -/
structure Qpb where
  inFmt  : Nat := 0
  wFmt   : Nat := 0
  outFmt : Nat := 0
  mode   : Nat := 0
  block  : Nat := 0
  expK   : Nat := 0
  expZ   : Nat := 0
  zpIn   : Int := 0
  nCh    : Nat := 0
  zpOut  : Int := 0
  lo     : Int := 0
  hi     : Int := 0
  /-- Physical address of the block; 0 when the instruction has none. -/
  base   : Nat := 0
  deriving DecidableEq, Repr

def Qpb.map (q : Qpb) : Nat := q.mode % 2
def Qpb.expand (q : Qpb) : Nat := fieldN q.mode 2 1
def Qpb.scope (q : Qpb) : Nat := fieldN q.mode 3 3
def Qpb.fn (q : Qpb) : Nat := fieldN q.mode 5 4

/-- Weights in a reduction block; 0: the reduction is not cut (R185). -/
def Qpb.blockLen (q : Qpb) : Nat := if q.block = 0 then 0 else 16 * 2 ^ q.block

/-- Where the tables start: the next multiple of 64 after the channels (R190). -/
def Qpb.tables (q : Qpb) : Nat := q.base + (32 + 8 * q.nCh + 63) / 64 * 64

/-- Entries of a codebook or expansion table of a weight format. -/
def tableEntries (f : Nat) : Nat := 2 ^ fmtBits f

/-- Bytes of a block with its tables, so that a reader knows what it covers. -/
def Qpb.size (q : Qpb) : Nat :=
  let one := (tableEntries q.wFmt + 63) / 64 * 64
  let n := if q.expand = 1 ∨ (q.expand = 0 ∧ (q.wFmt = 11 ∨ q.wFmt = 12)) then
      (if q.scope = 1 then (q.nCh + 63) / 64 else 1) else 0
  (32 + 8 * q.nCh + 63) / 64 * 64 + n * one

/-- The fields of a block from its first 32 bytes. -/
def parseQpb (h : List Byte) (base : Nat) : Qpb :=
  { inFmt := leAt h 0 1, wFmt := leAt h 1 1, outFmt := leAt h 2 1, mode := leAt h 3 1, block := leAt h 4 1, expK := leAt h 5 1,
    expZ := leAt h 6 1, zpIn := signedN 16 (leAt h 8 2), nCh := leAt h 10 2, zpOut := signedN 32 (leAt h 12 4),
    lo := signedN 32 (leAt h 16 4), hi := signedN 32 (leAt h 20 4), base := base }

/-- The channel word of channel c. -/
def State.qpbChan (s : State) (q : Qpb) (c : Nat) : Nat := s.le (q.base + 32 + 8 * c) 8

/-- Entry e of the codebook or expansion table of channel c (R172, R183); of an instruction with no block it is a free
value (notes/assumptions/93.md). -/
def State.qpbEntry (s : State) (q : Qpb) (c e : Nat) : Int :=
  let one := (tableEntries q.wFmt + 63) / 64 * 64
  if q.base = 0 then (Config.codebookEntry e).toInt
  else signedN 8 (s.byte (q.tables + (if q.scope = 1 then c / 64 * one else 0) + e)).toNat

/-- The weight that a code stands for in channel c: expanded (R183), read by R171, or taken from a codebook (R172). -/
def State.weightOf (s : State) (q : Qpb) (c code : Nat) : Int :=
  match q.expand with
  | 1 => s.qpbEntry q c code
  | 2 => ((code : Int) - q.expZ) * q.expK
  | _ => if q.wFmt = 9 ∨ q.wFmt = 10 then codeValue q.wFmt q.map code else s.qpbEntry q c code

/-- A channel word that R191 refuses: reserved bits, SH above 47, or a constant outside the programmed bounds. -/
def badChannel (q : Qpb) (w : Nat) : Bool :=
  fieldN w 31 23 != 0 || decide (47 < fieldN w 21 16) ||
    (bitN w 22 && (decide (signedN 32 (w / 2 ^ 32) < q.lo) || decide (q.hi < signedN 32 (w / 2 ^ 32))))

/-- The header of a block against R191: reserved codes, ranges, R174, R184 and R197; what R190 gives as 0 and a format that is none of its field's
are refused in the same way (notes/assumptions/71.md). -/
def badQpbHead (h : List Byte) (q : Qpb) : Bool :=
  !([0, 1, 2, 3, 6, 7, 8].contains q.inFmt) || !([0, 2, 3, 6, 7, 8, 9, 10, 11, 12].contains q.wFmt)
    || !([0, 1, 2, 3].contains q.outFmt) || q.expand == 3 || q.fn == 3 || fieldN q.mode 7 6 != 0 || decide (4 < q.block)
    || leAt h 7 1 != 0 || leAt h 24 8 != 0
    || (if q.inFmt = 0 ∨ q.inFmt = 1 then decide (q.zpIn < fmtLo q.inFmt) || decide (fmtHi q.inFmt < q.zpIn) else q.zpIn != 0)
    || decide (q.zpOut < fmtLo q.outFmt) || decide (fmtHi q.outFmt < q.zpOut)
    || decide (q.lo < fmtLo q.outFmt) || decide (fmtHi q.outFmt < q.hi) || decide (q.hi < q.lo)
    || (q.expand != 0 && !fmtWeight q.wFmt)
    || (q.expand == 2 && (q.expK == 0 || decide (127 < q.expK)
        || (List.range (tableEntries q.wFmt)).any (fun c =>
            decide (((c : Int) - q.expZ) * q.expK < -128) || decide (127 < ((c : Int) - q.expZ) * q.expK))))
    || (q.expand != 2 && (q.expK != 0 || q.expZ != 0))
    || (q.fn != 0 && q.outFmt == 3)

/-- A block in the store, and whether it fails R191. -/
def State.badQpb (s : State) (q : Qpb) : Bool :=
  badQpbHead (s.bytes q.base 32) q || (List.range q.nCh).any (fun c => badChannel q (s.qpbChan q c))

/-! ### Rounding and clamping (R167, R168) -/

/-- rshift of R167. -/
def rshift (v : Int) (n : Nat) : Int :=
  if n = 0 then v else v.sign * ((v.natAbs + 2 ^ (n - 1)) / 2 ^ n : Nat)

/-- round_div of R167. -/
def roundDiv (p : Int) (d : Nat) : Int := p.sign * ((2 * p.natAbs + d) / (2 * d) : Nat)

/-- A value clamped to a format, and whether it counts (R168). -/
def clampFmt (f : Nat) (v : Int) : Int × Bool := clampI (fmtLo f) (fmtHi f) v

/-! ### The function tables (R197) -/

/-- Entry i of a function table as INT16; an entry that no FNLOAD has written is 0 (R569). -/
def fnEntry (t : List (BitVec 16)) (i : Nat) : Int := (t.getD i 0).toInt

/-- fn(v) of R197 for a value v inside the output format. -/
def fnApply (t : List (BitVec 16)) (outFmt : Nat) (v : Int) : Int :=
  match outFmt with
  | 0 => fnEntry t (v + 128).toNat
  | 1 => fnEntry t v.toNat
  | _ =>
    let x := (v + 32768).toNat
    let i := x / 64
    fnEntry t i + rshift ((fnEntry t (i + 1) - fnEntry t i) * (x % 64 : Nat)) 6

/-- requantise of R187 for a channel word, with the function tables of the finish unit; and whether the element counts in the
saturation counter, once at most. -/
def requantise (q : Qpb) (w : Nat) (t0 t1 : List (BitVec 16)) (acc : Int) : Int × Bool :=
  let v := if bitN w 22 then signedN 32 (w / 2 ^ 32) else rshift (acc * (fieldN w 15 0 : Nat)) (fieldN w 21 16) + q.zpOut
  let a := clampFmt q.outFmt v
  let b := if q.fn = 0 then a
    else
      let x := clampFmt q.outFmt (fnApply (if q.fn = 1 then t0 else t1) q.outFmt a.1)
      (x.1, a.2 || x.2)
  (max q.lo (min q.hi b.1), b.2)

/-! ### The matrix record (R210) -/

structure MatRec where
  aBase : Nat
  bBase : Nat
  outBase : Nat
  aPitch : Nat
  bPitch : Nat
  outPitch : Nat
  m : Nat
  n : Nat
  k : Nat
  aFmt : Nat
  bFmt : Nat
  outFmt : Nat
  bSrc : Nat
  partBase : Nat
  deriving DecidableEq, Repr

def parseMat (r : List Byte) : MatRec :=
  { aBase := leAt r 0 4, bBase := leAt r 4 4, outBase := leAt r 8 4, aPitch := leAt r 12 4, bPitch := leAt r 16 4,
    outPitch := leAt r 20 4, m := leAt r 24 2, n := leAt r 26 2, k := leAt r 28 4, aFmt := leAt r 32 1, bFmt := leAt r 33 1,
    outFmt := leAt r 34 1, bSrc := leAt r 35 1, partBase := leAt r 36 4 }

/-- Bytes of a row of n elements. -/
def rowBytes (f n : Nat) : Nat := (n * fmtBits f + 7) / 8

/-- A pitch of R210: a multiple of 64 that is at least the row's size. -/
def badPitch (pitch row : Nat) : Bool := pitch % 64 != 0 || decide (pitch < row)

/-- A matrix record that fails R210 or R211: fields, offsets, pitches and reserved bytes. -/
def badMat (r : List Byte) (a : MatRec) : Bool :=
  decide (2 ^ 24 ≤ a.k) || decide (1 < a.bSrc) || (r.drop 40).any (fun b => b != 0)
    || fmtReserved a.aFmt || fmtReserved a.bFmt || fmtReserved a.outFmt || fmtWeight a.outFmt
    || a.aBase % 64 != 0 || a.outBase % 64 != 0 || a.partBase % 64 != 0
    || (a.bSrc == 0 && a.bBase % 64 != 0) || (a.bSrc == 1 && decide (64 ≤ a.bBase))
    || decide (2 ^ 19 ≤ a.aBase) || decide (2 ^ 19 ≤ a.outBase) || decide (2 ^ 19 ≤ a.partBase)
    || (a.bSrc == 0 && decide (2 ^ 19 ≤ a.bBase))
    || badPitch a.aPitch (rowBytes a.aFmt a.k) || badPitch a.outPitch (rowBytes a.outFmt a.n)
    || (a.bSrc == 0 && badPitch a.bPitch (rowBytes a.bFmt a.k))

/-! ### The window record (R235) -/

structure WinRec where
  inBase : Nat
  bBase : Nat
  outBase : Nat
  inPitch : Nat
  outPitch : Nat
  padConst : Nat
  w : Nat
  h : Nat
  cIn : Nat
  n : Nat
  rowLo : Nat
  rowHi : Nat
  outY0 : Nat
  outY1 : Nat
  fw : Nat
  fh : Nat
  sx : Nat
  sy : Nat
  dx : Nat
  dy : Nat
  padL : Nat
  padR : Nat
  padT : Nat
  padB : Nat
  padMode : Nat
  inB : Nat
  bSrc : Nat
  maskEn : Bool
  diag : Bool
  outB : Nat
  op : Nat
  factor : Nat
  aFmt : Nat
  bFmt : Nat
  outFmt : Nat
  slope : Nat
  dIdx : Nat
  mask : Nat
  groups : Nat
  deriving DecidableEq, Repr

def parseWin (r : List Byte) : WinRec :=
  let fs := leAt r 40 1
  let st := leAt r 41 1
  let mode := leAt r 48 1
  let op := leAt r 49 1
  { inBase := leAt r 0 4, bBase := leAt r 4 4, outBase := leAt r 8 4, inPitch := leAt r 12 4, outPitch := leAt r 16 4,
    padConst := leAt r 20 4, w := leAt r 24 2, h := leAt r 26 2, cIn := leAt r 28 2, n := leAt r 30 2, rowLo := leAt r 32 2,
    rowHi := leAt r 34 2, outY0 := leAt r 36 2, outY1 := leAt r 38 2, fw := fs % 16, fh := fs / 16, sx := st % 16, sy := st / 16,
    dx := leAt r 42 1, dy := leAt r 43 1, padL := leAt r 44 1, padR := leAt r 45 1, padT := leAt r 46 1, padB := leAt r 47 1,
    padMode := fieldN mode 2 0, inB := if bitN mode 3 then 32 else 16, bSrc := b2n (bitN mode 4), maskEn := bitN mode 5,
    diag := bitN mode 6, outB := if bitN mode 7 then 32 else 16, op := fieldN op 1 0, factor := fieldN op 5 2, aFmt := leAt r 50 1,
    bFmt := leAt r 51 1, outFmt := leAt r 52 1, slope := leAt r 53 1, dIdx := leAt r 54 2, mask := leAt r 56 2 * 64,
    groups := leAt r 58 2 }

/-- The effective extents and the output size (R236). -/
def WinRec.ex (r : WinRec) : Nat := (r.fw - 1) * r.dx + 1
def WinRec.ey (r : WinRec) : Nat := (r.fh - 1) * r.dy + 1
def WinRec.wo (r : WinRec) : Nat := if r.w + r.padL + r.padR < r.ex then 0 else (r.w + r.padL + r.padR - r.ex) / r.sx + 1
def WinRec.ho (r : WinRec) : Nat := if r.h + r.padT + r.padB < r.ey then 0 else (r.h + r.padT + r.padB - r.ey) / r.sy + 1

/-- The size of the output tensor, the output channels included in RESAMPLE (R253). -/
def WinRec.outW (r : WinRec) (resample : Bool) : Nat :=
  if !resample then r.wo
  else match r.op with
    | 0 => r.w * r.factor | 1 => 2 * r.w | 2 => r.w * r.factor | _ => r.w / r.factor
def WinRec.outH (r : WinRec) (resample : Bool) : Nat :=
  if !resample then r.ho
  else match r.op with
    | 0 => r.h * r.factor | 1 => 2 * r.h | 2 => r.h * r.factor | _ => r.h / r.factor

/-- Input channels of a group, and the group of an output channel (R238). -/
def WinRec.cg (r : WinRec) : Nat := r.cIn / r.groups
def WinRec.groupOf (r : WinRec) (n : Nat) : Nat := n * r.groups / r.n

/-- pad_index of R241, for n at least 1. -/
def padIndex (edge : Bool) (i : Int) (n : Nat) : Nat :=
  if 0 ≤ i ∧ i < n then i.toNat
  else if edge then (min (max i 0) (n - 1 : Int)).toNat
  else if n = 1 then 0
  else
    let p := 2 * (n - 1)
    let m := (i % (p : Int)).toNat
    if n ≤ m then p - m else m

/-- The input coordinate of a tap (R237). -/
def WinRec.tapX (r : WinRec) (xo kx : Nat) : Int := (xo * r.sx : Nat) - (r.padL : Int) + (kx * r.dx : Nat)
def WinRec.tapY (r : WinRec) (yo ky : Nat) : Int := (yo * r.sy : Nat) - (r.padT : Int) + (ky * r.dy : Nat)

/-- Byte offset of element (c, y, x) of a tensor with block size b, element size e, rows stored and first row (R232). -/
def tensorOffset (b e pitch rows y0 c y x : Nat) : Nat :=
  c / b * rows * pitch + y * pitch + x * b * e + c % b * e - y0 * pitch

/-- The store offset of an input element; a row above those held lies below IN_BASE (notes/assumptions/64.md). -/
def WinRec.inAddr (r : WinRec) (c y x : Nat) : Nat :=
  r.inBase + c / r.inB * (r.rowHi - r.rowLo + 1) * r.inPitch + y * r.inPitch + x * r.inB * fmtBytes r.aFmt + c % r.inB * fmtBytes r.aFmt
    - r.rowLo * r.inPitch

/-- The store offset of an output element of a rectangular output. -/
def WinRec.outAddr (r : WinRec) (c y x : Nat) : Nat :=
  r.outBase + tensorOffset r.outB (fmtBytes r.outFmt) r.outPitch (r.outY1 - r.outY0 + 1) r.outY0 c y x

/-- The taps of a window in the order of the reduction (R238). -/
def WinRec.taps (r : WinRec) : List (Nat × Nat) :=
  (List.range r.fh).flatMap (fun ky => (List.range r.fw).map (fun kx => (kx, ky)))

/-- The output positions of diagonal D (R246), ascending in yo. -/
def WinRec.diagonal (r : WinRec) : List (Nat × Nat) :=
  (List.range' r.outY0 (r.outY1 + 1 - r.outY0)).filterMap (fun yo =>
    if r.slope * yo ≤ r.dIdx ∧ r.dIdx - r.slope * yo < r.wo then some (r.dIdx - r.slope * yo, yo) else none)

/-- Input rows that a rectangular or diagonal instruction reads, after padding by MIRROR or EDGE (R247). -/
def WinRec.rowsRead (r : WinRec) : List Nat :=
  (List.range' r.outY0 (r.outY1 + 1 - r.outY0)).flatMap (fun yo =>
    (List.range r.fh).filterMap (fun ky =>
      let y := r.tapY yo ky
      if 0 ≤ y ∧ y < r.h then some y.toNat
      else if r.padMode = 2 ∨ r.padMode = 3 then some (padIndex (r.padMode == 3) y r.h)
      else none))

/-- Input rows that RESAMPLE reads (R253), neighbours by EDGE. -/
def WinRec.resampleRows (r : WinRec) : List Nat :=
  (List.range' r.outY0 (r.outY1 + 1 - r.outY0)).flatMap (fun y =>
    match r.op with
    | 1 => [padIndex true ((y / 2 : Nat) : Int) r.h, padIndex true ((y / 2 : Nat) + (if y % 2 = 0 then -1 else 1) : Int) r.h]
    | 3 => (List.range r.factor).map (fun i => y * r.factor + i)
    | _ => [y / r.factor])

/-- The window instructions: CONV_INT, CONV_LUT and CONV_FLOAT, POOL, RESAMPLE. -/
inductive WinKind where
  | conv | pool | resample
  deriving DecidableEq, Repr

/-- Nothing to compute (R239). -/
def WinRec.empty (r : WinRec) (k : WinKind) : Bool :=
  r.w == 0 || r.h == 0 || r.cIn == 0 || r.n == 0 || (k != .resample && (r.wo == 0 || r.ho == 0))

/-- A window record that fails R235 to R247, R252, R253 or R256. -/
def badWin (raw : List Byte) (r : WinRec) (k : WinKind) (word : Nat) : Bool :=
  let op := leAt raw 49 1
  let e := fmtBytes r.aFmt
  let eo := fmtBytes r.outFmt
  let opOk := match k with
    | .conv => op == 0
    | .pool => decide (op < 4)
    | .resample => op / 64 == 0 &&
        (match r.op with
         | 0 => decide (1 ≤ r.factor ∧ r.factor ≤ 8)
         | 1 => r.factor == 2
         | _ => r.factor == 2 || r.factor == 4)
  let common :=
    r.fw == 0 || r.fh == 0 || r.sx == 0 || decide (8 < r.sx) || r.sy == 0 || decide (8 < r.sy)
    || r.dx == 0 || decide (64 < r.dx) || r.dy == 0 || decide (64 < r.dy)
    || decide (63 < r.padL) || decide (63 < r.padR) || decide (63 < r.padT) || decide (63 < r.padB)
    || decide (127 < r.ex) || decide (127 < r.ey) || decide (4 < r.padMode) || !opOk || leAt raw 60 4 != 0
    || decide (2 ^ 19 ≤ r.inBase) || decide (2 ^ 19 ≤ r.outBase) || r.inPitch % 64 != 0 || r.outPitch % 64 != 0
    || decide (e < 4 ∧ 2 ^ (8 * e) ≤ r.padConst)
    || r.groups == 0 || r.cIn % max 1 r.groups != 0 || r.n % max 1 r.groups != 0
    || e == 0 || eo == 0 || fmtReserved r.bFmt
    || (k == .conv && r.bSrc == 0 && decide (2 ^ 19 ≤ r.bBase)) || (k == .conv && r.bSrc == 1 && decide (64 ≤ r.bBase))
    || (k != .pool && r.padMode == 4)
    || (r.diag && (r.slope == 0 || decide (8 < r.slope) || r.sx != 1 || r.sy != 1 || r.outW (k == .resample) != r.w
          || r.outH (k == .resample) != r.h
          || decide (r.outPitch < r.n * eo)))
    || (!r.diag && r.slope != 0)
    || (r.maskEn && (r.fw % 2 == 0 || r.fh % 2 == 0 || decide (0x2000 * 64 ≤ r.mask)))
    || iUnits word == 0 || decide (2 ≤ iAccInit word)
  let byKind := match k with
    | .conv => false
    | .pool => r.n != r.cIn || r.groups != 1 || r.maskEn || iAccInit word != 0 || iNarrow word
        || (!iQpbEn word && r.outFmt != r.aFmt)
    | .resample => r.fw != 1 || r.fh != 1 || r.sx != 1 || r.sy != 1 || r.dx != 1 || r.dy != 1
        || r.padL != 0 || r.padR != 0 || r.padT != 0 || r.padB != 0 || r.maskEn || iAccInit word != 0 || iNarrow word
        || iQpbEn word || r.outFmt != r.aFmt
        || (match r.op with
            | 2 => r.cIn % (r.factor * r.factor) != 0 || r.n != r.cIn / (r.factor * r.factor)
            | 3 => r.w % r.factor != 0 || r.h % r.factor != 0 || r.n != r.cIn * (r.factor * r.factor)
            | _ => r.n != r.cIn)
  let whole := r.outW (k == .resample)
  let tall := r.outH (k == .resample)
  let pitches := !r.diag && (decide (r.inPitch < r.w * r.inB * e) || decide (r.outPitch < whole * r.outB * eo))
  let sized := !r.empty k && (decide (r.rowHi < r.rowLo) || decide (r.h ≤ r.rowHi) || decide (r.outY1 < r.outY0)
    || decide (tall ≤ r.outY1)
    || (!r.diag && (if k = .resample then r.resampleRows else r.rowsRead).any (fun y => decide (y < r.rowLo) || decide (r.rowHi < y))))
  common || byKind || pitches || sized

end Sys2Proof.Machine
end

