-- ==== Sys2Proof/Machine/Float.lean ====
section
/-!
DEFINITION. Floating point of class V: BF16, FP16 and FP32 values as exact dyadic numbers, one rounding (R154), subnormals
(R155), the split of FP32 (R152), conversions (R156) and the special values of R157 and R158.
-/

namespace Sys2Proof.Machine

/-- A float value: NaN, an infinity, or (-1)^neg × m × 2^e exactly. -/
inductive Fv where
  | nan
  | inf (neg : Bool)
  | fin (neg : Bool) (m : Nat) (e : Int)
  deriving DecidableEq, Repr

/-- Significant bits, exponent of the least subnormal, exponent field width and fraction width of a format. -/
def fpPrec (f : Nat) : Nat := if f = 6 then 8 else if f = 7 then 11 else 24
def fpMin (f : Nat) : Int := if f = 6 then -133 else if f = 7 then -24 else -149
def fpExpBits (f : Nat) : Nat := if f = 7 then 5 else 8
def fpFrac (f : Nat) : Nat := fpPrec f - 1

/-- The value of a pattern. -/
def fpOf (f v : Nat) : Fv :=
  let frac := v % 2 ^ fpFrac f
  let ex := v / 2 ^ fpFrac f % 2 ^ fpExpBits f
  let neg := bitN v (fpFrac f + fpExpBits f)
  if ex = 2 ^ fpExpBits f - 1 then (if frac = 0 then .inf neg else .nan)
  else if ex = 0 then .fin neg frac (fpMin f)
  else .fin neg (2 ^ fpFrac f + frac) (fpMin f + (ex - 1 : Nat))

/-- The quiet NaN of a format (R158). -/
def fpNan (f : Nat) : Nat := (2 ^ fpExpBits f - 1) * 2 ^ fpFrac f + 2 ^ (fpFrac f - 1)

def fpSign (f : Nat) (neg : Bool) : Nat := b2n neg * 2 ^ (fpFrac f + fpExpBits f)

/-- The infinity of a format. -/
def fpInf (f : Nat) (neg : Bool) : Nat := fpSign f neg + (2 ^ fpExpBits f - 1) * 2 ^ fpFrac f

/-- An exact value rounded to nearest, ties away from zero, and whether it became an infinity (R154). -/
def fpRound (f : Nat) (v : Fv) : Nat × Bool :=
  match v with
  | .nan => (fpNan f, false)
  | .inf neg => (fpInf f neg, false)
  | .fin neg m e =>
    if m = 0 then (fpSign f neg, false)
    else
      let q : Int := max (fpMin f) (e + (Nat.log2 m + 1 : Nat) - (fpPrec f : Int))
      let k : Nat := if q ≤ e then m * 2 ^ (e - q).toNat else
        let s := (q - e).toNat
        (m + 2 ^ (s - 1)) / 2 ^ s
      let up := k = 2 ^ fpPrec f
      let k := if up then k / 2 else k
      let q := if up then q + 1 else q
      if k = 0 then (fpSign f neg, false)
      else if k < 2 ^ fpFrac f then (fpSign f neg + k, false)
      else
        let ex := (q - fpMin f).toNat + 1
        if 2 ^ fpExpBits f - 1 ≤ ex then (fpInf f neg, true)
        else (fpSign f neg + ex * 2 ^ fpFrac f + (k - 2 ^ fpFrac f), false)

/-- What an operation may have met: OVERFLOW (R154), a NaN operand (R159), and the origin of a NaN (R158), by kind. -/
structure FpEvents where
  overflow : Bool := false
  nanIn    : Bool := false
  kind     : Nat := 0
  deriving DecidableEq, Repr

/-- Events of two operations of one element: the first origin stands. -/
def FpEvents.join (a b : FpEvents) : FpEvents :=
  { overflow := a.overflow || b.overflow, nanIn := a.nanIn || b.nanIn, kind := if a.kind = 0 then b.kind else a.kind }

/-- An exact product (R153); ±0 × ±∞ is NaN of kind ZERO_TIMES_INF. -/
def fvMul (a b : Fv) : Fv × FpEvents :=
  match a, b with
  | .nan, _ => (.nan, { nanIn := true })
  | _, .nan => (.nan, { nanIn := true })
  | .inf x, .inf y => (.inf (x != y), {})
  | .inf x, .fin y m _ => if m = 0 then (.nan, { kind := 1 }) else (.inf (x != y), {})
  | .fin x m _, .inf y => if m = 0 then (.nan, { kind := 1 }) else (.inf (x != y), {})
  | .fin x m e, .fin y n g => (.fin (x != y) (m * n) (e + g), {})

/-- An exact sum; +∞ and −∞ give NaN of kind INF_MINUS_INF, an exact zero is +0 unless both operands are −0 (R155). -/
def fvAdd (a b : Fv) : Fv × FpEvents :=
  match a, b with
  | .nan, _ => (.nan, { nanIn := true })
  | _, .nan => (.nan, { nanIn := true })
  | .inf x, .inf y => if x = y then (.inf x, {}) else (.nan, { kind := 2 })
  | .inf x, _ => (.inf x, {})
  | _, .inf y => (.inf y, {})
  | .fin x m e, .fin y n g =>
    let q := min e g
    let u : Int := (if x then -1 else 1) * (m * 2 ^ (e - q).toNat : Nat)
    let v : Int := (if y then -1 else 1) * (n * 2 ^ (g - q).toNat : Nat)
    let z := u + v
    (.fin (if z = 0 then x && y else decide (z < 0)) z.natAbs q, {})

def fvNeg : Fv → Fv
  | .nan => .nan
  | .inf x => .inf (!x)
  | .fin x m e => .fin (!x) m e

/-- One addition into an FP32 accumulator: exact, then rounded once (R154). -/
def fpAccumulate (acc : Nat) (term : Fv) : Nat × FpEvents :=
  let r := fvAdd (fpOf 8 acc) term
  let p := fpRound 8 r.1
  (p.1, r.2.join { overflow := p.2 })

/-- The integer value of an integer, as an exact float value (R156). -/
def fvOfInt (v : Int) : Fv := .fin (decide (v < 0)) v.natAbs 0

/-- A float value to an integer format (R156): rounded to nearest, ties away from zero; clamped and counted when beyond the
range or infinite; 0, with INVALID and an origin for a NaN, whose kind the model takes to be DOMAIN (notes/assumptions/61.md). -/
def fvToInt (f : Nat) (v : Fv) : Int × Bool × FpEvents :=
  match v with
  | .nan => (0, false, { nanIn := true, kind := 3 })
  | .inf neg => (if neg then fmtLo f else fmtHi f, true, {})
  | .fin neg m e =>
    let a : Nat := if 0 ≤ e then m * 2 ^ e.toNat else
      let s := (-e).toNat
      (m + 2 ^ (s - 1)) / 2 ^ s
    let c := clampFmt f ((if neg then -1 else 1) * (a : Int))
    (c.1, c.2, {})

/-- The largest finite BF16 of a sign (R152). -/
def bf16Max (neg : Bool) : Nat := fpSign 6 neg + 0x7F7F

/-- The three BF16 pieces of an FP32 pattern (R152); a piece that would be infinite and is replaced sets no flag (notes/assumptions/61.md). -/
def split3 (v : Nat) : List Fv :=
  match fpOf 8 v with
  | .nan => [.nan, .nan, .nan]
  | .inf neg => [.inf neg, .inf neg, .inf neg]
  | .fin neg m e =>
    let x := Fv.fin neg m e
    let r0 := fpRound 6 x
    let b0 := fpOf 6 (if r0.2 then bf16Max neg else r0.1)
    let rem1 := (fvAdd x (fvNeg b0)).1
    let b1 := fpOf 6 (fpRound 6 rem1).1
    let rem2 := (fvAdd rem1 (fvNeg b1)).1
    [b0, b1, fpOf 6 (fpRound 6 rem2).1]

/-- The passes of a float product: one for BF16 or FP16; three for FP32 × BF16; the six with i + j at most 2 for FP32 × FP32
(R153). -/
def floatPasses (aFmt bFmt : Nat) : List (Nat × Nat) :=
  let m := if aFmt = 8 then 3 else 1
  let n := if bFmt = 8 then 3 else 1
  ((List.range m).flatMap (fun i => (List.range n).map (fun j => (i, j)))).filter (fun p => p.1 + p.2 ≤ 2)

/-- The pieces of a float operand. -/
def floatPieces (f v : Nat) : List Fv := if f = 8 then split3 v else [fpOf f v]

/-- Is a value NaN? -/
def Fv.isNan : Fv → Bool
  | .nan => true
  | _ => false

/-! ### Order and division -/

/-- Is a below b, as float values that are not NaN? -/
def fvLess (a b : Fv) : Bool :=
  match a, b with
  | .inf x, .inf y => x && !y
  | .inf x, _ => x
  | _, .inf y => !y
  | .fin x m e, .fin y n g =>
    let q := min e g
    let u : Int := (if x then -1 else 1) * (m * 2 ^ (e - q).toNat : Nat)
    let v : Int := (if y then -1 else 1) * (n * 2 ^ (g - q).toNat : Nat)
    decide (u < v)
  | _, _ => false

/-- The larger, or the smaller, of two float values; NaN when either is (R158). -/
def fvMax (a b : Fv) : Fv := if a.isNan || b.isNan then .nan else if fvLess a b then b else a
def fvMin (a b : Fv) : Fv := if a.isNan || b.isNan then .nan else if fvLess b a then b else a

/-- An FP32 pattern divided by a positive integer, rounded once: m / d is carried to enough bits that its sticky rest decides the
rounding (R154). -/
def fpDiv (f : Nat) (v : Fv) (d : Nat) : Nat × Bool :=
  match v with
  | .fin neg m e =>
    let k := m * 2 ^ 64
    let q := k / d
    fpRound f (.fin neg (2 * q + b2n (k % d != 0)) (e - 65))
  | other => fpRound f other

end Sys2Proof.Machine
end

