-- ==== Sys2Proof/Machine/Approx.lean ====
section
/-!
DEFINITION. The float functions of the finish unit (R157): their values to far more bits than FP32 has, the errors that R157 allows, and what the
firmware's approximation gives within them.
-/

namespace Sys2Proof.Machine

/-! ### Values in fixed point, 320 bits behind the point -/

/-- The number 1. -/
def fixOne : Nat := 2 ^ 320

/-- The terms of e^y from the i-th on, for y below 1: `term` is the one before. -/
def expSum : Nat → Nat → Nat → Nat → Nat
  | 0, _, _, _ => 0
  | fuel + 1, y, i, term => term + expSum fuel y (i + 1) (term * y / fixOne / i)

/-- The terms of the inverse hyperbolic tangent from the odd number k on: `pw` is t^k, `t2` is t². -/
def atanhSum : Nat → Nat → Nat → Nat → Nat
  | 0, _, _, _ => 0
  | fuel + 1, t2, k, pw => pw / k + atanhSum fuel t2 (k + 2) (pw * t2 / fixOne)

/-- The natural logarithm of z, from 1 to 2. -/
def lnUnit (z : Nat) : Nat :=
  let t := (z - fixOne) * fixOne / (z + fixOne)
  2 * atanhSum 110 (t * t / fixOne) 1 t

/-- ln 2. -/
def lnTwo : Nat := lnUnit (2 * fixOne)

/-- The integer square root, bit by bit from bit 420 down. -/
def sqrtBits (n : Nat) : Nat := (List.range 421).foldl (fun r i => let k := r + 2 ^ (420 - i); if k * k ≤ n then k else r) 0

/-- The magnitude of a finite FP32 value; exact. -/
def fixOf (m : Nat) (e : Int) : Nat := if 0 ≤ e then m * 2 ^ e.toNat * fixOne else m * fixOne / 2 ^ (-e).toNat

/-- e^x for x = k × unit + r × 2^-320, as an exact dyadic value: `unit` is ln 2, and `scale` turns the rest into a power of e. -/
def expFv (neg : Bool) (a unit : Nat) (scale : Nat → Nat) : Fv :=
  if 4096 * fixOne ≤ a then .fin false 1 (if neg then -5000 else 5000)
  else
    let x : Int := if neg then -(a : Int) else a
    let k := x / (unit : Int)
    let r := (x - k * unit).toNat
    .fin false (expSum 90 (scale r) 1 fixOne) (k - 320)

/-- A power of e as a fixed-point number, for a at least 0 and below 4,096. -/
def expFix (a : Nat) : Nat := expSum 90 (a % lnTwo) 1 fixOne * 2 ^ (a / lnTwo)

/-- An integer over 2^320. -/
def fvFix (v : Int) : Fv := .fin (decide (v < 0)) v.natAbs (-320)

/-- ln of m × 2^e, m above 0. -/
def lnFix (m : Nat) (e : Int) : Int :=
  let l := Nat.log2 m
  (lnUnit (m * fixOne / 2 ^ l) : Int) + (e + l) * (lnTwo : Int)

/-- The value of a function of R157 at a finite operand inside its domain: 0 reciprocal, 1 reciprocal square root, 2 exp2, 3 exp, 4 log2, 5 log,
6 tanh, 7 sigmoid. -/
def exactFn (n : Nat) (neg : Bool) (m : Nat) (e : Int) : Fv :=
  let a := fixOf m e
  match n with
  | 0 => .fin neg (2 ^ 400 / m) (-e - 400)
  | 1 =>
    let m' := if e % 2 = 0 then m else 2 * m
    let e' := if e % 2 = 0 then e else e - 1
    .fin false (sqrtBits (2 ^ 800 / m')) (-(e' / 2) - 400)
  | 2 => expFv neg a fixOne (fun r => r * lnTwo / fixOne)
  | 3 => expFv neg a lnTwo (fun r => r)
  | 4 => fvFix (lnFix m e * fixOne / lnTwo)
  | 5 => fvFix (lnFix m e)
  | 6 =>
    if 2048 * fixOne ≤ a then .fin neg 1 0
    else
      let x := expFix (2 * a)
      let t := (x - fixOne) * fixOne / (x + fixOne)
      .fin neg t (-320)
  | _ =>
    if 4096 * fixOne ≤ a then (if neg then .fin false 0 0 else .fin false 1 0)
    else
      let x := expFix a
      .fin false ((if neg then fixOne else x) * fixOne / (x + fixOne)) (-320)

/-! ### The errors of R157 -/

/-- Is the distance of two finite values at most a bound? -/
def fvWithin (a b bound : Fv) : Bool :=
  match (fvAdd a (fvNeg b)).1 with
  | .fin _ m e => !fvLess bound (.fin false m e)
  | _ => false

/-- k units in the last place of an FP32 pattern. -/
def ulps (k p : Nat) : Fv := .fin false k ((max 1 (p / 2 ^ 23 % 256) : Nat) - 150)

/-- A pattern that R157 allows as the function's value: finite, and within the maximum error of the exact value. -/
def allowedFn (n : Nat) (exact x : Fv) (p : Nat) : Bool :=
  let y := fpOf 8 p
  let r := (fpRound 8 exact).1
  let fine := match y with | .fin _ _ _ => true | _ => false
  let near := !fvLess x (.fin false 1 (-1)) && !fvLess (.fin false 2 0) x
  fine && (match n with
    | 0 | 1 => fvWithin y exact (ulps 2 r)
    | 2 | 3 => fvWithin y exact (ulps 3 r)
    | 4 | 5 => fvWithin y exact (ulps 3 r) || (near && fvWithin y exact (.fin false 1 (-21)))
    | _ => fvWithin y exact (.fin false 1 (-20)))

/-- The firmware's approximation where R157 allows it; else the exact value rounded, an infinity with OVERFLOW when it is beyond the largest
finite one (R154). -/
def approxFn (n v : Nat) (neg : Bool) (m : Nat) (e : Int) : Nat × FpEvents :=
  let x := exactFn n neg m e
  let p := (Config.floatFunction n (BitVec.ofNat 32 v)).toNat
  if allowedFn n x (.fin neg m e) p then (p, {})
  else
    let r := fpRound 8 x
    (r.1, { overflow := r.2 })

/-- The functions by number: 0 reciprocal, 1 reciprocal square root, 2 exp2, 3 exp, 4 log2, 5 log, 6 tanh, 7 sigmoid, with the
special values of R157. -/
def floatFn (n v : Nat) : Nat × FpEvents :=
  let one := 0x3F80_0000
  match fpOf 8 v with
  | .nan => (fpNan 8, { nanIn := true })
  | .inf neg =>
    match n with
    | 0 => (fpSign 8 neg, {})
    | 1 => if neg then (fpNan 8, { kind := 3 }) else (0, {})
    | 2 | 3 => (if neg then 0 else fpInf 8 false, {})
    | 4 | 5 => if neg then (fpNan 8, { kind := 3 }) else (fpInf 8 false, {})
    | 6 => (fpSign 8 neg + one, {})
    | _ => (if neg then 0 else one, {})
  | .fin neg m e =>
    if m = 0 ∧ n = 0 then (fpInf 8 neg, {})
    else if m = 0 ∧ n = 1 then (fpInf 8 false, {})
    else if m = 0 ∧ (n = 4 ∨ n = 5) then (fpInf 8 true, {})
    else if neg ∧ (n = 1 ∨ n = 4 ∨ n = 5) then (fpNan 8, { kind := 3 })
    else approxFn n v neg m e

/-! ### Rows (R157) -/

/-- A sum in FP32, in the order of the row (R154). -/
def rowSum (xs : List (Fv × FpEvents)) : Nat × FpEvents :=
  xs.foldl (fun a t =>
    let r := fpAccumulate a.1 t.1
    (r.1, (a.2.join t.2).join r.2)) (0, {})

/-- A float result rounded to FP32, with its events joined to those that came before. -/
def rowRound (e : FpEvents) (r : Fv × FpEvents) : Nat × FpEvents :=
  let p := fpRound 8 r.1
  (p.1, (e.join r.2).join { overflow := p.2 })

/-- Softmax of a row at an index: e^(x − max) times the reciprocal of their sum, each from the functions above and R154
(notes/assumptions/62.md). -/
def softmaxAt (row : List Nat) (j : Nat) : Nat × FpEvents :=
  let vs := row.map (fpOf 8)
  let top := match vs with | [] => .nan | v :: rest => rest.foldl fvMax v
  let es := vs.map (fun v =>
    let d := rowRound {} (fvAdd v (fvNeg top))
    let y := floatFn 3 d.1
    (fpOf 8 y.1, d.2.join y.2))
  let sum := rowSum es
  let inv := floatFn 0 sum.1
  let own := es.getD j (.nan, {})
  rowRound (sum.2.join inv.2) (fvMul own.1 (fpOf 8 inv.1))

/-- Normalisation of a row at an index: the element, less the mean for layer normalisation, times the reciprocal square root of the mean square
(notes/assumptions/62.md). -/
def normAt (layer : Bool) (row : List Nat) (j : Nat) : Nat × FpEvents :=
  let vs := row.map (fpOf 8)
  let sum := rowSum (vs.map (fun v => (v, ({} : FpEvents))))
  let mean := fpDiv 8 (fpOf 8 sum.1) (max 1 row.length)
  let ds := vs.map (fun v => if layer then rowRound {} (fvAdd v (fvNeg (fpOf 8 mean.1))) else ((fpRound 8 v).1, {}))
  let squares := rowSum (ds.map (fun d => let q := fvMul (fpOf 8 d.1) (fpOf 8 d.1); (q.1, d.2.join q.2)))
  let var := fpDiv 8 (fpOf 8 squares.1) (max 1 row.length)
  let inv := floatFn 1 var.1
  let own := ds.getD j (0, {})
  let before := ((if layer then sum.2.join { overflow := mean.2 } else {}).join squares.2).join ({ inv.2 with overflow := inv.2.overflow || var.2 })
  rowRound before (fvMul (fpOf 8 own.1) (fpOf 8 inv.1))

/-- A row function at an index: 0 softmax, 1 layer normalisation, 2 RMS normalisation, built from the functions above and R154. A NaN in any element
makes the whole row NaN (R157). -/
def rowFn (n : Nat) (row : List Nat) (j : Nat) : Nat × FpEvents :=
  if row.any (fun v => (fpOf 8 v).isNan) then (fpNan 8, { nanIn := true })
  else if n = 0 then softmaxAt row j
  else normAt (n == 1) row j

end Sys2Proof.Machine
end

