-- ==== Sys2Proof/Machine/Flags.lean ====
section
/-!
DEFINITION. What results leave in the session: the saturation counter (R168, R169), the exception summary with its flags and
origin records (R159 to R162), and the largest codes of the open picture (R67).
-/

namespace Sys2Proof.Machine

/-- The saturation counter raised by n; it holds at its largest value (R169). -/
def State.saturate (s : State) (n k : Nat) : State :=
  if k = 0 then s
  else
    let ses := s.ses n
    s.setSes n { ses with sat := BitVec.ofNat 64 (min (ses.sat.toNat + k) (2 ^ 64 - 1)) }

/-- The sticky flags of the exception summary: INVALID in bit 0, OVERFLOW in bit 1, NAN_IN in bit 2 (R159, R340). -/
def State.excFlags (s : State) (n : Nat) (e : FpEvents) : State :=
  let ses := s.ses n
  let v := BitVec.ofNat 3 (b2n (e.kind != 0) + 2 * b2n e.overflow + 4 * b2n e.nanIn)
  if v = 0 then s else s.setSes n { ses with excFlags := ses.excFlags ||| v }

/-- The order of origin records: step, logical cluster, instruction index (R162). -/
def Origin.before (a b : Origin) : Bool :=
  decide (a.step.toNat < b.step.toNat) ||
    (a.step == b.step && (decide (a.lclus.toNat < b.lclus.toNat) || (a.lclus == b.lclus && decide (a.instr < b.instr))))

/-- A record put into the summary in order. -/
def insertOrigin (o : Origin) : List Origin → List Origin
  | [] => [o]
  | x :: rest => if o.before x then o :: x :: rest else x :: insertOrigin o rest

/-- The one record of a pair of logical cluster and instruction keeps the lowest step and, within it, the lowest element, and
counts every origin (R160, R161). -/
def mergeOrigin (o : Origin) (os : List Origin) : List Origin :=
  match os.find? (fun x => x.lclus == o.lclus && x.instr == o.instr) with
  | none => insertOrigin o os
  | some x =>
    let lower := x.step == o.step && decide (o.element < x.element)
    let y := { x with element := if lower then o.element else x.element
                      punit := if lower then o.punit else x.punit
                      kind := if lower then o.kind else x.kind
                      count := BitVec.ofNat 32 (min (x.count.toNat + o.count.toNat) (2 ^ 32 - 1)) }
    os.map (fun z => if z.lclus = o.lclus ∧ z.instr = o.instr then y else z)

/-- Origins that an instruction of a cluster produced: (element, kind), entered in the session's summary (R160) with the unit of each element. -/
def State.addOrigins (s : State) (c : ClusterId) (n index opcode : Nat) (unit : Nat → Nat) (os : List (Nat × Nat)) : State :=
  os.foldl (fun s o =>
    let ses := s.ses n
    let r : Origin := { step := s.stepCopy c, element := o.1, instr := index, opcode := BitVec.ofNat 8 opcode,
                        punit := BitVec.ofNat 16 (punitOf c.die c.region c.slot (unit o.1)),
                        lclus := BitVec.ofNat 16 (s.lclusOfCluster c), kind := o.2, ordered := ses.ordered, count := 1 }
    s.setSes n { ses with origins := mergeOrigin r ses.origins }) s

/-- The stream parameters a session works with: the encoder's own, or those of the latest stream unit of a decoder. -/
def Session.params (x : Session) : StreamParams :=
  match x.kind with
  | .decode => x.dec.stream.getD {}
  | _ => x.enc.params

/-- scale(g) of R68, from the history of the group. -/
def scaleOf (p : StreamParams) (h : List Nat) : Nat :=
  if h.isEmpty then p.sInit
  else
    let w := h.foldl max 0
    min (max (w + (w + 3) / 4) p.sMin) 0x7F_FFFF

/-- S_t of a group: the scale of the open picture, by the pictures that closed before it. -/
def Session.scale (x : Session) (g : Nat) : Nat := scaleOf x.params (Sparse.get (fun _ => []) x.histAtJob g)

/-- The scale of the picture that follows the open one, as far as its statistic is known (R70). -/
def Session.nextScale (x : Session) (g : Nat) : Nat := scaleOf x.params (Sparse.get (fun _ => []) x.hist g)

/-- The code of y under scale S, and whether it was clamped (R65); S is above 0. -/
def quantise (y : Int) (scale : Nat) : Int × Bool :=
  let a := y.natAbs
  let q := (2 * a * 127 + scale) / (2 * scale)
  (y.sign * (min q 127 : Nat), decide (127 < q))

/-- The reconstruction of a code (R66). -/
def reconstruct (q : Int) (scale : Nat) : Int := q.sign * ((2 * q.natAbs * scale + 127) / 254 : Nat)

/-- The history of a group with the statistic m of the open picture behind the pictures closed before it, at most K entries (R67, R68). -/
def Session.withStat (x : Session) (g : Nat) : List Nat :=
  let m := (reconstruct (Sparse.get (fun _ => 0) x.qMax g : Nat) (x.scale g)).natAbs
  let h := Sparse.get (fun _ => []) x.histAtJob g ++ [m]
  h.drop (h.length - x.params.window)

/-- The largest |q| of some groups taken into the open picture's statistic: a group's codes may lie in several tensors and clusters, and m_t
is over all of them (R67). -/
def closeScales (x : Session) (groups : List (Nat × Nat)) : Session :=
  groups.foldl (fun x g =>
    let x := { x with qMax := Sparse.put (fun _ => 0) x.qMax g.1 (max g.2 (Sparse.get (fun _ => 0) x.qMax g.1)) }
    { x with hist := Sparse.put (fun _ => []) x.hist g.1 (x.withStat g.1) }) x

/-- The statistic of a picture with capped tiles is over its final codes, those of R130 among them (R67). -/
def Session.finalStat (x : Session) (capped : Nat) (slices : List Slice) : Session :=
  if capped = 0 then x else closeScales { x with qMax := [] } (slices.flatMap (·.maxima))

/-- The open picture has closed: its statistics are those of an earlier picture from now on (R69). -/
def Session.closeHist (x : Session) : Session := { x with histAtJob := x.hist, qMax := [], stats := [] }

/-- The open picture leaves no entry (R69). -/
def Session.dropHist (x : Session) : Session := { x with hist := x.histAtJob, qMax := [], stats := [] }

/-- A refresh point empties the history of every group (R69, R74). -/
def Session.emptyHist (x : Session) : Session := { x with hist := [], histAtJob := [], qMax := [], stats := [] }

end Sys2Proof.Machine
end

