-- ==== Sys2Proof/Machine/Coder.lean ====
section
/-!
DEFINITION. The range coder of a lane (R82 to R85) and the probabilities it codes with (R88 to R92): what entropy units and the
finish unit's CDF instruction share.
-/

namespace Sys2Proof.Machine

/-! ### Probabilities -/

/-- The logistic table T of R89. -/
def logistic : List Nat :=
  [32768, 34813, 36843, 38841, 40793, 42687, 44511, 46254, 47911, 49474, 50941, 52310, 53581, 54754, 55834, 56822]
  ++ [57724, 58544, 59287, 59959, 60565, 61109, 61598, 62036, 62428, 62778, 63090, 63368, 63615, 63835, 64030, 64203]
  ++ [64357, 64494, 64614, 64721, 64816, 64900, 64974, 65039, 65097, 65149, 65194, 65234, 65269, 65300, 65328, 65352]
  ++ [65374, 65393, 65410, 65425, 65438, 65449, 65459, 65468, 65476, 65483, 65489, 65495, 65500, 65504, 65508, 65511]

/-- G of R90, for X in 1/2048 of the argument. -/
def cdfG (x : Nat) : Nat :=
  let i := x / 256
  let f := x % 256
  if 64 ≤ i then 65536
  else
    let t := logistic.getD i 0
    let hi := if i = 63 then 65536 else logistic.getD (i + 1) 0
    t + ((hi - t) * f + 128) / 256

/-- F of R90, for d and sigma in sixteenths of a code step. -/
def cdfF (d : Int) (sigma : Nat) : Nat :=
  let x := (2 * d.natAbs * 2048 + sigma) / (2 * sigma)
  if 0 ≤ d then cdfG x else 65536 - cdfG x

/-- c(k, mu, sigma) of R90. -/
def latentCdf (mu : Int) (sigma k : Nat) : Nat :=
  if k = 0 then 0
  else if 255 ≤ k then 65536
  else cdfF (16 * k - 2040 - mu) sigma * 65281 / 65536 + k

/-- The mean and scale after the clamp of R88, and how many of the two it changed. -/
def clampMuSigma (mu : Int) (sigma : Nat) : Int × Nat × Nat :=
  let m := clampI (-2040) 2040 mu
  (m.1, max sigma 8, b2n m.2 + b2n (decide (sigma < 8)))

/-! ### A lane -/

/-- The registers of a lane context (R106): low, or a decoder's code, range, cache, carry, started, pending, and position. -/
structure Lane where
  low     : Nat := 0
  range   : Nat := 0xFFFF_FFFF
  cache   : Nat := 0
  carry   : Bool := false
  started : Bool := false
  pending : Nat := 0
  pos     : Nat := 0
  deriving DecidableEq, Repr

/-- shift_low of R82: the lane and the bytes it puts. -/
def Lane.shiftLow (x : Lane) : Lane × List Byte :=
  if x.low < 0xFF00_0000 ∨ x.carry then
    let c := b2n x.carry
    let out := (if x.started then [BitVec.ofNat 8 (x.cache + c)] else []) ++ List.replicate x.pending (BitVec.ofNat 8 (0xFF + c))
    ({ x with pending := 0, cache := x.low / 2 ^ 24, started := true, low := x.low % 2 ^ 24 * 256, carry := false }, out)
  else ({ x with pending := x.pending + 1, low := x.low % 2 ^ 24 * 256, carry := false }, [])

/-- The renormalisation of R82: at most two shifts follow a symbol. -/
def Lane.renorm : Nat → Lane → Lane × List Byte
  | 0, x => (x, [])
  | fuel + 1, x =>
    if x.range < 0x100_0000 then
      let a := x.shiftLow
      let b := Lane.renorm fuel { a.1 with range := x.range * 256 }
      (b.1, a.2 ++ b.2)
    else (x, [])

/-- encode of R82. -/
def Lane.encode (x : Lane) (cLo f : Nat) : Lane × List Byte :=
  let r := x.range / 65536
  let t := x.low + r * cLo
  Lane.renorm 4 { x with carry := x.carry || decide (2 ^ 32 ≤ t), low := t % 2 ^ 32, range := r * f }

/-- flush of R83 without the removal of trailing zeros. -/
def Lane.flush (x : Lane) : Lane × List Byte :=
  let a := (List.range 4).foldl (fun (a : Lane × List Byte) _ => let b := a.1.shiftLow; (b.1, a.2 ++ b.2)) (x, [])
  (a.1, a.2 ++ (if a.1.started then [BitVec.ofNat 8 a.1.cache] else []) ++ List.replicate a.1.pending 0xFF)

/-- A lane's bytes without the 0x00 bytes at their end (R83). -/
def trimZeros (bs : List Byte) : List Byte := (bs.reverse.dropWhile (fun b => b == 0)).reverse

/-- next_byte of R85, from the lane's bytes: 0x00 after the last. -/
def Lane.next (x : Lane) (byteAt : Nat → Byte) : Lane × Nat := ({ x with pos := x.pos + 1 }, (byteAt x.pos).toNat)

/-- init of R85. -/
def Lane.startDecode (x : Lane) (byteAt : Nat → Byte) : Lane :=
  (List.range 4).foldl (fun (x : Lane) _ => let a := x.next byteAt; { a.1 with low := x.low * 256 + a.2 })
    { x with low := 0, range := 0xFFFF_FFFF, pos := 0 }

/-- The renormalisation of R85. -/
def Lane.renormDecode (byteAt : Nat → Byte) : Nat → Lane → Lane
  | 0, x => x
  | fuel + 1, x =>
    if x.range < 0x100_0000 then
      let a := x.next byteAt
      Lane.renormDecode byteAt fuel { a.1 with low := (x.low * 256 + a.2) % 2 ^ 32, range := x.range * 256 }
    else x

/-- The largest k below n with c k at most v: the search of R92, from the highest bit down. -/
def searchCdf (c : Nat → Nat) (n v : Nat) : Nat :=
  [128, 64, 32, 16, 8, 4, 2, 1].foldl (fun k b => if k + b < n ∧ c (k + b) ≤ v then k + b else k) 0

/-- decode of R85 for an alphabet of n symbols: the lane, the symbol's index, and whether v was clamped. -/
def Lane.decode (x : Lane) (byteAt : Nat → Byte) (c : Nat → Nat) (n : Nat) : Lane × Nat × Bool :=
  let r := x.range / 65536
  let v := x.low / r
  let k := searchCdf c n (min v 65535)
  (Lane.renormDecode byteAt 4 { x with low := x.low - r * c k, range := r * (c (k + 1) - c k) }, k, decide (65535 < v))

end Sys2Proof.Machine
end

