-- ==== Sys2Proof/Machine/Wsf.lean ====
section
/-!
DEFINITION. The Wagrarum stream format: pictures and their planes (R44 to R53), units and their payloads (R108 to R116), how a
decoder splits bytes into units (R124), the checks of stream parameters (R45, R55 to R59, R112, R126) and rate control (R128, R129).
-/

namespace Sys2Proof.Machine

/-! ### Pictures (R44, R45, R51 to R57) -/

/-- A quotient rounded up. -/
def ceilDiv (a b : Nat) : Nat := (a + b - 1) / b

/-- FORMAT is a code of its MEDIA (R111). -/
def goodFormat (media format : Nat) : Bool :=
  (media == 0 && decide (format ≤ 4)) || (media == 1 && (format == 8 || format == 9))

/-- Bytes of a sample's container (R44, R55). -/
def sampleBytes (format : Nat) : Nat :=
  match format with
  | 0 | 2 => 1
  | 9 => 4
  | _ => 2

/-- The planes of a picture, as width in samples and rows; an audio frame is one row of S × C interleaved samples (R44, R55). -/
def planesOf (p : StreamParams) : List (Nat × Nat) :=
  if p.media = 1 then [(p.width * p.height, 1)]
  else
    match p.format with
    | 0 | 1 => [(p.width, p.height), (p.width / 2, p.height / 2), (p.width / 2, p.height / 2)]
    | 2 | 3 => [(p.width, p.height), (p.width, p.height), (p.width, p.height)]
    | _ => [(p.width, p.height)]

/-- The latent grid: columns and rows (R51, R57); it has no position beyond them (R52). -/
def latentCols (p : StreamParams) : Nat := ceilDiv p.width 16
def latentRows (p : StreamParams) : Nat := if p.media = 1 then p.height else ceilDiv p.height 16

/-- The coding-tile grid, which is the grid of side latents too: columns and rows (R51, R567); an audio frame has one row per channel (R57). -/
def tileCols (p : StreamParams) : Nat := if p.media = 1 then ceilDiv (latentCols p) 4 else ceilDiv p.width 64
def tileRows (p : StreamParams) : Nat := if p.media = 1 then p.height else ceilDiv p.height 64

/-- The slices of a picture (R53): ⌈T/N⌉, and 1 for audio (R57). -/
def sliceCount (p : StreamParams) : Nat := if p.media = 1 then 1 else ceilDiv (tileRows p) (max 1 p.sliceRows)

/-- The coding tiles of slice i (R53). -/
def sliceTiles (p : StreamParams) (i : Nat) : Nat :=
  if p.media = 1 then tileCols p * tileRows p else tileCols p * min p.sliceRows (tileRows p - i * p.sliceRows)

/-- The buffers of an input or output picture that R46 accepts. -/
def layoutOk (p : StreamParams) (bs : List Buffer) : Bool :=
  let ps := planesOf p
  let k := sampleBytes p.format
  bs.length == ps.length && (bs.zip ps).all (fun x =>
    x.1.addr % 64 == 0 && x.1.pitch % 64 == 0 && decide (x.2.1 * k ≤ x.1.pitch)
      && decide ((x.2.2 - 1) * x.1.pitch + x.2.1 * k ≤ x.1.len))

/-- The layout of an audio submission, which names one entry of its length; its pitch and address follow the same rule (R46). -/
def audioLayoutOk (p : StreamParams) (bs : List Buffer) : Bool :=
  match bs with
  | [b] =>
    let row := p.width * p.height * sampleBytes p.format
    b.addr % 64 == 0 && b.pitch % 64 == 0 && decide (row ≤ b.pitch) && decide (row ≤ b.len)
  | _ => false

/-- The layout of a picture or frame. -/
def pictureLayoutOk (p : StreamParams) (bs : List Buffer) : Bool :=
  if p.media = 1 then audioLayoutOk p bs else layoutOk p bs

/-- A sample's container with the ignored bits taken as 0 (R47, R55, R320). -/
def maskSample (format : Nat) (b : List Byte) : List Byte :=
  match format, b with
  | 1, [x, y] => [x, y &&& 3]
  | 3, [x, y] => [x, y &&& 3]
  | 9, [x, y, z, _] => [x, y, z, 0]
  | _, b => b

/-- The bytes of a row of samples as R320 takes them. -/
def maskRow (format : Nat) (row : List Byte) : List Byte :=
  ((chunksOf row.length (sampleBytes format) row).map (maskSample format)).flatten

/-! ### Units (R108, R109) -/

/-! TYPE of a unit. -/
namespace Wu
abbrev stream : Nat := 1
abbrev picture : Nat := 2
abbrev slice : Nat := 3
abbrev close : Nat := 4
abbrev dropped : Nat := 5
end Wu

/-- The largest LENGTH (R108). -/
def maxLength : Nat := 134_217_764

/-- A whole unit: header, payload, CRC. -/
def wsfUnit (type stream : Nat) (payload : List Byte) : List Byte :=
  let body := natBe 2 0x5753 ++ natBe 1 type ++ natBe 1 1 ++ natBe 2 stream ++ natBe 2 0 ++ natBe 4 payload.length ++ payload
  body ++ natBe 4 (crc32 body).toNat

/-- What stands at the front of stream bytes: too few bytes to say, no unit, or a unit. -/
inductive Front where
  | short
  | bad
  | unit (type version : Nat) (payload raw : List Byte)
  deriving DecidableEq, Repr

/-- The front of stream bytes (R108, R109, R124). -/
def frontOf (bs : List Byte) : Front :=
  if bs.length < 2 then (if bs.isEmpty || bs == [0x57] then .short else .bad)
  else if beAt bs 0 2 ≠ 0x5753 then .bad
  else if bs.length < 12 then .short
  else
    let n := beAt bs 8 4
    if maxLength < n then .bad
    else if bs.length < 16 + n then .short
    else if (crc32 (bs.take (12 + n))).toNat ≠ beAt bs (12 + n) 4 then .bad
    else .unit (beAt bs 2 1) (beAt bs 3 1) ((bs.drop 12).take n) (bs.take (16 + n))

/-- The bytes from the next SYNC that begins a unit with a good CRC, or that may yet (R124). -/
def scanForward : List Byte → List Byte
  | [] => []
  | b :: rest =>
    match frontOf (b :: rest) with
    | .bad => scanForward rest
    | _ => b :: rest

/-! ### Payloads (R111, R113 to R116) -/

/-- The 96 bytes of a stream unit's payload; RATE and FRAME_MS are 0 for video. -/
def streamPayload (p : StreamParams) : List Byte :=
  natBe 1 p.media ++ natBe 1 p.format ++ natBe 2 p.width ++ natBe 2 p.height ++ natBe 1 p.sliceRows ++ natBe 1 p.window
    ++ natBe 1 p.group ++ natBe 1 p.refs ++ natBe 1 p.slope ++ natBe 1 p.q ++ natBe 2 p.latentC ++ natBe 2 p.sideC
    ++ natBe 4 p.sInit ++ natBe 4 p.sMin ++ natBe 4 (if p.media = 1 then p.rate else 0)
    ++ natBe 1 (if p.media = 1 then p.frameMs else 0)
    ++ natBe 1 (b2n p.emission + 2 * b2n p.audit + 4 * b2n p.periodic) ++ natBe 2 0 ++ natBe 4 p.capPic ++ natBe 4 p.capPer
    ++ natBe 2 p.periodPics ++ natBe 2 (if p.periodic then p.refresh else 0) ++ natBe 4 p.picBase
    ++ sliceB p.codecDigest 0 32 ++ natBe 16 0

/-- The parameters that a stream unit's payload carries; reserved bits are ignored (R110). -/
def parseStream (b : List Byte) : StreamParams :=
  let f := beAt b 29 1
  { media := beAt b 0 1, format := beAt b 1 1, width := beAt b 2 2, height := beAt b 4 2, sliceRows := beAt b 6 1,
    window := beAt b 7 1, group := beAt b 8 1, refs := beAt b 9 1, slope := beAt b 10 1, q := beAt b 11 1,
    latentC := beAt b 12 2, sideC := beAt b 14 2, sInit := beAt b 16 4 % 2 ^ 23, sMin := beAt b 20 4 % 2 ^ 23,
    rate := beAt b 24 4, frameMs := beAt b 28 1, emission := bitN f 0, audit := bitN f 1, periodic := bitN f 2,
    capPic := beAt b 32 4, capPer := beAt b 36 4, periodPics := beAt b 40 2, refresh := beAt b 42 2, picBase := beAt b 44 4,
    codecDigest := sliceB b 48 32 }

/-- LANE_LEN and LANES of a picture or slice unit. -/
def lanesField (lanes : List (List Byte)) : List Byte :=
  ((List.range 8).flatMap (fun i => natBe 4 (lanes.getD i []).length)) ++ lanes.flatten

/-- The lanes that a picture or slice unit's payload carries behind the LANE_LEN fields at an offset. -/
def lanesOfField (b : List Byte) (off : Nat) : List (List Byte) :=
  ((List.range 8).foldl (fun (a : List (List Byte) × Nat) i =>
    let n := beAt b (off + 4 * i) 4 % 2 ^ 24
    (a.1 ++ [(b.drop a.2).take n], a.2 + n)) ([], off + 32)).1

/-- The sum of the lane lengths at an offset; reserved bits are ignored. -/
def laneSum (b : List Byte) (off : Nat) : Nat := ((List.range 8).map (fun i => beAt b (off + 4 * i) 4 % 2 ^ 24)).sum

/-- A picture unit's payload (R113). -/
def picturePayload (pic : W32) (noref forced requested : Bool) (slices : Nat) (lanes : List (List Byte)) : List Byte :=
  natBe 4 pic.toNat ++ natBe 1 (b2n noref + 2 * b2n forced + 4 * b2n requested) ++ natBe 1 0 ++ natBe 2 slices ++ lanesField lanes

/-- A slice unit's payload (R114). -/
def slicePayload (pic : W32) (slice edition : Nat) (capped : Bool) (first count : Nat) (lanes : List (List Byte)) : List Byte :=
  natBe 4 pic.toNat ++ natBe 2 slice ++ natBe 1 edition ++ natBe 1 (b2n capped) ++ natBe 2 first ++ natBe 2 count ++ lanesField lanes

/-- A number rounded up to a multiple of 4. -/
def pad4 (n : Nat) : Nat := (n + 3) / 4 * 4

/-- A close unit's payload (R115). -/
def closePayload (pic : W32) (slices : Nat) (step : W64) (sat capped : Nat) (editions : List Nat) (digest : Option (List Byte)) : List Byte :=
  natBe 4 pic.toNat ++ natBe 2 slices ++ natBe 2 0 ++ natBe 8 step.toNat ++ natBe 4 (min sat 0xFFFF_FFFF) ++ natBe 4 capped
    ++ sliceB (editions.flatMap (natBe 1)) 0 (pad4 slices) ++ (match digest with | some d => sliceB d 0 32 | none => [])

/-- A dropped-picture unit's payload (R116). -/
def droppedPayload (pic : W32) (reason : Nat) : List Byte := natBe 4 pic.toNat ++ natBe 1 reason ++ natBe 3 0

/-- The length that a payload's own fields give (R124); audit: the latest stream unit has AUDIT 1. -/
def lengthOf (type : Nat) (b : List Byte) (audit : Bool) : Nat :=
  match type with
  | 1 => 96
  | 2 => 40 + laneSum b 8
  | 3 => 44 + laneSum b 12
  | 4 => 24 + pad4 (beAt b 4 2) + (if audit then 32 else 0)
  | _ => 8

/-! ### Checks of the parameters -/

/-- Fields that an image must share (R112, R337). -/
def sizeListed (c : CodecBlock) (p : StreamParams) : Bool := c.sizes.contains (p.width, p.height)

/-- The sample rule of R56. -/
def goodSamples (p : StreamParams) : Bool := p.rate * p.frameMs % 1000 == 0 && p.rate * p.frameMs / 1000 == p.width

/-- The ranges of the fields that affect decoding (R112). -/
def rangesOk (p : StreamParams) : Bool :=
  goodFormat p.media p.format
    && (if p.media = 1 then p.sliceRows == 1 else decide (1 ≤ p.sliceRows ∧ p.sliceRows ≤ 8))
    && decide (1 ≤ p.window ∧ p.window ≤ 8)
    && (p.group == 8 || p.group == 16 || p.group == 32) && p.latentC % p.group == 0
    && decide (1 ≤ p.sMin ∧ p.sMin ≤ 8388607) && decide (p.sMin ≤ p.sInit ∧ p.sInit ≤ 8388607)
    && (p.media == 0 || (decide (8000 ≤ p.rate ∧ p.rate ≤ 96000) && (p.frameMs == 10 || p.frameMs == 20) && goodSamples p))

/-- The check of a stream unit against a decoder's image: the status of its first failure (R112). -/
def checkStream (img : Image) (p : StreamParams) : Option Nat :=
  let c := img.codec
  if p.codecDigest ≠ sliceB img.codecDigest 0 32 then some St.wsfModelMismatch
  else if !rangesOk p then some St.badCodecParam
  else if p.format ≠ c.format ∨ p.latentC ≠ c.latentC ∨ p.sideC ≠ c.sideC ∨ p.slope ≠ c.slope ∨ p.refs ≠ c.refs
      ∨ sizeListed c p = false ∨ 64 ≤ p.q ∨ c.qmask.getLsbD p.q = false then some St.imageSizeMismatch
  else none

/-! ### Rate control (R128 to R130) -/

/-- The table L of R128. -/
def costTable : List Nat := [0, 1, 2, 3, 5, 6, 7, 8, 9, 10, 11, 12, 12, 13, 14, 15]

/-- The cost of a symbol of frequency f, in sixteenths of a bit (R128). -/
def cost16 (f : Nat) : Nat :=
  let e := Nat.log2 f
  256 - 16 * e - costTable.getD (f * 2 ^ (15 - e) / 2 ^ 11 % 16) 0

/-- The budget of a picture (R129), in sixteenths of a bit. -/
def budgetOf (p : StreamParams) (spent : Nat) : Nat := 16 * min p.capPic (p.capPer - spent)

/-- The code of a latent of a capped tile from its clamped mean, and whether it counts as a saturation (R130). -/
def cappedCode (mu : Int) : Int × Bool :=
  let m := (mu.natAbs + 8) / 16
  (mu.sign * (min m 127 : Nat), m == 128)

end Sys2Proof.Machine
end

