-- ==== Sys2Proof/Machine/Pictures.lean ====
section
/-!
DEFINITION. Samples and planes: the input conversion and padding of an encoder (R44, R48, R51, R55, R57), the output conversion of a decoder
(R47, R49, R52), the order of latents and side latents (R96, R567), the lanes and costs of a slice's latents (R82, R83, R129, R130), and the
synthesis that encoder and decoder share (R37, R60, R64).
-/

namespace Sys2Proof.Machine

/-! ### Samples (R44, R55) -/

/-- Offset o of the table of R44; 0 for audio (R57). -/
def sampleOffset (format : Nat) : Int :=
  match format with
  | 0 | 2 => 128
  | 1 | 3 => 512
  | 4 => 32768
  | _ => 0

/-- Bits per sample (R44, R55). -/
def sampleBits (format : Nat) : Nat :=
  match format with
  | 0 | 2 => 8
  | 1 | 3 => 10
  | 9 => 24
  | _ => 16

/-- The smallest and the largest sample: unsigned for video, signed for audio (R49, R57). -/
def sampleLow (format : Nat) : Int := if format < 8 then 0 else -2 ^ (sampleBits format - 1)
def sampleHigh (format : Nat) : Int := if format < 8 then 2 ^ sampleBits format - 1 else 2 ^ (sampleBits format - 1) - 1

/-- The sample v of a container. -/
def sampleValue (format : Nat) (b : List Byte) : Int :=
  let v := leAt (maskSample format b) 0 (sampleBytes format)
  if format < 8 then (v : Int) else signedN (sampleBits format) v

/-- Input conversion x = v − o (R48, R57). -/
def toInput (format : Nat) (b : List Byte) : Int := sampleValue format b - sampleOffset format

/-- Output conversion v = x + o, clamped, and whether the clamp changed it (R49). -/
def toOutput (format : Nat) (x : Int) : Int × Bool := clampI (sampleLow format) (sampleHigh format) (x + sampleOffset format)

/-- The container of an output sample: bits [15:10] of a 10-bit sample are 0 (R47), bits [31:24] of a 24-bit one its sign (R55). -/
def sampleContainer (format : Nat) (v : Int) : List Byte :=
  natLe (sampleBytes format) (v % 2 ^ (8 * sampleBytes format)).toNat

/-! ### Planes (R51, R57) -/

/-- Is the format one of 4:2:0? -/
def halved (format : Nat) : Bool := format == 0 || format == 1

/-- The planes that the networks take, as width and rows after padding: the latent grid times 16, half of it for a chroma plane of 4:2:0;
an audio frame has one plane with a row per channel. -/
def paddedPlanes (p : StreamParams) : List (Nat × Nat) :=
  let w := latentCols p * 16
  if p.media = 1 then [(w, latentRows p)]
  else
    let h := latentRows p * 16
    if halved p.format then [(w, h), (w / 2, h / 2), (w / 2, h / 2)] else (planesOf p).map (fun _ => (w, h))

/-- A row, and a plane, padded by repeating the edge. -/
def padRow (w : Nat) (r : List Int) : List Int := r ++ List.replicate (w - r.length) (r.getLastD 0)
def padPlane (size : Nat × Nat) (p : Plane) : Plane :=
  let rows := p.map (padRow size.1)
  rows ++ List.replicate (size.2 - rows.length) (rows.getLastD [])

/-- The converted samples of an input plane's bytes, rows of `w` samples. -/
def inputPlane (format w h : Nat) (bs : List Byte) : Plane :=
  let k := sampleBytes format
  (chunksOf h (w * k) bs).map (fun row => (chunksOf w k row).map (toInput format))

/-- The planes of some input bytes, one behind the other. -/
def inputPlanes (format : Nat) : List (Nat × Nat) → List Byte → List Plane
  | [], _ => []
  | (w, h) :: rest, bs => inputPlane format w h bs :: inputPlanes format rest (bs.drop (w * h * sampleBytes format))

/-- The rows of an interleaved frame: one per channel (R55, R57). -/
def channelRows (channels samples : Nat) (row : List Int) : Plane :=
  (List.range channels).map (fun c => (List.range samples).map (fun s => row.getD (s * channels + c) 0))

/-- Input conversion of a whole picture or frame, with the padding of R51 and R57. -/
def convertInput (p : StreamParams) (input : List Byte) : List Plane :=
  let ps := inputPlanes p.format (planesOf p) input
  let ps := if p.media = 1 then ps.map (fun x => channelRows p.height p.width (x.headD [])) else ps
  (ps.zip (paddedPlanes p)).map (fun x => padPlane x.2 x.1)

/-! ### Latents and side latents (R52, R53, R96, R567) -/

/-- The latent rows of slice i. -/
def sliceRowsOf (p : StreamParams) (i : Nat) : List Nat :=
  if p.media = 1 then List.range (latentRows p)
  else (List.range (latentRows p)).filter (fun y => decide (4 * (i * p.sliceRows) ≤ y ∧ y < 4 * ((i + 1) * p.sliceRows)))

/-- Does side position (x, y) cover latent position (u, v)? -/
def sideCovers (p : StreamParams) (x y u v : Nat) : Bool := x == u / 4 && y == (if p.media = 1 then v else v / 4)

/-- The symbols of a side segment in their order: side positions in raster order, and within a position its channels. -/
def sideSymbols (p : StreamParams) : List (Nat × Nat × Nat) :=
  (List.range (tileRows p)).flatMap (fun y => (List.range (tileCols p)).flatMap (fun x => (List.range p.sideC).map (fun c => (x, y, c))))

/-- The symbols of slice i in the order of R96, as column, row and channel. -/
def sliceSymbols (p : StreamParams) (i : Nat) : List (Nat × Nat × Nat) :=
  let rows := sliceRowsOf p i
  let quarter := p.latentC / 4
  (List.range (latentCols p + p.slope * latentRows p)).flatMap (fun d =>
    let ys := rows.filter (fun y => decide (p.slope * y ≤ d ∧ d - p.slope * y < latentCols p))
    (List.range 4).flatMap (fun g => ys.flatMap (fun y => (List.range quarter).map (fun c => (d - p.slope * y, y, g * quarter + c)))))

/-- The coding tile of a latent position in the raster order of its slice (R129). -/
def tileIn (p : StreamParams) (i x y : Nat) : Nat :=
  (if p.media = 1 then y else y / 4 - i * p.sliceRows) * tileCols p + x / 4

/-! ### Costs and codes of a slice's latents (R128 to R130) -/

/-- The frequency and cumulative frequency of a code under a mean and a scale, after the clamps of R88. -/
def codeFreq (code : Int) (mu sigma : BitVec 16) : Nat × Nat :=
  let m := clampMuSigma mu.toInt sigma.toNat
  let k := (code + 127).toNat
  (latentCdf m.1 m.2.1 k, latentCdf m.1 m.2.1 (k + 1) - latentCdf m.1 m.2.1 k)

/-- The cost of a latent with the code the quantiser produced (R129). -/
def latentCost (x : LatentSym) : Nat := cost16 (codeFreq x.code.toInt x.mu x.sigma).2

/-- The costs of the coding tiles of slice i, in raster order. -/
def tileCosts (p : StreamParams) (i : Nat) (ls : List LatentSym) : List Nat :=
  let cs := ((sliceSymbols p i).zip ls).map (fun x => (tileIn p i x.1.1 x.1.2.1, latentCost x.2))
  (List.range (sliceTiles p i)).map (fun t => ((cs.filter (fun c => c.1 == t)).map (·.2)).sum)

/-- The first tile that a scan of R129 marks, by its place among tiles of some costs; their number when there is none. -/
def firstCapped (budget used : Nat) : List Nat → Nat
  | [] => 0
  | c :: rest => if budget < used + c then 0 else 1 + firstCapped budget (used + c) rest

/-- The mean that a capped latent's code comes from. -/
def capMean (x : LatentSym) : Int := (clampMuSigma x.capMu.toInt x.capSigma.toNat).1

/-- The code of a latent of slice i, capped from tile `first` on: the code, its mean and its scale. -/
def finalCode (p : StreamParams) (i first : Nat) (sym : Nat × Nat × Nat) (x : LatentSym) : Int × BitVec 16 × BitVec 16 :=
  if first ≤ tileIn p i sym.1 sym.2.1 then ((cappedCode (capMean x)).1, x.capMu, x.capSigma) else (x.code.toInt, x.mu, x.sigma)

/-- The largest |q| of the final codes of slice i by scale group, in ascending group (R67, R130). -/
def sliceMaxima (p : StreamParams) (i first : Nat) (ls : List LatentSym) : Sparse Nat :=
  ((sliceSymbols p i).zip ls).foldl (fun t x =>
    let g := x.1.2.2 / max 1 p.group
    Sparse.put (fun _ => 0) t g (max (finalCode p i first x.1 x.2).1.natAbs (Sparse.get (fun _ => 0) t g))) []

/-- Latents of capped tiles whose |q| would be 128 (R130). -/
def cappedSats (p : StreamParams) (i first : Nat) (ls : List LatentSym) : Nat :=
  (((sliceSymbols p i).zip ls).filter (fun x => decide (first ≤ tileIn p i x.1.1 x.1.2.1) && (cappedCode (capMean x.2)).2)).length

/-- A lane's bytes for its symbols, as (c_lo, f): the coder of R82 and the flush of R83; none for a lane without symbols. -/
def laneOfSymbols (fs : List (Nat × Nat)) : List Byte :=
  if fs.isEmpty then []
  else
    let r := fs.foldl (fun (a : Lane × List Byte) f => let e := a.1.encode f.1 f.2; (e.1, a.2 ++ e.2)) ({}, [])
    trimZeros (r.2 ++ r.1.flush.2)

/-- The lanes of a slice with capped tiles: its symbols in the order of R96, symbol j in lane j mod 8 (R81), each coded with its CDF (R130). -/
def cappedLanes (p : StreamParams) (i first : Nat) (ls : List LatentSym) : List (List Byte) :=
  let fs := ((sliceSymbols p i).zip ls).map (fun x => let c := finalCode p i first x.1 x.2; codeFreq c.1 c.2.1 c.2.2)
  (List.range 8).map (fun l => laneOfSymbols ((fs.zipIdx.filter (fun x => x.2 % 8 == l)).map (·.1)))

/-! ### Synthesis (R37, R54, R60, R64) -/

/-- The scales of the open picture's groups. -/
def Session.scales (x : Session) : List Nat := (List.range (x.params.latentC / max 1 x.params.group)).map x.scale

/-- The element at a row and column of a plane of x̂: the one function that the encoder's reference loop and the decoder run, from the lanes
of the side segment and of the slices, and from the references that the picture reads. -/
def Session.synth (x : Session) (q : Nat) (side : List (List Byte)) (slices : List (List (List Byte))) (reads : List Reference)
    (plane row col : Nat) : Int :=
  (Config.synthesis (sliceB x.image.codecDigest 0 32) q x.scales side slices (reads.map (·.planes)) (plane, row, col)).toInt

/-- The rows of a plane that a slice holds: the first, and how many a whole slice has (R53, R57). -/
def sliceHeight (p : StreamParams) (plane : Nat) : Nat :=
  if p.media = 1 then max 1 p.height
  else if halved p.format && plane != 0 then 32 * max 1 p.sliceRows else 64 * max 1 p.sliceRows

/-- A plane of x̂ over a width and some rows: a slice's rows come from it and the slices before it (R54). -/
def Session.synthPlane (x : Session) (q : Nat) (side : List (List Byte)) (slices : List (List (List Byte))) (reads : List Reference)
    (plane w : Nat) (rows : List Nat) : Plane :=
  rows.map (fun r => (List.range w).map (x.synth q side (slices.take (r / sliceHeight x.params plane + 1)) reads plane r))

/-- x̂ of a whole picture, as the reference store holds it (R64). -/
def Session.synthPicture (x : Session) (q : Nat) (side : List (List Byte)) (slices : List (List (List Byte))) (reads : List Reference) : List Plane :=
  (paddedPlanes x.params).zipIdx.map (fun s => x.synthPlane q side slices reads s.2 s.1.1 (List.range s.1.2))

/-! ### Pictures of a decoder -/

/-- The slice with an index among those held. -/
def heldSlice (p : DecPicture) (i : Nat) : Option Slice := p.held.find? (fun x => x.index == i)

/-- Was the segment of a slice damaged at the edition that is held (R86)? -/
def sliceDamaged (p : DecPicture) (i : Nat) : Bool :=
  match heldSlice p i with
  | some x => p.damaged.contains (i, x.edition)
  | none => false

/-- A slice that counts as received: held, its segment not damaged (R86). -/
def goodSlice (p : DecPicture) (i : Nat) : Option Slice := if sliceDamaged p i then none else heldSlice p i

/-- The lanes of the slices received without a gap: those that are decoded (R54, R86). -/
def heldLanes (p : DecPicture) : List (List (List Byte)) :=
  (((List.range p.slices).map (goodSlice p)).takeWhile (·.isSome)).map (fun x => match x with | some s => s.lanes | none => [])

/-- A segment of the picture was damaged and no higher edition has come for it (R86). -/
def isDamaged (p : DecPicture) : Bool :=
  p.lost || p.damaged.any (fun d => sliceDamaged p d.1)

/-- The output samples of some rows of a plane, and how many the clamp changed: W × H samples and no padding (R49, R52); an audio row
interleaves its channels (R55). -/
def Session.outputRow (x : Session) (d : DecPicture) (plane w row : Nat) : List (Int × Bool) :=
  let p := x.params
  let es :=
    if p.media = 1 then
      let rows := x.synthPlane d.q d.side (heldLanes d) d.reads 0 p.width (List.range p.height)
      (List.range p.width).flatMap (fun s => rows.map (fun r => r.getD s 0))
    else (x.synthPlane d.q d.side (heldLanes d) d.reads plane w [row]).headD []
  es.map (toOutput p.format)

/-- The rows of a plane of h rows that slice i decodes. -/
def outputRows (p : StreamParams) (plane i h : Nat) : List Nat :=
  let n := sliceHeight p plane
  (List.range h).filter (fun r => r / n == i)

end Sys2Proof.Machine
end

