-- ==== Sys2Proof/Machine/Descriptors.lean ====
section
/-!
DEFINITION. Fetch descriptors: their layout (R259), the counts, rows and addresses they describe (R260 to R262), and the checks of
R264.
-/

namespace Sys2Proof.Machine

/-- A fetch descriptor (R259). -/
structure Desc where
  src         : Nat
  dst         : Nat
  srcKind     : Nat
  dstKind     : Nat
  srcLoc      : Nat
  dstLoc      : Nat
  queue       : Nat
  ndim        : Nat
  counts      : List Nat
  srcStrides  : List Int
  dstStrides  : List Int
  readySem    : Nat
  readyDie    : Nat
  flags       : Nat
  freeSem     : Nat
  doneSem     : Nat
  outstanding : Nat
  tagBase     : Nat
  ring        : Nat
  deriving DecidableEq, Repr

/-- Signed 4-byte numbers at four consecutive places. -/
def strides (b : List Byte) (off : Nat) : List Int := (List.range 4).map (fun k => signedN 32 (leAt b (off + 4 * k) 4))

def parseDesc (b : List Byte) : Desc :=
  let ndim := leAt b 23 1
  { src := leAt b 0 8, dst := leAt b 8 8, srcKind := leAt b 16 1, dstKind := leAt b 17 1, srcLoc := leAt b 18 2,
    dstLoc := leAt b 20 2, queue := leAt b 22 1, ndim := ndim,
    counts := leAt b 24 4 :: (List.range 4).map (fun k => if k + 1 < ndim then leAt b (28 + 2 * k) 2 else 1),
    srcStrides := strides b 40, dstStrides := strides b 56, readySem := leAt b 72 2, readyDie := leAt b 74 1,
    flags := leAt b 75 1, freeSem := leAt b 76 2, doneSem := leAt b 78 2, outstanding := leAt b 80 1, tagBase := leAt b 82 2,
    ring := leAt b 84 2 }

def Desc.count (d : Desc) (k : Nat) : Nat := d.counts.getD k 1
def Desc.srcStride (d : Desc) (k : Nat) : Int := d.srcStrides.getD (k - 1) 0
def Desc.dstStride (d : Desc) (k : Nat) : Int := d.dstStrides.getD (k - 1) 0
def Desc.postMode (d : Desc) : Bool := bitN d.flags 0
def Desc.creditEn (d : Desc) : Bool := bitN d.flags 1
def Desc.tagEn (d : Desc) : Bool := bitN d.flags 2
def Desc.doneEn (d : Desc) : Bool := bitN d.flags 3
def Desc.readyEn (d : Desc) : Bool := bitN d.flags 4

/-- A count of 0 in a dimension in use: nothing is moved (R279). -/
def Desc.empty (d : Desc) : Bool := d.counts.any (fun n => n == 0)

/-- Delivery rows (R261), and the indices of one of them. -/
def Desc.rows (d : Desc) : Nat := d.count 2 * d.count 3 * d.count 4
def Desc.i2 (d : Desc) (row : Nat) : Nat := row % max 1 (d.count 2)
def Desc.i3 (d : Desc) (row : Nat) : Nat := row / max 1 (d.count 2) % max 1 (d.count 3)
def Desc.i4 (d : Desc) (row : Nat) : Nat := row / max 1 (d.count 2 * d.count 3)

/-- R_l, the lines of a row in a ring (R262). -/
def Desc.lines (d : Desc) : Nat :=
  if d.count 0 = 0 ∨ d.count 1 = 0 then 0 else ((((d.count 1 : Int) - 1) * d.dstStride 1 + d.count 0 + 63) / 64).toNat

/-- The source address of byte i0 of run i1 of a row (R260). -/
def Desc.srcAt (d : Desc) (row i1 i0 : Nat) : Int :=
  d.src + i0 + i1 * d.srcStride 1 + d.i2 row * d.srcStride 2 + d.i3 row * d.srcStride 3 + d.i4 row * d.srcStride 4

/-- The destination address of byte i0 of run i1 of a row whose ring line is p (R260, R262). -/
def Desc.dstAt (d : Desc) (row p i1 i0 : Nat) : Int :=
  if d.ring = 0 then
    d.dst + i0 + i1 * d.dstStride 1 + d.i2 row * d.dstStride 2 + d.i3 row * d.dstStride 3 + d.i4 row * d.dstStride 4
  else d.dst + (64 * p + i0 + i1 * d.dstStride 1) % (64 * d.ring : Nat)

/-- Bytes from a place of a ring to its end; a linear destination has no end. -/
def Desc.toWrap (d : Desc) (p i1 i0 : Nat) : Nat :=
  if d.ring = 0 then 1024 else 64 * d.ring - ((64 * p + i0 + i1 * d.dstStride 1) % (64 * d.ring : Nat)).toNat

/-- The lowest address and the end of what a side touches. -/
def extent (base : Nat) (d : Desc) (stride : Nat → Int) : Int × Int :=
  [1, 2, 3, 4].foldl (fun e k =>
    let span := ((d.count k : Int) - 1) * stride k
    if span < 0 then (e.1 + span, e.2) else (e.1, e.2 + span)) ((base : Int), (base : Int) + d.count 0)

/-- The die of a DIEBUF location. -/
def locDie (own loc : Nat) : Nat := if loc % 32 = 31 then own else loc % 32

/-- A side that fails R264: the location must name a die of the session with a window, or a seated cluster of its regions, and the
range must lie inside the store or the window. -/
def badSide (own : Nat) (window : Nat → Option Nat) (reaches : Nat → Bool) (kind loc : Nat) (range : Int × Int) (empty : Bool) :
    Bool :=
  let beyond := fun (size : Nat) => !empty && (decide (range.1 < 0) || decide ((size : Int) < range.2))
  match kind with
  | 0 => loc != 0
  | 1 => loc != 0 || beyond storeSize
  | 2 => decide (32 ≤ loc) || decide (25 ≤ locDie own loc) ||
      (match window (locDie own loc) with | some len => beyond len | none => true)
  | _ => !reaches loc || beyond storeSize

/-- A reserved field or value of a descriptor that is not as R259 has it. -/
def badDescFields (b : List Byte) (d : Desc) : Bool :=
  decide (2 ^ 52 ≤ d.src) || decide (2 ^ 52 ≤ d.dst) || decide (4 ≤ d.srcKind) || decide (4 ≤ d.dstKind) || decide (64 ≤ d.queue)
    || decide (2 ^ 24 ≤ d.count 0) || leAt b 36 4 != 0 || decide (8192 ≤ d.readySem) || decide (32 ≤ d.readyDie)
    || (decide (25 ≤ d.readyDie) && d.readyDie != 31) || decide (32 ≤ d.flags) || decide (8192 ≤ d.freeSem)
    || decide (8192 ≤ d.doneSem) || leAt b 81 1 != 0 || (sliceB b 86 42).any (fun x => x != 0)

/-- A descriptor that R264 refuses, for an engine of die own: the window lengths of its session by die, and the logical clusters that
it may reach. -/
def badDesc (own : Nat) (window : Nat → Option Nat) (reaches : Nat → Bool) (b : List Byte) : Bool :=
  let d := parseDesc b
  d.ndim == 0 || decide (5 < d.ndim) || d.outstanding == 0 || decide (64 < d.outstanding) || badDescFields b d
    || badSide own window reaches d.srcKind d.srcLoc (extent d.src d d.srcStride) d.empty
    || badSide own window reaches d.dstKind d.dstLoc
        (if d.ring = 0 then extent d.dst d d.dstStride else (d.dst, d.dst + 64 * d.ring)) d.empty
    || (d.creditEn && d.ring == 0) || (d.ring != 0 && (d.dstKind == 0 || decide (d.ring < d.lines)
        || decide (d.dstStride 1 < d.count 0)))

end Sys2Proof.Machine
end

