-- ==== Sys2Proof/Machine/Tiles.lean ====
section
/-!
DEFINITION. Tile-steps (R215): how one begins and ends, when it is sampled (R446, R453, R462, R463), its result digest (R448), when it is
settled (R449), how its results are discarded, and the replay window (R450).
-/

namespace Sys2Proof.Machine

/-! ### What a tile-step has written and read -/

/-- A number put into a list that ascends. -/
def insertNat (k : Nat) : List Nat → List Nat
  | [] => [k]
  | q :: rest => if k ≤ q then k :: q :: rest else q :: insertNat k rest

/-- A piece put into a list that ascends by address (R448). -/
def insertPiece (p : Piece) : List Piece → List Piece
  | [] => [p]
  | q :: rest => if p.addr ≤ q.addr then p :: q :: rest else q :: insertPiece p rest

/-- The pieces in ascending address. -/
def sortPieces (ps : List Piece) : List Piece := ps.foldr insertPiece []

/-- The lines that some pieces touch, each once, ascending. -/
def pieceLines (ps : List Piece) : NatSet := ps.foldl (fun t p => (linesOf p.addr p.bytes.length).foldl NatSet.insert t) []

/-- Bytes of a line that the pieces write. -/
def coveredBytes (ps : List Piece) (line : Nat) : Nat :=
  (ps.map (fun p => min (p.addr + p.bytes.length) (line * 64 + 64) - max p.addr (line * 64))).sum

/-- Is some piece that touches a line poisoned? -/
def linePoison (ps : List Piece) (line : Nat) : Bool :=
  ps.any (fun p => p.poison && (linesOf p.addr p.bytes.length).contains line)

/-- What one instruction adds to a result digest: its bytes in ascending address, and then the poison bit of each line it has written
(notes/assumptions/15.md). -/
def pieceBytes (ps : List Piece) : List Byte :=
  (sortPieces ps).flatMap (·.bytes) ++ (pieceLines ps).map (fun l => BitVec.ofNat 8 (b2n (linePoison ps l)))

/-- The result digest of a tile-step (R448): the CRC-64 of R392 over what its V = 0 instructions have written, in ascending instruction index. -/
def Tile.digest (t : Tile) : W64 :=
  crc64 (((t.written.map (·.1)).eraseDups.foldr insertNat []).flatMap (fun i =>
    pieceBytes ((t.written.filter (fun w => w.1 == i)).map (·.2))))

/-- A tile-step with bytes that a replay has changed, where its inputs and its results hold them (R450, R451). -/
def Tile.patched (t : Tile) (inputs results : List (Nat × Byte)) : Tile :=
  let new := fun (r : List (Nat × Byte)) (a : Nat) (b : Byte) => match r.find? (fun p => p.1 == a) with | some p => p.2 | none => b
  { t with
    inputs := t.inputs.map (fun e => (e.1, new inputs e.1 e.2))
    written := t.written.map (fun w => (w.1, { w.2 with bytes := w.2.bytes.zipIdx.map (fun b => new results (w.2.addr + b.2) b.1) })) }

/-- The tile-steps that the bytes of a range come from. -/
def State.producers (s : State) (a n : Nat) : List Nat :=
  ((s.derived.filter (fun d => decide (d.addr < a + n) && decide (a < d.addr + d.len))).map (·.tile)).eraseDups

/-- A range holds results of some tile-steps from now on, and no longer what it has been written over. -/
def State.derive (s : State) (a n : Nat) (tiles : List Nat) : State :=
  { s with derived := s.derived.filter (fun d => !(decide (a ≤ d.addr) && decide (d.addr + d.len ≤ a + n)))
                        ++ tiles.map (fun t => { addr := a, len := n, tile := t }) }

/-! ### Settled tile-steps (R449) -/

/-- The tile-steps of a cluster that have begun, oldest first. -/
def Cluster.tiles (x : Cluster) : List Tile := x.window.reverse ++ (if x.tile.begun then [x.tile] else [])

/-- The tile-step of a number, on whichever cluster; none when no replay window holds it any more. -/
def State.tileAt (s : State) (id : Nat) : Option Tile := (s.clusters.flatMap (fun e => e.2.tiles)).find? (fun t => t.id == id)

/-- The first two conditions of R449: it has completed, no event of it is open, and it was not sampled or has been compared. -/
def Tile.isChecked (t : Tile) : Bool := t.ended && t.trap.isNone && (!t.sampled || t.compared)

/-- Are the tile-steps of some numbers, and those that they read from in turn, all checked? Those seen already are not looked at again, so that two
that read from each other are settled together. -/
def State.allChecked (s : State) : Nat → List Nat → List Nat → Bool
  | 0, _, _ => true
  | _, _, [] => true
  | fuel + 1, seen, id :: rest =>
    match s.tileAt id with
    | none => s.allChecked fuel (id :: seen) rest
    | some t => t.isChecked && s.allChecked fuel (id :: seen) (rest ++ t.sources.filter (fun k => !seen.contains k && !rest.contains k && k != id))

/-- A tile-step is settled (R449): it is checked, and so is every one whose results it read. -/
def State.settled (s : State) (t : Tile) : Bool := t.isChecked && s.allChecked 65536 [t.id] t.sources

/-- The ranges whose tile-steps are settled, or are in no replay window any more, are followed no longer. -/
def State.pruneDerived (s : State) : State :=
  { s with derived := s.derived.filter (fun d => match s.tileAt d.tile with | some t => !s.settled t | none => false) }

/-! ### The course of a tile-step -/

/-- The bytes of the cluster's store that are listed, as the replay window holds them (R450). -/
def State.storeBytes (s : State) (c : ClusterId) : List Host.Cell :=
  s.mem.filter (fun e => decide (c.store ≤ e.1) && decide (e.1 < c.store + storeSize))

/-- The poisoned lines of the cluster's store. -/
def State.storePoison (s : State) (c : ClusterId) : List Nat :=
  s.poison.filter (fun l => decide (c.store / 64 ≤ l) && decide (l < (c.store + storeSize) / 64))

/-- The tile-step that comes next on a cluster, with its number t (R446). -/
def State.newTile (s : State) (c : ClusterId) (number : Nat) : Tile :=
  { number := number, start := (s.cl c).issue, step := s.stepCopy c, session := s.rf c.base F.exeSession, log2 := s.rf die12 F.hltSample }

/-- The tile-step begins, as the engine comes to its first instruction: the replay window takes its inputs (R450). -/
def State.beginTile (s : State) (c : ClusterId) : State :=
  let x := s.cl c
  if x.tile.begun then s
  else
    let s := { s.pruneDerived with steps := s.steps + 1 }
    s.setCl c { x with tile := { x.tile with
      begun := true
      id := s.steps
      inputs := s.storeBytes c
      poison := s.storePoison c
      sources := s.producers c.store storeSize
      fn := [x.fn0, x.fn1] } }

/-- sampled(session, lclus, step, t) of R446. -/
def State.draw (s : State) (c : ClusterId) (t : Tile) : Bool :=
  let b := die12
  let skey := BitVec.ofNat 64 (s.rf b F.hltSkeyLo + s.rf b F.hltSkeyHi * 2 ^ 32)
  let y := perm { x0 := BitVec.ofNat 32 (s.lclusOfCluster c + t.number % 65536 * 65536), x1 := t.step.setWidth 32,
                  x2 := (t.step >>> 32).setWidth 32, x3 := BitVec.ofNat 32 t.session } skey
  (y.x0 >>> (32 - t.log2)) == 0

/-- Is the tile-step sampled: it has a V = 0 result, and R446 draws it, or its session, its cluster's cards or a drain has every
one sampled? -/
def State.isSampled (s : State) (c : ClusterId) (t : Tile) : Bool :=
  t.classE && (s.draw c t || (s.ses t.session).fullRedundancy || !(s.recentCards c).isEmpty || s.pkg.drained)

/-- The tile-step ends; with ADV = 1 the cluster's copy of the step counter counts one, and the next tile-step has number 0
(R215, R446, R450). -/
def State.endTile (s : State) (c : ClusterId) (adv : Bool) : State :=
  let x := s.cl c
  let t := { x.tile with ended := true, sampled := s.isSampled c x.tile, undo := [], undoLines := [] }
  let s := s.setCl c { x with window := (t :: x.window).take 2 }
  let s := if adv then s.setStepCopy c (s.stepCopy c + 1) else s
  s.setCl c { s.cl c with tile := s.newTile c (if adv then 0 else x.tile.number + 1) }

/-- A cluster does not begin tile-step t + 2 until tile-step t is settled (R450). -/
def State.stepHeld (s : State) (c : ClusterId) : Bool :=
  match (s.cl c).tile.begun, (s.cl c).window with
  | false, _ :: t :: _ => !s.settled t
  | _, _ => false

/-- Does the running tile-step wait for the replay that resolves its event? Its engine issues nothing and completes nothing until then
(notes/assumptions/88.md). -/
def Cluster.voting (x : Cluster) : Bool := x.tile.trap.isSome

/-- Bytes put back, newest change first. -/
def State.revert (s : State) (undo : List (Nat × Byte)) : State := undo.foldl (fun s u => s.poke u.1 u.2) s

/-- Poison bits put back, newest change first. -/
def State.revertLines (s : State) (undo : List (Nat × Bool)) : State :=
  undo.foldl (fun s u => if u.2 then s.markLine u.1 else s.clearLine u.1) s

/-- The results of a cluster's running tile-step are discarded, in its store and wherever else it has written, and the event waits for the vote
(R143, R144, R445). -/
def State.trapTile (s : State) (c : ClusterId) (why : Trap) (index opcode : Nat) : State :=
  let x := s.cl c
  let now := s.capture c x.tile.session
  let s := (s.revert x.tile.undo).revertLines x.tile.undoLines
  s.setCl c { x with tile := { x.tile with trap := some (x.tile.trap.getD why), undo := [], undoLines := [], written := [], instr := index,
                                           opcode := BitVec.ofNat 8 opcode, moment := some (x.tile.moment.getD now) } }

/-- Every tile-step of a session is settled (R449, R452). -/
def State.checksDone (s : State) (n : Nat) : Bool :=
  (s.clustersOfSession n).all (fun c =>
    let x := s.cl c
    x.window.all (fun t => t.session != n || s.settled t) && (x.tile.session != n || !x.voting))

/-! ### Results written -/

/-- The elements of one instruction written: the bytes, and the poison bit of each line they touch (R285): a line that receives a
poisoned element is poisoned, one that they cover whole with clean elements is not. -/
def State.writePieces (s : State) (ps : List Piece) : State :=
  let s := ps.foldl (fun s p => (s.pokes p.addr p.bytes).touchTx p.addr p.bytes.length) s
  (pieceLines ps).foldl (fun s l =>
    if linePoison ps l then s.markLine l else if coveredBytes ps l = 64 then s.clearLine l else s) s

/-- The bytes that the pieces are about to overwrite, newest first, and the poison bits of their lines. -/
def State.before (s : State) (ps : List Piece) : List (Nat × Byte) :=
  (ps.flatMap (fun p => (List.range p.bytes.length).map (fun i => (p.addr + i, s.byte (p.addr + i))))).reverse
def State.linesBefore (s : State) (ps : List Piece) : List (Nat × Bool) := (pieceLines ps).map (fun l => (l, s.poison.mem l))

/-- An instruction with no result that a duplicate compares: one with V = 1, or one that computes nothing (R207, R448, R453). -/
def uncompared (w : Nat) : Bool := iV w || iClass w == 0 || iClass w == 5

/-- The elements of one instruction of a cluster written, with what the tile-step keeps of them: the result that a duplicate compares (R448), what
they replace, and whose results they are. Once a replay has given the results of the tile-step, nothing that its own cluster computes further is
written: what stands there is the result (R143, R144, R445, R451). -/
def State.emitPieces (s : State) (c : ClusterId) (index w : Nat) (ps : List Piece) : State :=
  let x := s.cl c
  let t := x.tile
  let ps := sortPieces ps
  let out := if t.replaced then ps.map (fun p => { p with bytes := s.bytes p.addr p.bytes.length, poison := s.anyPoison p.addr p.bytes.length }) else ps
  let t := if uncompared w then t else { t with classE := true, written := t.written ++ out.map (fun p => (index, p)) }
  if t.replaced then s.setCl c { x with tile := t }
  else
    let new := ps.foldl (fun s p => s.derive p.addr p.bytes.length [t.id]) (s.writePieces ps)
    new.setCl c { x with tile := { t with undo := s.before ps ++ t.undo, undoLines := s.linesBefore ps ++ t.undoLines } }

/-- Bytes that come to a cluster while its tile-step runs are an input that the replay window holds (R248, R450), and their producers are tile-steps
that it reads from (R449). -/
def State.noteInput (s : State) (c : ClusterId) (addr : Nat) (bytes : List Byte) : State :=
  let x := s.cl c
  if !x.tile.begun then s
  else
    s.setCl c { x with tile := { x.tile with
      inputs := x.tile.inputs ++ bytes.zipIdx.map (fun b => (addr + b.2, b.1))
      poison := (if s.anyPoison addr bytes.length then linesOf addr bytes.length else []).foldl NatSet.insert x.tile.poison
      sources := (x.tile.sources ++ (s.producers addr bytes.length).filter (fun k => k != x.tile.id)).eraseDups } }

/-- A tile-step of a cluster changed, by its number. -/
def Cluster.mapTile (x : Cluster) (id : Nat) (f : Tile → Tile) : Cluster :=
  { x with tile := if x.tile.begun && x.tile.id == id then f x.tile else x.tile
           window := x.window.map (fun t => if t.id == id then f t else t) }

/-- Bytes that a transfer which a V = 0 FETCH_ARM has armed writes are results of its tile-step, until they have been compared (R448). -/
def State.noteTransfer (s : State) (c : ClusterId) (armer : Option (Nat × Nat)) (p : Piece) : State :=
  match armer with
  | none => s
  | some (id, index) =>
    s.setCl c ((s.cl c).mapTile id (fun t => if t.compared then t else { t with written := t.written ++ [(index, p)] }))

end Sys2Proof.Machine
end

