-- ==== Sys2Proof/Machine/Save.lean ====
section
/-!
DEFINITION. Save records (R310 to R314): what a snapshot of a paused session holds, how it is put back, and the bytes of the record.
-/

namespace Sys2Proof.Machine

/-- The job of a session that runs, if any. -/
def State.runningJob (s : State) (n : Nat) : Option Job := (s.ses n).jobs.find? (fun j => j.phase != .queued)

/-- A cluster passes to a session: the copy of the step counter of the session that used it is kept there (R215). -/
def State.takeCluster (s : State) (n : Nat) (c : ClusterId) (lclus : BitVec 16) : State :=
  let m := s.rf c.base F.exeSession
  if m = n then s
  else
    let old := s.ses m
    let s := if old.kind = .none then s
      else s.setSes m { old with copies := Sparse.put (fun _ => 0) old.copies lclus.toNat (s.stepCopy c) }
    let s := s.setStepCopy c (Sparse.get (fun _ => 0) (s.ses n).copies lclus.toNat)
    s.sf c.base F.exeSession n

/-- PAUSE_REQ of the engines of a session withdrawn. -/
def State.pauseOff (s : State) (n : Nat) : State :=
  (s.clustersOfSession n).foldl (fun s c => if s.rf c.base F.exeSession = n then s.sf c.base F.exeCtrlPauseReq 0 else s) s

/-- Is a list of another session in work on a cluster of this one (R330)? -/
def State.heldByOthers (s : State) (n : Nat) : Bool :=
  (s.clustersOfSession n).any (fun c => s.engineBusy c && s.rf c.base F.exeSession != n)

/-- Registers listed in a range of keys, relative to its start. -/
def State.regsIn (s : State) (b n : Nat) : List (Nat × W32) :=
  (s.regs.filter (fun e => decide (b ≤ e.1) && decide (e.1 < b + n))).map (fun e => (e.1 - b, e.2))

/-- Registers of a range put back: the range's other registers return to their reset values. -/
def State.putRegs (s : State) (b n : Nat) (rs : List (Nat × W32)) : State :=
  let s := { s with regs := s.regs.filter (fun e => !(decide (b ≤ e.1) && decide (e.1 < b + n))) }
  rs.foldl (fun s r => if r.1 < n then s.wr (b + r.1) r.2 else s) s

/-- Bytes listed in a range of addresses, relative to its start. -/
def State.bytesIn (s : State) (a n : Nat) : List (Nat × Byte) :=
  (s.mem.filter (fun e => decide (a ≤ e.1) && decide (e.1 < a + n))).map (fun e => (e.1 - a, e.2))

/-- The poisoned lines in a range of addresses, relative to its start. -/
def State.poisonIn (s : State) (a n : Nat) : List Nat :=
  (s.poison.filter (fun l => decide (a ≤ l * 64) && decide (l * 64 < a + n))).map (fun l => l - a / 64)

/-- Bytes of a range put back with its poisoned lines: every other byte of the range reads 0, every other line is clean (R251, R285). -/
def State.putBytes (s : State) (a n : Nat) (bs : List (Nat × Byte)) (lines : List Nat) : State :=
  let s := bs.foldl (fun s b => if b.1 < n then s.poke (a + b.1) b.2 else s) (s.zeroRange a n)
  lines.foldl (fun s l => if l < n / 64 then s.markLine (a / 64 + l) else s) s

/-- The windows a session holds: die, byte offset and length (R358). -/
def State.windowsOf (s : State) (n : Nat) : List (Nat × Nat × Nat) :=
  allDies.flatMap (fun d => (s.die d).windows.filterMap (fun w =>
    match w.2 with
    | some (o, base, len) => if o = n then some (d, base * 0x1_0000, len * 0x1_0000) else none
    | none => none))

/-- The window of a session on a die: its byte offset in the die buffer and its length; a session holds at most one (R358). -/
def State.windowOn (s : State) (n d : Nat) : Option (Nat × Nat) :=
  ((s.windowsOf n).find? (fun w => w.1 == d)).map (fun w => (w.2.1, w.2.2))

/-- Does a range of offsets lie inside the session's window on a die (R358, R359)? -/
def State.inWindow (s : State) (n d off len : Nat) : Bool :=
  match s.windowOn n d with
  | some w => decide (off + len ≤ w.2)
  | none => false

/-- The address of an offset in a session's window on a die: the hardware adds the window's base (R358). -/
def State.windowAddr (s : State) (n d off : Nat) : Nat :=
  dbufAddr d (match s.windowOn n d with | some w => w.1 + off | none => off)

/-- The entropy channels of a session. -/
def State.channelsOfSession (s : State) (n : Nat) : List ChannelId :=
  (List.finRange 25).flatMap (fun d => if (s.ses n).dies.getLsbD d.val then (channelsOf d).filter (s.chanOf n) else [])

/-- The registers of an engine that a save holds: ORDERED, the place in its list, and its copy of the step counter (EXE_CTRL to EXE_STEP_HI). -/
def exeSaved : Nat := 0x2C

/-- Is a post on its way to a semaphore that the session's image names? -/
def State.postOfSession (s : State) (n : Nat) (p : Post) : Bool := (s.ses n).image.sems.any (fun e => e.die == p.die && e.sem == p.sem)

/-- What a save holds of a cluster besides its registers and its store (R311, notes/assumptions/28.md): the place in its list, the blocks that its fetch
queues have delivered, and its tile-step; no accumulator, no function table and no lookup table. -/
def Cluster.saved (x : Cluster) : Cluster :=
  { issue := x.issue, waitDone := x.waitDone, linesReady := x.linesReady, linesFreed := x.linesFreed, owed := x.owed, blocks := x.blocks
    tile := x.tile, jobStep := x.jobStep }

/-- What a save of the session holds now (R311). -/
def State.snapshot (s : State) (n : Nat) : Snapshot :=
  let cs := (s.ses n).image.lists.filterMap (fun l => (s.physOf l.lclus.toNat).map (fun c => (l.lclus, c)))
  { session := s.ses n
    clusters := cs.map (fun p => (p.1, (s.cl p.2).saved))
    exe := cs.map (fun p => (p.1, s.regsIn (p.2.base + 0x400) exeSaved))
    stores := cs.map (fun p => (p.1, s.bytesIn p.2.store storeSize, s.poisonIn p.2.store storeSize))
    fetch := cs.flatMap (fun p => (List.range 64).map (fun q => (p.1, q, s.fq p.2 q, s.regsIn (p.2.fetchBase q) 0x10)))
    sems := (s.ses n).image.sems.map (fun e => (e.die, e.sem, BitVec.ofNat 32 (s.sem e.die e.sem)))
    posts := s.posts.filter (s.postOfSession n)
    buffers := (s.windowsOf n).map (fun w => (w.1, s.bytesIn (dbufAddr w.1 w.2.1) w.2.2, s.poisonIn (dbufAddr w.1 w.2.1) w.2.2))
    channels := (s.channelsOfSession n).map (fun ch =>
      (ch.no, s.chan ch, s.regsIn ch.base 0x40 ++ (s.regsIn (ch.laneBase 0) 0x100).map (fun r => (0x1000 + r.1, r.2))))
    version := s.fwVersion
    slots := cs.map (fun p => (p.1, p.2.slot.val)) }

/-- The channel of a number. -/
def channelAt (k : Nat) : Option ChannelId :=
  if h : k / 32 < 25 then some { die := ⟨k / 32, h⟩, unit := ⟨k / 4 % 8, by omega⟩, chan := ⟨k % 4, by omega⟩ } else none

/-- The job that ran as the session was saved goes on with a session that opens from the record; a paused session still has it, or has dropped it
(R354, notes/assumptions/28.md). -/
def carriedJobs (cur saved : Session) : List Job :=
  if cur.state = .paused then []
  else (saved.jobs.filter (fun j => j.phase != .queued)).map (fun j => { j with queue := cur.queue })

/-- Has a paused session dropped the job that ran as it was saved (R354)? -/
def Session.lostJob (ses : Session) : Bool := ses.state == .paused && ses.jobs.all (fun j => j.phase == .queued)

/-- The encoder of a session that goes on from a record: a session that was paused keeps the values staged and the refresh point requested since (R500);
a stream that opens counts from 0 and has no staged value (R501, R505). -/
def Session.resumedEnc (cur saved : Session) : Encoder :=
  if cur.state = .paused then
    { saved.enc with staged := cur.enc.staged, refreshDue := cur.enc.refreshDue, reeditions := cur.enc.reeditions, cappedTiles := cur.enc.cappedTiles }
  else { saved.enc with staged := {}, reeditions := 0, cappedTiles := 0 }

/-- The value that a list of saved registers gives to an offset. -/
def savedReg (rs : List (Nat × W32)) (off : Nat) : W32 := match rs.find? (fun r => r.1 == off) with | some r => r.2 | none => 0

/-- What a snapshot holds of each cluster, as a job that waits for its clusters holds it (R330). -/
def Snapshot.yields (x : Snapshot) : List Yielded :=
  x.clusters.map (fun p => { lclus := p.1, cluster := p.2
                             store := (x.stores.filter (fun e => e.1 == p.1)).flatMap (·.2.1)
                             poison := (x.stores.filter (fun e => e.1 == p.1)).flatMap (·.2.2)
                             ended := x.exe.any (fun e => e.1 == p.1 && getF (savedReg e.2 0x8) 2 0 == Ex.ended)
                             fetch := x.fetch.filterMap (fun f => if f.1 = p.1 then some f.2 else none) })

/-- The copies of the step counter that a snapshot holds, by logical cluster. -/
def Snapshot.copies (x : Snapshot) : Sparse W64 :=
  x.exe.foldl (fun t e => Sparse.put (fun _ => 0) t e.1.toNat
    (BitVec.ofNat 64 ((savedReg e.2 0x24).toNat + (savedReg e.2 0x28).toNat * 2 ^ 32))) x.session.copies

/-- A cluster as a job that goes on finds it; the translation cache, the stamps and the cards stay those of the cluster. -/
def State.putCluster (s : State) (n : Nat) (c : ClusterId) (x : Cluster) : State :=
  s.setCl c { x with tile := { x.tile with session := n }, window := [], cache := [], lastPass := (s.cl c).lastPass,
                     lastExam := (s.cl c).lastExam, cardStamps := (s.cl c).cardStamps }

/-- The engines, stores and fetch queues of a snapshot put back on the clusters of session n; a parked queue is active again (R288). -/
def State.restoreClusters (s : State) (n : Nat) (x : Snapshot) : State :=
  let put := fun (s : State) (l : BitVec 16) (f : ClusterId → State) => match s.physOf l.toNat with | some c => f c | none => s
  let s := x.clusters.foldl (fun s p => put s p.1 (fun c => (s.takeCluster n c p.1).putCluster n c p.2)) s
  let s := x.exe.foldl (fun s p => put s p.1 (fun c => (s.putRegs (c.base + 0x400) exeSaved p.2).sf c.base F.exeSession n)) s
  let s := x.stores.foldl (fun s p => put s p.1 (fun c => s.putBytes c.store storeSize p.2.1 p.2.2)) s
  x.fetch.foldl (fun s p => put s p.1 (fun c =>
    let s := (s.setFq c p.2.1 { p.2.2.1 with fault := none, pausing := false }).putRegs (c.fetchBase p.2.1) 0x10 p.2.2.2
    let s := s.sf (c.fetchBase p.2.1) F.fetQCtrlSession n
    if Fq.parkedFault ≤ s.fqState c p.2.1 then s.sf (c.fetchBase p.2.1) F.fetQStatusState Fq.active else s)) s

/-- The control state of a session that goes on from a snapshot: what R311 lists comes from the record, ORDERED and the seeds among it; the
session's parameters, image, queue and counters of R340 are those it has now. One that has dropped the job of the record keeps its own class E state,
which the drop has left (R302). -/
def Session.resumed (cur saved : Session) : Session :=
  if cur.lostJob then { cur with state := .open_ }
  else
  { saved with
    enc := cur.resumedEnc saved, kind := cur.kind, state := .open_, queue := cur.queue, homeroom := cur.homeroom, dies := cur.dies, live := cur.live, nanTrap := cur.nanTrap,
    bellHost := cur.bellHost, fullRedundancy := cur.fullRedundancy, deadline := cur.deadline, period := cur.period,
    jobCycles := cur.jobCycles, image := cur.image, root := cur.root, saveBytes := cur.saveBytes, counters := cur.counters,
    replicas := cur.replicas, jobs := carriedJobs cur saved ++ cur.jobs
    jobNumber := if cur.jobNumber.toNat < saved.jobNumber.toNat then saved.jobNumber else cur.jobNumber
    bell := cur.bell, bellStamp := cur.bellStamp, stopAtBell := cur.stopAtBell, pauseTo := none, closing := cur.closing, slot := cur.slot, yields := [], yielding := false }

/-- A channel of a snapshot put back, with its registers and lane contexts (R105). -/
def State.putChannel (s : State) (n : Nat) (p : Nat × Channel × List (Nat × W32)) : State :=
  match channelAt p.1 with
  | some ch =>
    let s := (s.setChan ch p.2.1).putRegs ch.base 0x40 (p.2.2.filter (fun r => decide (r.1 < 0x1000)))
    (s.putRegs (ch.laneBase 0) 0x100
      ((p.2.2.filter (fun r => decide (0x1000 ≤ r.1))).map (fun r => (r.1 - 0x1000, r.2)))).sf ch.base F.entChCtrlSession n
  | none => s

/-- The state of a snapshot put back under session number n, which is open with its queue and its image. Where another session's job has
its clusters, the engines, stores and queues wait on the device as those of a job that has yielded (R330). -/
def State.restore (s : State) (n : Nat) (x : Snapshot) : State :=
  let cur := s.ses n
  let s := s.setSes n (cur.resumed x.session)
  let s := s.setQue cur.queue { s.que cur.queue with openCmds := (s.que cur.queue).openCmds + (carriedJobs cur x.session).length }
  let s := if s.heldByOthers n then s.setSes n { s.ses n with yields := x.yields, copies := x.copies } else s.restoreClusters n x
  let s := x.sems.foldl (fun s p => if cur.image.sems.any (fun e => e.die == p.1 && e.sem == p.2.1) then s.setSem p.1 p.2.1 p.2.2.toNat else s) s
  let s := { s with posts := s.posts.filter (fun p => !s.postOfSession n p) ++ x.posts.filter (s.postOfSession n) }
  let s := x.buffers.foldl (fun s p => match (s.windowsOf n).find? (fun w => w.1 == p.1) with
    | some w => s.putBytes (dbufAddr w.1 w.2.1) w.2.2 p.2.1 p.2.2
    | none => s) s
  x.channels.foldl (State.putChannel · n) s

/-- The state that the body of a save record of another device holds, as this device's firmware reads it (R312, R313): the body's layout belongs
to the firmware, so nothing is known of it. -/
opaque savedState : List Byte → Snapshot

/-- The snapshot in a save record: one that this model has written, else what the firmware reads from its body, under the header's DIES,
FW_VERSION and ORDERED (R313). -/
def State.savedIn (s : State) (b : List Byte) : Snapshot :=
  match s.saves.find? (fun x => x.1 == b.drop (b.length - 32)) with
  | some x => x.2
  | none =>
    let x := savedState b
    { x with session := { x.session with ordered := bitN (leAt b 7 1) 0, dies := BitVec.ofNat 25 (leAt b 20 4) }, version := leAt b 16 4 }

/-- SAVE_BYTES: the clusters' stores, the windows, and what the firmware's format adds, in multiples of 4,096 bytes (R313). -/
def saveBytesOf (img : Image) : Nat :=
  let body := img.lists.length * storeSize + (img.windows.map (fun w => w.2 * 0x1_0000)).sum + Config.saveExtra img.digest
  (128 + body + 4095) / 4096 * 4096

/-- The number of a kind (R326). -/
def Kind.code : Kind → Nat
  | .none => 0
  | .encode => 1
  | .decode => 2
  | .model => 3

/-- The bytes of a save record: header, body and digest (R313). -/
def State.saveRecord (s : State) (n : Nat) : List Byte :=
  let ses := s.ses n
  let head := [0x5A, 0x53, 0x56, 0x01] ++ natLe 2 1 ++ natLe 1 ses.kind.code ++ natLe 1 (b2n ses.ordered + 2 * b2n ses.live)
    ++ natLe 8 ses.saveBytes ++ natLe 4 s.fwVersion ++ natLe 4 ses.dies.toNat ++ natLe 8 (s.sessionStep n).toNat
    ++ sliceB ses.image.digest 0 32 ++ natLe 4 s.chart.generation.toNat ++ natLe 28 0
  let body := (List.range (ses.saveBytes - 128)).map (Config.saveBody s.saves.length)
  head ++ body ++ digest32 (head ++ body)

/-- A fetch queue of a session stands at a row boundary: it is idle or parked (R288). -/
def State.queuesStill (s : State) (n : Nat) : Bool :=
  (s.clustersOfSession n).all (fun c => (List.range 64).all (fun q =>
    s.fqState c q == Fq.idle || s.fqState c q == Fq.parkedPause || s.fqState c q == Fq.parkedFault
      || s.rf (c.fetchBase q) F.fetQCtrlSession != n))

/-- The clusters of a session run nothing: each engine is paused or has no list in work. -/
def State.enginesStill (s : State) (n : Nat) : Bool :=
  (s.clustersOfSession n).all (fun c => s.rf c.base F.exeSession != n
    || !(s.exe c == Ex.running || s.exe c == Ex.waiting))

/-- An engine of a session stands at a STEP with PAUSE_POINT: a session pauses only there (R310). -/
def State.atPausePoint (s : State) (n : Nat) : Bool :=
  (s.clustersOfSession n).any (fun c => s.rf c.base F.exeSession == n && s.exe c == Ex.paused)

/-- The cursor of a queue that parks: FET_Q_CURSOR and I4 of FET_Q_RPOS name the lowest row that is not posted (R280, R288, R289). -/
def State.setCursor (s : State) (c : ClusterId) (q : Nat) : State :=
  let x := s.fq c q
  let d := parseDesc x.desc
  let b := c.fetchBase q
  ((s.sf b F.fetQCursorI2 (d.i2 x.posted)).sf b F.fetQCursorI3 (d.i3 x.posted)).sf b F.fetQRposI4 (d.i4 x.posted)

/-- A queue that is to stop at its next delivery row does so once every row it began is posted, with its cursor (R288); none parks while its
engine's ENABLE is 0 (R289). -/
def State.parkPause (s : State) (c : ClusterId) (q : Nat) : State :=
  let x := s.fq c q
  let st := s.fqState c q
  if x.pausing && s.bit c.base F.fetCtrlEnable && (st == Fq.active || st == Fq.creditWait) && !x.rowOpen && x.posted == x.row then
    ((s.setFq c q { x with pausing := false }).setCursor c q).sf (c.fetchBase q) F.fetQStatusState Fq.parkedPause
  else s

/-- Every queue of a session whose engines stand stops at its next delivery row (R288). -/
def State.pauseQueues (s : State) (n : Nat) : State :=
  (s.clustersOfSession n).foldl (fun s c => (List.range 64).foldl (fun s q =>
    if s.fqBusy c q && s.rf (c.fetchBase q) F.fetQCtrlSession == n then
      (s.setFq c q { s.fq c q with pausing := true }).parkPause c q
    else s) s) s

/-- The link channels of a session are empty: every line sent is credited, every line received is read (R414). -/
def State.channelsStill (s : State) (n : Nat) : Bool :=
  let mine := fun (l : Nat) (r : Bool) (ch : Nat) => s.crf l r ch F.lnkChCtrlEnable == 1 && s.crf l r ch F.lnkChCtrlSession == n
  s.links.all (fun e =>
    e.2.tx.all (fun c => !mine e.1 false c.1 || (c.2.sent == c.2.credited && c.2.covered.isEmpty))
      && e.2.rx.all (fun c => !mine e.1 true c.1 || c.2.written == c.2.freed))

/-- PAUSE takes effect (R310): at a pause point, with the checks done, engines and queues standing; the record is written and PAUSE completes. While
the scheduler core of the homeroom restarts, that waits for it (R441). -/
def State.tryPause (s : State) (n : Nat) : State :=
  let ses := s.ses n
  match ses.pauseTo with
  | none => s
  | some (tag, q, head, dest) =>
    let editing := match ses.enc.current with | some p => p.recode.isSome | none => false
    let s := if s.atPausePoint n && s.enginesStill n then s.pauseQueues n else s
    if s.atPausePoint n && ses.yields.isEmpty && s.enginesStill n && s.queuesStill n && s.channelsStill n && s.checksDone n && !editing
        && !s.schedulerRestarts ses.homeroom then
      let s := s.pauseOff n
      let bytes := s.saveRecord n
      let snap := s.snapshot n
      let w := s.virtWrite ses.homeroom n dest bytes
      if !w.2 then w.1.endSession n St.fetDstFault
      else
        let s := { w.1 with saves := w.1.saves ++ [(bytes.drop (bytes.length - 32), snap)] }
        let s := s.setSes n { s.ses n with state := .paused, pauseTo := none }
        (s.closeCmd q).complete q { tag := tag, session := n, kind := Ck.done, sqHead := head }
    else s

end Sys2Proof.Machine
end

