-- ==== Sys2Proof/Machine/Jobs.lean ====
section
/-!
DEFINITION. Jobs: the one that runs, its end on the clusters and in its session (R203, R338, R345, R452), and what its drop leaves of
class E state (R302, R303).
-/

namespace Sys2Proof.Machine

/-- The session without the job that runs; the number of the next job counts on (R323). What the job has yielded goes with it. -/
def State.dropJob (s : State) (n : Nat) : State :=
  let ses := s.ses n
  if ses.kind = .none then s
  else
  let s := if ses.yielding && ses.pauseTo.isNone then s.pauseOff n else s
  s.setSes n { ses with jobs := ses.jobs.filter (fun j => j.phase == .queued), jobNumber := ses.jobNumber + 1
                        yields := [], yielding := false }

/-- Every list of a session has ended. -/
def State.listsEnded (s : State) (n : Nat) : Bool :=
  (s.clustersOfSession n).all (fun c => s.rf c.base F.exeSession == n && s.exe c == Ex.ended)

/-- What follows a job: a session that closes ends (R335), and a PAUSE takes effect (R310). -/
def State.afterJob (s : State) (n : Nat) : State :=
  let ses := s.ses n
  if ses.closing.isSome then s.endSession n St.ok else s.tryPause n

/-- Is a line of the buffers of a job poisoned? -/
def State.outputPoison (s : State) (n : Nat) (j : Job) : Bool :=
  j.outs.any (fun b => (s.virtRead (s.ses n).homeroom n b.addr b.len).2.1)

/-- POISON_IN of the engine that a session's end through poison names (R286). -/
def State.poisonEnd (s : State) (n : Nat) : State :=
  match (s.clustersOfSession n).head? with
  | some c => (s.raise c.base F.exeErrPoisonIn).endSession n St.poisonConsumed (s.exeDetail c 0)
  | none => s.endSession n St.poisonConsumed

/-- The session steps on past one in which a NaN arose, with NAN_TRAP set (R163). -/
def State.nanDue (s : State) (n : Nat) : Bool :=
  let ses := s.ses n
  ses.nanTrap && ses.origins.any (fun o => decide (o.step.toNat < (s.sessionStep n).toNat) || s.listsEnded n)

/-- The session ends on its NaN trap; its completion names the instruction of its first origin record (R162, R338). -/
def State.nanEnd (s : State) (n : Nat) : State :=
  let s := match (s.clustersOfSession n).head? with
    | some c => s.raise c.base F.exeErrNanTrap
    | none => s
  s.endSession n St.exeNanTrap (match (s.ses n).origins.head? with | some o => detailOf o.instr o.lclus.toNat (8 * fieldN o.lclus.toNat 4 0 + fieldN o.lclus.toNat 7 5) | none => 0)

/-! ### Class E state -/

/-- The work of the running job is given up (R302, R346): its clusters are halted, each copy of the step counter is set to the value of
the job's END, the semaphores return to INIT (R275), and the job leaves no entry in the scale history (R69). -/
def State.giveUpWork (s : State) (n : Nat) : State :=
  let s := (s.clustersOfSession n).foldl (fun s c => if s.rf c.base F.exeSession = n then s.quitCluster c else s) s
  let s := (s.stepsToEnd n).initSems n
  s.setSes n (s.ses n).dropHist

/-- The session's copies of the step counter, by logical cluster, set to some values: at the clusters that it has, else where the session keeps
them (R215). -/
def State.setCopies (s : State) (n : Nat) (value : ListPlace → W64) : State :=
  (s.ses n).image.lists.foldl (fun s l =>
    let v := value l
    match s.physOf l.lclus.toNat with
    | some c =>
      if s.rf c.base F.exeSession = n then s.setStepCopy c v
      else s.setSes n { s.ses n with copies := Sparse.put (fun _ => 0) (s.ses n).copies l.lclus.toNat v }
    | none => s) s

/-- A job that has not begun advances each copy of the step counter all the same (R302). -/
def State.stepsPast (s : State) (n : Nat) : State := s.setCopies n (fun l => BitVec.ofNat 64 (s.copyOf n l.lclus + l.advSteps))

/-! ### Decoded pictures (R125, R345) -/

/-- A latency of a live stream is measured: no rule gives it a value, so it is a free value (R499, notes/assumptions/36.md). -/
def State.noteLatency (s : State) (n : Nat) (f : Counters → BitVec 16 → Counters) : State :=
  if (s.ses n).live then
    let v := s.free
    v.2.setSes n { v.2.ses n with counters := f (v.2.ses n).counters (v.1.setWidth 16) }
  else s

/-- A first-slice latency (R77, R78, R499). -/
def State.noteFirstSlice (s : State) (n : Nat) : State :=
  s.noteLatency n (fun c v => { c with firstUs := v, worstUs := if c.worstUs.toNat < v.toNat then v else c.worstUs })

/-- FINAL of the picture whose close unit has been processed, with its audit record: it becomes the newest reference (R63), as its synthesis
gives it before output conversion (R37, R64), and its statistics stand in the history (R69). -/
def State.postFinal (s : State) (n : Nat) (j : Job) : State :=
  let ses := s.ses n
  match ses.dec.closing with
  | none => s
  | some (p, input) =>
    let keep := match ses.dec.stream with | some p => p.refs | none => 1
    let new : Reference := { pic := p.pic, planes := ses.synthPicture p.q p.side (heldLanes p) p.reads }
    let d := { ses.dec with closing := none, finals := ses.dec.finals + 1, fresh := false, refs := (new :: ses.dec.refs).take keep }
    let k := { ses.counters with pictures := hold32 ses.counters.pictures 1, lastSeq := p.pic }
    let s := (s.setSes n { ses.closeHist with dec := d, counters := k }).noteLatency n (fun c v => { c with pictureUs := v })
    let c : Completion := { tag := j.tag, session := n, kind := Ck.final, sqHead := j.sqHead, seq := p.pic }
    let step := (s.sessionStep n).toNat
    if ses.dec.finals = 0 then s.postJob n j c p.pic step false input else s.postRecord n j c p.pic step false input

/-- A picture whose close unit has been processed and of which a segment was damaged has no FINAL: R75 applies to it (R86). -/
def State.loseClosing (s : State) (n : Nat) : State :=
  let ses := s.ses n
  s.setSes n { ses with dec := { ses.dec with closing := none, blocked := true }
                        counters := { ses.counters with lost := hold32 ses.counters.lost 1 } }

/-- Was a segment of the picture damaged whose close unit has been processed? -/
def Decoder.closingDamaged (d : Decoder) : Bool := match d.closing with | some x => isDamaged x.1 | none => false

/-- Must a job of a live stream wait: it is due at a bell that rang during a restart of the homeroom's scheduler core, or that core restarts and
completes nothing meanwhile (R352, R353)? -/
def State.jobWaits (s : State) (n : Nat) (j : Job) : Bool := j.late || (j.due.isSome && s.schedulerRestarts (s.ses n).homeroom)

/-- A decode job whose bytes are used up is over, unless it must wait for a restart (R353); without a FINAL its SUBMIT completes DONE
(notes/assumptions/26.md). -/
def State.decodeIdle (s : State) (n : Nat) : State :=
  let ses := s.ses n
  match s.runningJob n with
  | none => s
  | some j =>
    if ses.kind ≠ .decode ∨ ses.dec.closing.isSome ∨ frontOf ses.dec.inbuf ≠ .short ∨ s.jobWaits n j then s
    else if ses.dec.cut then s.poisonEnd n
    else
      let s := if ses.dec.finals = 0 then
          ((s.giveUpWork n).closeCmd j.queue).complete j.queue
            { tag := j.tag, session := n, kind := Ck.done, sqHead := j.sqHead, seq := j.seq }
        else s
      (s.dropJob n).afterJob n

/-! ### The end of a job -/

/-- A job whose lists have ended and whose tile-steps are settled, unless it must wait for a restart (R353): a model job is posted DONE (R338, R452), a decode job FINAL once its
close unit has been processed; an encode job is completed by its close unit. -/
def State.finishJob (s : State) (n : Nat) : State :=
  match s.runningJob n with
  | none => s.tryPause n
  | some j =>
    if !s.listsEnded n then s.tryPause n
    else
      let ses := s.ses n
      let s := s.setSes n { ses with jobs := ses.jobs.map (fun x => if x.phase = .running then { x with phase := .ended } else x) }
      if !s.checksDone n || s.jobWaits n j then s
      else if ses.kind = .model then
        if s.nanDue n then s.nanEnd n
        else if j.tainted || s.outputPoison n j then s.poisonEnd n
        else
          let step := (s.sessionStep n).toNat
          let s := s.postJob n j { tag := j.tag, session := n, kind := Ck.done, sqHead := j.sqHead, seq := j.seq } ses.jobNumber
            step false j.input
          (s.dropJob n).afterJob n
      else if ses.kind = .decode ∧ ses.dec.closing.isSome then
        if ses.dec.closingDamaged then (s.loseClosing n).decodeIdle n
        else if s.nanDue n then s.nanEnd n
        else if s.outputPoison n j then s.poisonEnd n
        else (s.postFinal n j).decodeIdle n
      else s

end Sys2Proof.Machine
end

