-- ==== Sys2Proof/Machine/Engine.lean ====
section
/-!
DEFINITION. The execute engine: how it issues an instruction (R201 to R205, R217, R224, R450), what the instruction's work leaves
(R229), and how a pipe completes (R218).
-/

namespace Sys2Proof.Machine

/-! ### Errors and events -/

/-- An execution event of R229: its bit, the instruction in EXE_ERR_PC, and an error event. -/
def State.exeErr (s : State) (c : ClusterId) (err : Fld) (index opcode : Nat) : State :=
  (((s.raise c.base err).sf c.base F.exeErrPcIndex index).sf c.base F.exeErrPcOpcode opcode).errEvent c.die (0x700 + err.hi)

/-- An execution event that ends the session (R229): the cluster is halted, and the job's completion names the instruction (R338). -/
def State.exeFail (s : State) (c : ClusterId) (err : Fld) (status index opcode : Nat) : State :=
  let n := s.rf c.base F.exeSession
  let s := (s.exeErr c err index opcode).haltCluster c
  s.endSession n status (s.exeDetail c index)

/-- Poison that the engine reads for use (R286). -/
def State.exePoison (s : State) (c : ClusterId) (index opcode : Nat) : State :=
  (s.poisonEvent c.die).exeFail c F.exeErrPoisonIn St.poisonConsumed index opcode

/-- What the work of an instruction is: elements to write, elements that saturated, NaN origins, events of float work, and a
failure, a trap or other changes of the state. -/
structure Run where
  st      : State
  out     : List Piece := []
  sat     : Nat := 0
  origins : List (Nat × Nat) := []
  events  : FpEvents := {}
  trap    : Option Trap := none
  fail    : Option (Fld × Nat) := none
  poison  : Bool := false
  /-- Blocks that the units take have not arrived, and the instruction waits for them (R194). -/
  wait    : Bool := false
  deriving DecidableEq, Repr

/-- A run that fails. -/
def runFail (s : State) (err : Fld) (status : Nat) : Run := { st := s, fail := some (err, status) }
def badRecord (s : State) : Run := runFail s F.exeErrBadRecord St.exeBadRecord
def storeBounds (s : State) : Run := runFail s F.exeErrStoreBounds St.exeStoreBounds
def badQpbRun (s : State) : Run := runFail s F.exeErrBadQpb St.exeBadQpb

/-- Pieces all inside the store of the cluster. -/
def insideStore (c : ClusterId) (ps : List Piece) : Bool :=
  ps.all (fun p => decide (c.store ≤ p.addr) && decide (p.addr + p.bytes.length ≤ c.store + storeSize))

/-- The unit that computes an output channel: blocks of 64 channels go to the units of UNITS in turn from the lowest (R213). -/
def unitOf (units ch : Nat) : Nat :=
  let us := (List.range 8).filter (fun u => bitN units u)
  us.getD (ch / 64 % max 1 us.length) 0

/-- Output channels of an instruction of the unit pipe, as its record names them. -/
def State.recordN (s : State) (c : ClusterId) (w : Nat) : Nat := leAt (s.bytes (c.store + iRec w) 64) (if iClass w = 1 then 26 else 30) 2

/-- The unit that computes element e of an output with n channels (R161, R213); an instruction of the finish pipe has unit 0
(notes/assumptions/61.md). -/
def elementUnit (w n e : Nat) : Nat := if iClass w = 1 ∨ iClass w = 3 then unitOf (iUnits w) (e % max 1 n) else 0

/-- The work of an instruction takes effect: what it computes is written as it is issued (notes/assumptions/12.md), unless it
fails (R229) or traps (R143, R144). Once a replay has given the results of the tile-step, what the cluster computes for it counts for nothing
further (notes/assumptions/88.md). -/
def State.apply (s : State) (c : ClusterId) (index w : Nat) (r : Run) : State :=
  let n := s.rf c.base F.exeSession
  if (s.cl c).tile.replaced then r.st.emitPieces c index w (if insideStore c r.out then r.out else [])
  else
  match r.fail with
  | some (err, status) => r.st.exeFail c err status index (iOp w)
  | none =>
    if r.poison then r.st.exePoison c index (iOp w)
    else if !insideStore c r.out then r.st.exeFail c F.exeErrStoreBounds St.exeStoreBounds index (iOp w)
    else
      let s := (r.st.saturate n r.sat).excFlags n r.events
      let s := s.addOrigins c n index (iOp w) (elementUnit w (r.st.recordN c w)) r.origins
      match r.trap with
      | some t => (s.exeErr c (match t with | .divZero => F.exeErrDivZero | _ => F.exeErrAccOverflow) index (iOp w)).trapTile c t index (iOp w)
      | none => s.emitPieces c index w r.out

/-! ### Pipes and posts -/

/-- EXE_PC, EXE_STATUS [3] and EXE_STATUS [4] from the pipes (R230). -/
def State.setPc (s : State) (c : ClusterId) : State :=
  let x := s.cl c
  let oldest := (x.unitPipe ++ x.finPipe).foldl (fun m f => min m f.index) x.issue
  let s := s.sf c.base F.exePc oldest
  (s.flag c.base F.exeStatusUnitBusy (!x.unitPipe.isEmpty)).flag c.base F.exeStatusFinishBusy (!x.finPipe.isEmpty)

/-! ### The ring record of EFEED and ERES (R223) -/

/-- The ring record of an EFEED or ERES. -/
structure FeedRec where
  die   : Nat
  size  : Nat
  base  : Nat
  free  : Nat
  ready : Nat
  pos   : Nat
  deriving DecidableEq, Repr

def parseFeed (r : List Byte) : FeedRec :=
  { die := leAt r 0 1, size := leAt r 2 2, base := leAt r 4 4, free := leAt r 8 2, ready := leAt r 10 2, pos := leAt r 12 4 }

/-- Entries of the ring: records for EFEED, bytes for ERES. -/
def FeedRec.entries (f : FeedRec) (eres : Bool) : Nat := if eres then 2 ^ f.size else f.size

/-- A ring record that fails R223: die, size, base, semaphores, position or reserved bytes (notes/assumptions/92.md). -/
def badFeed (raw : List Byte) (f : FeedRec) (eres : Bool) : Bool :=
  decide (25 ≤ f.die) || leAt raw 1 1 != 0 || decide (2 ^ 24 ≤ f.base) || f.base % 64 != 0
    || decide (8192 ≤ f.free) || decide (8192 ≤ f.ready) || (raw.drop 16).any (fun b => b != 0)
    || (if eres then decide (f.size < 6) || decide (20 < f.size)
        else decide (f.size < 16) || decide (32768 < f.size) || f.size != 2 ^ Nat.log2 f.size)
    || decide (f.entries eres ≤ f.pos)

/-- The die and semaphore that an instruction posts to: POST_DIE, or its own die (R205, R217). -/
def postTarget (c : ClusterId) (w : Nat) : Nat × Nat := (if iPostDie w = 31 then c.die.val else iPostDie w, iPostSem w)

/-- Where an instruction that has not completed will still post: by its header, and an EFEED or ERES for each record (R223). -/
def State.postsAhead (s : State) (c : ClusterId) (f : InFlight) : List (Nat × Nat) :=
  let w := f.word.toNat
  let own := if iPostCount w = 0 then [] else [postTarget c w]
  if iClass w = 6 ∧ f.done < iCount w then
    let r := parseFeed (s.bytes (c.store + iRec w) 64)
    (r.die, r.ready) :: own
  else own

/-- Must a post of the instruction at an index wait, because an instruction issued before it will still post to the same semaphore, or has a post
that waits itself (R218)? -/
def State.postBlocked (s : State) (c : ClusterId) (owed : List Post) (index d sem : Nat) : Bool :=
  let x := s.cl c
  (x.unitPipe ++ x.finPipe).any (fun f => decide (f.index < index) && (s.postsAhead c f).contains (d, sem))
    || owed.any (fun p => p.die == d && p.sem == sem && decide (p.index ≤ index))

/-- A post of an engine: posts to one semaphore are made in issue order (R218), and none leaves the partition (R30). -/
def State.enginePost (s : State) (c : ClusterId) (index op d sem count : Nat) : State :=
  let x := s.cl c
  if count ≠ 0 ∧ s.postBlocked c x.owed index d sem then
    s.setCl c { x with owed := x.owed ++ [{ src := srcEngine c, die := d, sem := sem, count := count, index := index, opcode := op }] }
  else s.postFor (s.rf c.base F.exeSession) c.die (srcEngine c) d sem count index op

/-- A post put among those that wait, behind the others of its instruction and of earlier ones. -/
def insertPost (p : Post) : List Post → List Post
  | [] => [p]
  | q :: rest => if q.index ≤ p.index then q :: insertPost p rest else p :: q :: rest

/-- The posts that nothing holds back any more are made, in issue order (R218). -/
def State.payOwed (s : State) (c : ClusterId) : State :=
  let owed := (s.cl c).owed.foldl (fun t p => insertPost p t) []
  owed.foldl (fun s p =>
    let x := s.cl c
    if s.postBlocked c x.owed p.index p.die p.sem then s.setCl c { x with owed := x.owed ++ [p] }
    else s.postFor (s.rf c.base F.exeSession) c.die p.src p.die p.sem p.count p.index p.opcode) (s.setCl c { s.cl c with owed := [] })

/-- The post of an instruction at an index (R205, R217). -/
def State.postOf (s : State) (c : ClusterId) (index w : Nat) : State :=
  s.enginePost c index (iOp w) (postTarget c w).1 (postTarget c w).2 (iPostCount w)

/-- An instruction completes: its post is made, EXE_INSTRS counts (R218, R230). -/
def State.completed (s : State) (c : ClusterId) (index w : Nat) : State :=
  (((s.postOf c index w).payOwed c).bump c.base F.exeInstrs 1).setPc c

/-! ### Issue -/

/-- The store offset of the instruction at an index of the list: the ring of R224. -/
def State.listOffset (s : State) (c : ClusterId) (index : Nat) : Nat :=
  s.rf c.base F.exeListBase + 16 * (index % max 1 (s.rf c.base F.exeListSize))

/-- The instruction at an index, as a number. -/
def State.listWord (s : State) (c : ClusterId) (index : Nat) : Nat := s.le (c.store + s.listOffset c index) 16

/-- The engine waits on a semaphore (R230). -/
def State.blockOn (s : State) (c : ClusterId) (sem : Nat) : State :=
  (s.setExe c Ex.waiting).sf c.base F.exeStatusSem sem

/-- The wait that stands before the next instruction: for the line of a streamed list (R224), else that of the instruction (R217);
none when both are done. -/
def State.nextWait (s : State) (c : ClusterId) : Option (Bool × Nat × Nat) :=
  let x := s.cl c
  if s.bit c.base F.exeListSemStreamed && decide (x.linesReady ≤ x.issue / 4) then
    some (true, s.rf c.base F.exeListSemReady, 1)
  else
    let w := s.listWord c x.issue
    if x.waitDone || iWaitCount w == 0 then none else some (false, iWaitSem w, iWaitCount w)

/-- A wait of the engine satisfied: its count is taken and the wait is done. -/
def State.passWait (s : State) (c : ClusterId) (wait : Bool × Nat × Nat) : Option State :=
  (s.take c.die wait.2.1 wait.2.2).map (fun s =>
    let x := s.cl c
    if wait.1 then s.setCl c { x with linesReady := x.linesReady + 1 } else s.setCl c { x with waitDone := true })

/-- The wait for the list's next line, passed when it can be. -/
def State.passLine (s : State) (c : ClusterId) : Option State :=
  match s.nextWait c with
  | some (true, sem, k) => s.passWait c (true, sem, k)
  | _ => some s

/-- The wait of the instruction itself, passed when it can be. -/
def State.passOwn (s : State) (c : ClusterId) : Option State :=
  match s.nextWait c with
  | some (false, sem, k) => s.passWait c (false, sem, k)
  | _ => some s

/-- Must every earlier instruction have completed: FENCE, and END and STEP as if they carried it (R202, R203, R215)? -/
def fences (w : Nat) : Bool := iFence w || iOp w == 0x01 || iOp w == 0x02

/-- The next index: the line of a streamed list that has been issued completely is posted free (R224). -/
def State.advance (s : State) (c : ClusterId) (w : Nat) : State :=
  let x := s.cl c
  let s := s.setCl c { x with issue := x.issue + 1, waitDone := false }
  if s.bit c.base F.exeListSemStreamed && (x.issue % 4 == 3 || iOp w == 0x01) then
    let s := s.setCl c { s.cl c with linesFreed := x.linesFreed + 1 }
    s.enginePost c x.issue (iOp w) c.die (s.rf c.base F.exeListSemFree) 1
  else s

/-- An instruction as its pipe holds it: a matrix or convolution instruction that narrows through a block, and a POOL with a block, use the
function table that the block names as it is read at the start (R192, R198). -/
def State.inFlight (s : State) (c : ClusterId) (index w : Nat) : InFlight :=
  let narrows := iQpbEn w && (iClass w == 1 || iClass w == 3) && (iNarrow w || iOp w == 0x63)
  { index := index, word := BitVec.ofNat 128 w, fn := if narrows then (parseQpb (s.bytes (c.store + iQpb w) 32) 0).fn else 0 }

/-- The instruction goes to its pipe, or completes at issue when the engine executes it itself (R201); the unit pipe's last instruction is known by
its channels and units (R211). -/
def State.dispatch (s : State) (c : ClusterId) (f : InFlight) (n : Nat) : State :=
  let x := s.cl c
  let w := f.word.toNat
  match iClass w with
  | 1 | 3 => (s.setCl c { x with unitPipe := x.unitPipe ++ [f], accN := n, accUnits := BitVec.ofNat 8 (iUnits w) }).setPc c
  | 2 | 4 | 6 => (s.setCl c { x with finPipe := x.finPipe ++ [f] }).setPc c
  | _ => s.completed c f.index w

/-- The work of an instruction: from the cluster, the instruction word and the state at issue. -/
abbrev Work := ClusterId → Nat → State → Run

/-- The checks before an instruction's wait: the list's end (R203), the store, poison (R286), reserved bits (R205), UNITS (R211). -/
def State.issueCheck (s : State) (c : ClusterId) : Option State :=
  let i := (s.cl c).issue
  let o := s.listOffset c i
  let w := s.listWord c i
  if s.rf c.base F.exeListLen ≤ i then some (s.exeFail c F.exeErrBadOpcode St.exeBadOpcode i (iOp w))
  else if storeSize < o + 16 then some (s.exeFail c F.exeErrStoreBounds St.exeStoreBounds i 0)
  else if s.anyPoison (c.store + o) 16 then some (s.exePoison c i 0)
  else if badInstruction w then some (s.exeFail c F.exeErrBadOpcode St.exeBadOpcode i (iOp w))
  else if (iClass w = 1 ∨ iClass w = 3 ∨ iOp w = 0x40) ∧ iUnits w = 0 then
    some (s.exeFail c F.exeErrBadRecord St.exeBadRecord i (iOp w))
  else none

/-- An engine that runs, with its island clocked (R230), its replay window open for the next tile-step (R450) and no replay of the running one to
wait for. One of a region without supply never runs: no list starts there (R4). -/
def State.canIssue (s : State) (c : ClusterId) : Bool :=
  s.exe c == Ex.running && s.bit c.base F.clsCtrlIslandEn && !s.stepHeld c && !(s.cl c).voting

/-- What an instruction that the engine executes itself does once its post is made. -/
abbrev After := ClusterId → Nat → State → State

/-- The engine issues its next instruction when that has opcode op: the list's line and the checks come first, then the fence and
the instruction's own wait; a wait that cannot be satisfied leaves the engine WAITING. -/
def State.issueWith (s : State) (c : ClusterId) (op : Nat) (work : Work) (after : After) : State :=
  if !s.canIssue c then s
  else
    let s := s.beginTile c
    match s.passLine c with
    | none => s.blockOn c (s.rf c.base F.exeListSemReady)
    | some s =>
      match s.issueCheck c with
      | some t => t
      | none =>
        let x := s.cl c
        let w := s.listWord c x.issue
        if iOp w ≠ op then s
        else if fences w && !(x.unitPipe.isEmpty && x.finPipe.isEmpty) then s
        else
          match s.passOwn c with
          | none => s.blockOn c (iWaitSem w)
          | some s =>
            let f := s.inFlight c x.issue w
            let n := s.recordN c w
            let r := work c w s
            let t := s.apply c x.issue w r
            if r.wait then s
            else if !(s.cl c).tile.replaced && (r.fail.isSome || r.poison || !insideStore c r.out) then t
            else
              after c w ((t.advance c w).dispatch c f n)

/-! ### Completion of a pipe (R218) -/

/-- The bit of CLS_ERR of a parity error (R229, R444). -/
def parityBit : ParityPath → Fld
  | .fetch => F.clsErrParityFetch
  | .unit => F.clsErrParityUnit
  | .finish => F.clsErrParityFinish
  | .instr => F.clsErrParityInstr

/-- A parity error, or a store error, as the instruction completes (R229, R444, R445). -/
def State.completeEvent (s : State) (c : ClusterId) (f : InFlight) : CompleteEvent → State
  | .clean => s
  | .parity p =>
    (s.raise c.base (parityBit p)).trapTile c (.parity p) f.index (iOp f.word.toNat)
  | .storeUE line =>
    let s := ((s.raise c.base F.clsErrStoreUe).sf c.base F.clsErrLine line).bump c.base F.clsEccUe 1
    s.markLine (c.store / 64 + line.val)
  | .storeCE line => ((s.raise c.base F.clsErrStoreCe).sf c.base F.clsErrLine line).bump c.base F.clsEccCe 1
  | .apart _ => s

/-- A parity error outside the pipes: of the instruction that the engine reads, or of a request or returned data of the fetch engine (R444). In a
tile-step that has begun it is resolved by replay (R445); outside one only its bit shows (notes/assumptions/89.md). -/
def State.parityApart (s : State) (c : ClusterId) (p : ParityPath) : State :=
  let x := s.cl c
  let s := s.raise c.base (parityBit p)
  if x.tile.begun && s.engineBusy c && !x.voting then s.trapTile c (.parity p) x.issue (iOp (s.listWord c x.issue)) else s

/-! ### EFEED and ERES (R223) -/

/-- One record or byte copied, and the position counted on: EFEED from the store to the feed ring, ERES from the result ring to
the store. -/
def State.feedOne (s : State) (c : ClusterId) (index w : Nat) (f : FeedRec) (k : Nat) : State :=
  let eres := iOp w == 0xC1
  let unit := if eres then 1 else 8
  let pos := (f.pos + k) % f.entries eres
  let ring := s.windowAddr (s.rf c.base F.exeSession) f.die (f.base + pos * unit)
  let near := c.store + iLine w + k * unit
  let src := if eres then ring else near
  let p : Piece := { addr := if eres then near else ring, bytes := s.bytes src unit, poison := s.anyPoison src unit }
  let s := if eres then s.noteInput c src p.bytes else s
  let s := ((s.noteRead c.die src unit).touchRx src unit).emitPieces c index w [p]
  s.enginePost c index (iOp w) f.die f.ready 1

/-- As many records or bytes as their waits on FREE_SEM allow are copied, with fuel for all of them. -/
def State.feedSome (s : State) (c : ClusterId) (index w : Nat) (f : FeedRec) : Nat → Nat → State × Nat
  | 0, k => (s, k)
  | fuel + 1, k =>
    if iCount w ≤ k then (s, k)
    else
      match s.take c.die f.free 1 with
      | none => (s, k)
      | some s => (s.feedOne c index w f k).feedSome c index w f fuel (k + 1)

/-- The feed instruction at the front of the finish pipe works on; its position is written back when it is done. -/
def State.feedFront (s : State) (c : ClusterId) : State :=
  let x := s.cl c
  match x.finPipe with
  | [] => s
  | f :: rest =>
    let w := f.word.toNat
    if iClass w ≠ 6 ∨ iCount w ≤ f.done then s
    else
      let raw := s.bytes (c.store + iRec w) 64
      let r := parseFeed raw
      let t := s.feedSome c f.index w r (iCount w - f.done) f.done
      let s := t.1.setCl c { t.1.cl c with finPipe := { f with done := t.2 } :: rest }
      if t.2 = iCount w then
        s.emitPieces c f.index w [{ addr := c.store + iRec w + 12, bytes := natLe 4 ((r.pos + t.2) % r.entries (iOp w == 0xC1)) }]
      else s

/-- Is an instruction done, so that it may complete? -/
def InFlight.finished (f : InFlight) : Bool := iClass f.word.toNat != 6 || decide (iCount f.word.toNat ≤ f.done)

/-- Is an instruction the lookup half of a pair (R214)? -/
def isLookup (w : Nat) : Bool := iOp w == 0x21 || iOp w == 0x61

/-- A lookup instruction resolves from a half of the buffer only once its build is complete: its TBUILD has left the finish pipe (R181). -/
def Cluster.buildOpen (x : Cluster) (f : InFlight) : Bool :=
  isLookup f.word.toNat && x.finPipe.any (fun g => g.index + 1 == f.index && iOp g.word.toNat == 0x40)

/-- The halves of the lookup buffers that the completed lookup instruction of an index has resolved are released (R181). -/
def releaseTables (index : Nat) (bs : List Built) : List Built := bs.filter (fun b => b.index + 1 != index)

/-- The oldest instruction of a pipe completes (R218); with a parity error it does so once the replay has resolved it (R445). -/
def State.completeFront (s : State) (c : ClusterId) (p : Pipe) (ev : CompleteEvent) : State :=
  if !s.engineBusy c || !s.bit c.base F.clsCtrlIslandEn || (s.cl c).voting then s
  else
    let s := if p = .finish then s.feedFront c else s
    let x := s.cl c
    match (if p = .unit then x.unitPipe else x.finPipe) with
    | [] => s
    | f :: rest =>
      if !f.finished || (p == .unit && x.buildOpen f) then s
      else
        let s := s.completeEvent c f ev
        let x := s.cl c
        if x.voting then s
        else
        let s := s.setCl c (if p = .unit then { x with unitPipe := rest, tables := if isLookup f.word.toNat then releaseTables f.index x.tables else x.tables }
          else { x with finPipe := rest })
        s.completed c f.index f.word.toNat

end Sys2Proof.Machine
end

