-- ==== Sys2Proof/Machine/Recovery.lean ====
section
/-!
DEFINITION. Drain (R461 to R465), forced no-reference pictures (R71, R72), partition resets (R554 to R556) and the wrapper of every
meaning: a command acts while the package, or its die, is powered, out of reset and not tripped; then poison events of a partition
that is not in SERVICE reset it (R287).
-/

namespace Sys2Proof.Machine

/-- Is any session open? -/
def State.anySession (s : State) : Bool := s.sessions.any (fun e => e.2.kind != .none)

/-- The numbers of the open sessions. -/
def State.openSessions (s : State) : List Nat := (s.sessions.filter (fun e => e.2.kind != .none)).map (·.1)

/-! ### Chart changes in SERVICE (R473) -/

/-- A region word of the chart changed; GENERATION counts every change (R469). -/
def State.setRegionWord (s : State) (d r w : Nat) : State :=
  if s.regionWord d r = w % 2 ^ 64 then s
  else
  { s with chart := { s.chart with regions := Sparse.put (fun _ => 0) s.chart.regions (8 * d + r) (BitVec.ofNat 64 w)
                                   generation := s.chart.generation + 1 } }

/-- The state of a slot in the chart changed. -/
def State.setSlot (s : State) (c : ClusterId) (st : Nat) : State :=
  s.setRegionWord c.die c.region (setFieldN (s.regionWord c.die c.region) (3 * c.slot + 2) (3 * c.slot) st)

/-! ### Drain (R463) -/

/-- Does a session's image use the logical cluster that a physical cluster stands for? -/
def State.usesCluster (s : State) (n : Nat) (c : ClusterId) : Bool := (s.clustersOfSession n).contains c

/-- Jobs of a session that wait, completed with a status. -/
def State.failQueued (s : State) (n status : Nat) : State :=
  let ses := s.ses n
  let waiting := ses.jobs.filter (fun j => j.phase == .queued)
  let s := s.setSes n { ses with jobs := ses.jobs.filter (fun j => j.phase != .queued) }
  waiting.foldl (fun s j => (s.closeCmd j.queue).complete j.queue
    { tag := j.tag, session := n, kind := Ck.error, status := status, sqHead := j.sqHead, seq := j.seq }) s

/-- A CoE emergency message: the mailbox-in queue holds 16, and a further one is discarded with EMCY_LOST (R504). The session core of die 12, which
sends it, has an event (R430; notes/assumptions/57.md). -/
def State.emergencyMsg (s : State) (code field : Nat) : State :=
  let s := s.event 12 sessionCore (BitVec.ofNat 16 code)
  if 16 ≤ s.ect.emergencies.length then s.raise die12 F.ectErrEmcyLost
  else { s with ect := { s.ect with emergencies := s.ect.emergencies ++ [(BitVec.ofNat 16 code, BitVec.ofNat 16 field)] } }

/-- A drain abandons an activation that waits, with ACT_BUSY, when a session is open (R482). -/
def State.abandonActivation (s : State) : State :=
  let st := s.rf die12 F.fwcActStatusCode
  if (st = 1 ∨ st = 2) ∧ s.anySession then s.sf die12 F.fwcActStatusCode 0x1B else s

/-- Steps 1 to 5 of R463: DRAINED, FAULT_N, the suspects FLAGGED, the sessions concerned ended, the waiting jobs of those that are
not live refused, the live streams marked to end at their next bell. A second cause during a drain changes only the chart (R482). -/
def State.startDrain (s : State) (card : List Byte) (flagged : List ClusterId) (ends : Nat → Bool) : State :=
  let s := flagged.foldl (fun s c => s.setSlot c 5) s
  match s.pkg.drain with
  | some d => { s with pkg := { s.pkg with drain := some { d with flagged := (d.flagged ++ flagged).eraseDups } } }
  | none =>
    let s := { s with pkg := { s.pkg with drained := true, drainedN := false, faultN := false, ready := false,
                                          drain := some { card := card, flagged := flagged.eraseDups } } }
    let s := (s.emergencyMsg 0xFF80 0).abandonActivation
    let s := s.openSessions.foldl (fun s n => if ends n then s.endSession n St.deviceDrained else s) s
    s.openSessions.foldl (fun s n =>
      if (s.ses n).live then s.setSes n { s.ses n with stopAtBell := some St.deviceDrained } else s.failQueued n St.deviceDrained) s

/-- The newest card of a die. -/
def State.newestCard (s : State) (d : Nat) : List Byte := (s.die d).cards.getLastD []

/-- A report card against a cluster, with the drain of R463 when it makes the cluster suspect (R461). -/
def State.accuse (s : State) (i : CardInfo) : State :=
  match i.cluster with
  | none => s.report i
  | some c =>
    let r := s.fileCard i
    if r.2 then r.1.startDrain (r.1.newestCard i.die) [c] (fun n => s.usesCluster n c) else r.1

/-! ### Forced no-reference pictures (R71, R72) -/

/-- A stream must code a no-reference picture: the earliest picture none of whose slice units has left. The work on one that reads references is
discarded and starts again without them, at its scheduler core's next turn (R71). -/
def State.forceNoref (s : State) (n : Nat) : State :=
  let ses := s.ses n
  if ses.kind ≠ .encode then s
  else
    let cur := ses.enc.current.map (fun p =>
      if p.unitOut then p
      else if p.noref then { p with forced := true }
      else { p with noref := true, forced := true, reads := [], side := [], restart := true })
    s.setSes n { ses with enc := { ses.enc with obligation := true, current := cur } }

/-- The sessions whose work a cluster executed within its replay window. -/
def State.windowSessions (s : State) (c : ClusterId) : List Nat :=
  let x := s.cl c
  (x.tile.session :: x.window.map (·.session)).eraseDups

/-- R71 for the encode streams of a cluster; NOREF_FORCED says whether it applied. -/
def State.norefOf (s : State) (c : ClusterId) : State := (s.windowSessions c).foldl State.forceNoref s

def State.norefApplies (s : State) (c : ClusterId) : Bool := (s.windowSessions c).any (fun n => (s.ses n).kind == .encode)

/-! ### Partition resets -/

/-- Keys of a die's window that a partition reset returns to their reset values: the blocks of clusters, entropy units and
semaphores (R555). Registers that R555 lists neither as reset nor as kept stay (notes/assumptions/90.md). -/
def resetKeys (d k : Nat) : Bool :=
  let o := k % 0x100_0000
  k / 0x100_0000 == d && (decide (0x10_0000 ≤ o ∧ o < 0x20_0000) || decide (0x60_0000 ≤ o ∧ o < 0x68_0000)
    || decide (0x70_0000 ≤ o ∧ o < 0x74_0000))

/-- What the health block keeps of a cluster over a partition reset, which resets no HLT register (R555). -/
def Cluster.kept (x : Cluster) : Option Cluster :=
  let y : Cluster := { lastPass := x.lastPass, lastExam := x.lastExam, cardStamps := x.cardStamps }
  if y = {} then none else some y

/-- One member die reset; the health block keeps its registers, cards and clusters in RECESS (R473, R482, R555): its clusters, entropy units, semaphores, queues and windows; stores and die buffers zeroed (R361). -/
def State.resetDie (s : State) (d : Nat) : State :=
  let x := s.die d
  let s := { s with regs := s.regs.filter (fun e => !resetKeys d e.1)
                    clusters := s.clusters.filterMap (fun (e : Nat × Cluster) => if e.1 / 136 == d then e.2.kept.map (fun x => (e.1, x)) else some e)
                    fetch := s.fetch.filter (fun e => !(e.1 / 8704 == d))
                    channels := s.channels.filter (fun e => !(e.1 / 32 == d))
                    posts := s.posts.filter (fun p => p.die != d) }
  let s := s.setDie d { x with windows := [], cache := [], faults := [], answers := [], invalid := none }
  let s := (s.sf (key d 0) F.memDbFree 224).sf (key d 0) F.memInvStatusBusy 0
  let s := s.zeroRange (dbufAddr d 0) 0x1_0000_0000
  [scheduler, serviceCore, healthCore].foldl (fun s p => s.sf (procBase d p) F.fwcProcStatusState Ps.starting) s

/-- The queues of some dies show DELETED_BY_RESET (R354). -/
def State.deleteQueues (s : State) (m : BitVec 25) : State :=
  (s.queues.map (·.1)).foldl (fun s q =>
    let x := s.que q
    if q ≠ 0 ∧ m.getLsbD x.homeroom ∧ (s.qState q = Qs.active ∨ s.qState q = Qs.stalled) then
      let s := s.sf (s.qBase q) F.fwcQStatusState Qs.deletedByReset
      s.setQue q { x with fetched := [], held := [], kept := none, openCmds := 0 }
    else s) s

/-- The partitions that share a die with a mask, and the dies they hold. -/
def State.affected (s : State) (m : BitVec 25) : BitVec 25 :=
  (s.parts.filter (fun p => p.dies &&& m != 0)).foldl (fun a p => a ||| p.dies) 0

/-- Requests to leave TEST of the partitions that share a die with a mask, which a reset takes out of TEST, are answered (R329). -/
def State.answerLeaves (s : State) (m : BitVec 25) : State :=
  ((s.parts.filter (fun p => p.dies &&& m != 0)).flatMap (fun p => p.leaving.getD [])).foldl (fun s d =>
    (s.closeCmd 0).complete 0 { tag := d.1, kind := Ck.done, sqHead := d.2 }) s

/-- A reset of every partition that shares a die with the mask: its dies form one partition, the others one for each connected
set (R554, R555). -/
def State.resetPartition (s : State) (m : BitVec 25) (poisonCount : Nat) : State :=
  let all := s.affected m
  let s := s.openSessions.foldl (fun s n => if (s.ses n).dies &&& all != 0 then s.endSession n St.partitionReset else s) s
  let s := (s.deleteQueues all).answerLeaves m
  let s := (diesOf (all ||| m)).foldl State.resetDie s
  let rest := components (all &&& ~~~ m)
  { s with parts := s.parts.filter (fun p => p.dies &&& (all ||| m) == 0)
                    ++ [{ dies := m, waiting := m, poisonResets := poisonCount }]
                    ++ rest.map (fun c => { dies := c, waiting := c }) }

/-- Poison resets a partition (R287); the third in succession before SERVICE leaves it in START-UP (R556). -/
def State.poisonReset (s : State) (p : Partition) : State :=
  if 3 ≤ p.poisonResets then s
  else
    let s := s.resetPartition p.dies (p.poisonResets + 1)
    if p.poisonResets = 2 then
      let s := s.raise die12 F.fwcStartStatusPoisonLoop
      { s with pkg := { s.pkg with faultN := false } }
    else s

/-- A drain has left no session: every partition in SERVICE or TEST enters RECOVERY, and requests to leave TEST are answered (R328, R329, R463). -/
def State.toRecovery (s : State) : State :=
  let out := fun (p : Partition) => p.state == .service || p.state == .test
  if s.parts.any out then
    let s := s.answerLeaves ((s.parts.filter (fun p => p.state == .test)).foldl (fun a p => a ||| p.dies) 0)
    { s with parts := s.parts.map (fun p => if out p then { p with state := .recovery, exams := [], leaving := none } else p) }
  else s

/-- What follows every command: the poison events it met, and RECOVERY once a drain has left no session (R287, R463). -/
def State.settle (s : State) : State :=
  let s := (s.parts.filter (fun p => p.state != .service && s.pev.any (fun d => p.dies.getLsbD d))).foldl State.poisonReset s
  let s := if s.pkg.drain.isSome && !s.anySession then s.toRecovery else s
  { s with pev := [] }

/-- A command of the package takes effect while it is powered and out of package reset. -/
def onPackage (s : State) (f : State → State) : Result := .next (if s.on then f s else s).settle

/-- A command of a die takes effect while its clocks run. -/
def onDie (d : Nat) (s : State) (f : State → State) : Result := .next (if s.dieOn d then f s else s).settle

end Sys2Proof.Machine
end

