-- ==== Sys2Proof/Machine/Decoder.lean ====
section
/-!
DEFINITION. The decoder of a stream: each unit at the front of a session's bytes, by the table of R124, with the checks of R112, the
loss rule of R75 and the completions of R125.
-/

namespace Sys2Proof.Machine

/-- The session with its decoder changed. -/
def State.setDec (s : State) (n : Nat) (d : Decoder) : State := s.setSes n { s.ses n with dec := d }

/-- The session with its counters changed. -/
def State.count (s : State) (n : Nat) (f : Counters → Counters) : State :=
  s.setSes n { s.ses n with counters := f (s.ses n).counters }

/-- The counters of R124. -/
def addLost (k : Nat) (c : Counters) : Counters := { c with lost := hold32 c.lost k }
def addCrc (c : Counters) : Counters := { c with crcErr := hold32 c.crcErr 1 }
def addUnknown (c : Counters) : Counters := { c with unknown := hold32 c.unknown 1 }
def addLate (c : Counters) : Counters := { c with late := hold32 c.late 1 }
def addDuplicate (c : Counters) : Counters := { c with duplicate := hold32 c.duplicate 1 }

/-- The open picture is not written: counted in LOST once (R75, R347). -/
def State.loseOpen (s : State) (n : Nat) : State :=
  let d := (s.ses n).dec
  match d.current with
  | some p => if p.counted then s else (s.setDec n { d with current := some { p with counted := true } }).count n (addLost 1)
  | none => s

/-- The open picture is treated as closed with slices missing: no picture is written until the next refresh point (R75). -/
def State.closeMissing (s : State) (n : Nat) : State :=
  let s := s.loseOpen n
  let d := (s.ses n).dec
  match d.current with
  | some _ => s.setDec n { d with current := none, blocked := true }
  | none => s

/-- A decoder processes the unit at the front of its bytes when it runs a job, no FINAL is outstanding (R70), and that unit has the
type; a unit whose LENGTH is not that of its own fields is skipped and counted (R124). -/
def State.takeUnit (s : State) (n type : Nat) (work : State → List Byte → List Byte → State) : State :=
  let ses := s.ses n
  if ses.kind ≠ .decode ∨ (s.runningJob n).isNone ∨ ses.dec.closing.isSome then s
  else
    match frontOf ses.dec.inbuf with
    | .unit t v payload raw =>
      if t ≠ type ∨ v ≠ 1 then s
      else
        let s := s.setDec n { ses.dec with inbuf := ses.dec.inbuf.drop raw.length, scanning := false }
        let audit := match ses.dec.stream with | some p => p.audit | none => false
        let s := if payload.length ≠ lengthOf type payload audit then s.count n addUnknown else work s payload raw
        s.decodeIdle n
    | _ => s

/-! ### Stream units -/

/-- A stream unit: a refresh point (R74), checked against the image (R112). The PIC expected next is the previous PIC plus 1 (R124); before any
picture of the session it is PIC_BASE (R118; notes/assumptions/56.md). -/
def State.takeStreamUnit (s : State) (n : Nat) (payload : List Byte) : State :=
  let s := s.closeMissing n
  let ses := s.ses n
  let p := parseStream payload
  let expect := if ses.dec.previous.isSome then ses.dec.expect else some (BitVec.ofNat 32 p.picBase)
  let d := { ses.dec with stream := some p, expect := expect, fresh := true, refs := [] }
  match checkStream ses.image p with
  | none => s.setSes n { ses.emptyHist with dec := { d with blocked := false } }
  | some status =>
    let s := (s.setSes n { ses.emptyHist with dec := { d with blocked := true } }).errEvent ses.homeroom status
    match s.runningJob n with
    | some j => s.complete j.queue { session := n, kind := Ck.error, status := status, seq := j.seq }
    | none => s

def execStreamUnit (s_ : SessionNo) (s : State) : Result :=
  onPackage s (fun s => s.takeUnit s_ Wu.stream (fun s payload _ => s.takeStreamUnit s_ payload))

/-! ### Picture units -/

/-- A picture opens: it is the previous PIC from now on; while pictures are blocked it counts in LOST (R75, R347). -/
def State.openPicture (s : State) (n : Nat) (p : DecPicture) (blocks : Bool) : State :=
  let d := (s.ses n).dec
  let s := s.setDec n { d with current := some p, previous := some p.pic, expect := some (p.pic + 1), blocked := d.blocked || blocks }
  if d.blocked || blocks then s.loseOpen n else s

/-- How many PIC values lie between the one expected and the one that came. -/
def skipped (expect : Option W32) (pic : W32) : Nat :=
  match expect with
  | some e => (pic - e).toNat
  | none => 0

/-- The rows of R124 for a picture unit. -/
def State.takePicture (s : State) (n : Nat) (payload raw : List Byte) : State :=
  let d := (s.ses n).dec
  let pic : W32 := BitVec.ofNat 32 (beAt payload 0 4)
  let noref := bitN (beAt payload 4 1) 0
  let q := match d.stream with | some x => x.q | none => 0
  let p : DecPicture := { pic := pic, slices := beAt payload 6 2, noref := noref, unit := raw, side := lanesOfField payload 8
                          reads := if noref then [] else d.refs, q := q }
  match d.stream with
  | none => (s.setDec n { d with blocked := true }).count n (addLost 1)
  | some params =>
    if d.current.map (·.pic) = some pic ∨ d.previous = some pic then s.count n addDuplicate
    else if d.current.isSome then
      let gap := skipped d.expect pic
      ((s.closeMissing n).count n (addLost gap)).openPicture n p true
    else if skipped d.expect pic ≠ 0 then (s.count n (addLost (skipped d.expect pic))).openPicture n p true
    else if p.slices ≠ sliceCount params then s.openPicture n { p with bad := true } true
    else s.openPicture n p (d.fresh && !p.noref)

def execPictureUnit (s_ : SessionNo) (s : State) : Result :=
  onPackage s (fun s => s.takeUnit s_ Wu.picture (fun s payload raw => s.takePicture s_ payload raw))

/-! ### Slice units -/

/-- How many of the slices 0, 1, … are received without a gap: those that can be decoded (R54, R86). -/
def decodable (p : DecPicture) : Nat := ((List.range p.slices).takeWhile (fun i => (goodSlice p i).isSome)).length

/-- A row of output samples written into its buffer, which is never passed (R46); each clamped sample counts (R49). Whether the write
was refused is said beside the state. -/
def State.writeRow (s : State) (n : Nat) (b : Buffer) (row : Nat) (vs : List (Int × Bool)) : State × Bool :=
  let ses := s.ses n
  let bytes := vs.flatMap (fun v => sampleContainer ses.params.format v.1)
  let w := s.virtWrite ses.homeroom n (b.addr + row * b.pitch) (bytes.take (b.len - row * b.pitch))
  (w.1.saturate n (vs.filter (·.2)).length, w.2)

/-- The samples that slice k decodes, written to the output picture (R52, R125); a destination that cannot be written ends the session (R283). -/
def State.writeSlice (s : State) (n : Nat) (j : Job) (p : DecPicture) (k : Nat) : State :=
  let ses := s.ses n
  let rows := ((planesOf ses.params).zip j.outs).zipIdx.flatMap (fun x => (outputRows ses.params x.2 k x.1.1.2).map (fun r => (x.2, x.1.1.1, x.1.2, r)))
  let w := rows.foldl (fun (a : State × Bool) x =>
    let r := a.1.writeRow n x.2.2.1 x.2.2.2 (ses.outputRow p x.1 x.2.1 x.2.2.2)
    (r.1, a.2 && r.2)) (s, true)
  if w.2 then w.1 else w.1.endSession n St.fetDstFault

/-- The slices that are decoded, or decoded again, from slice i on: each is written to the output picture and has its completion (R124, R125).
A session that ends on the way posts no more. -/
def State.sliceDone (s : State) (n i : Nat) : State :=
  match (s.ses n).dec.current, s.runningJob n with
  | some p, some j =>
    if (s.ses n).dec.blocked then s
    else
      ((List.range (decodable p)).filter (fun k => decide (i ≤ k))).foldl (fun s k =>
        let s := s.writeSlice n j p k
        if (s.ses n).kind ≠ .decode then s
        else
          let s := if k = 0 then s.noteFirstSlice n else s
          s.complete j.queue { tag := j.tag, session := n, kind := Ck.slice, sqHead := j.sqHead, seq := p.pic, slice := k,
                               edition := match heldSlice p k with | some x => x.edition | none => 0 }) s
  | _, _ => s

/-- The rows of R124 for a slice unit; one whose segment was damaged counts as not received, so that its unit is taken again (R86). -/
def State.takeSlice (s : State) (n : Nat) (payload raw : List Byte) : State :=
  let d := (s.ses n).dec
  let pic : W32 := BitVec.ofNat 32 (beAt payload 0 4)
  let i := beAt payload 4 2
  let edition := beAt payload 6 1 % 8
  match d.stream, d.current with
  | none, _ => s
  | some _, none => s.count n addLate
  | some _, some p =>
    if p.pic ≠ pic then s.count n addLate
    else if p.bad then s
    else if p.slices ≤ i then s.count n addUnknown
    else
      let new : Slice := { index := i, edition := edition, lanes := lanesOfField payload 12, unit := raw }
      let q := { p with held := p.held.filter (fun x => x.index != i) ++ [new], damaged := p.damaged.filter (fun x => x.1 != i) }
      let hold := (s.setDec n { d with current := some q }).sliceDone n i
      match goodSlice p i with
      | some old => if old.edition < edition then hold else s.count n addDuplicate
      | none => hold

def execSliceUnit (s_ : SessionNo) (s : State) : Result :=
  onPackage s (fun s => s.takeUnit s_ Wu.slice (fun s payload raw => s.takeSlice s_ payload raw))

/-! ### Close and dropped-picture units -/

/-- Every slice of the picture is held, at its final edition or above. -/
def closesWhole (p : DecPicture) (payload : List Byte) : Bool :=
  beAt payload 4 2 == p.slices && (List.range p.slices).all (fun i =>
    match heldSlice p i with
    | some x => decide (beAt payload (24 + i) 1 % 8 ≤ x.edition)
    | none => false)

/-- The input bytes of a decoded picture: its picture unit, its slice units in ascending SLICE, its close unit (R320). -/
def decodedBytes (p : DecPicture) (close : List Byte) : List Byte :=
  p.unit ++ (List.range p.slices).flatMap (fun i => match heldSlice p i with | some x => x.unit | none => []) ++ close

/-- The rows of R124 for a close unit; a whole picture has its FINAL once the lists of its job have ended. -/
def State.takeClose (s : State) (n : Nat) (payload raw : List Byte) : State :=
  let d := (s.ses n).dec
  match d.stream, d.current with
  | none, _ => s
  | some _, none => s.count n addLate
  | some _, some p =>
    if p.pic ≠ BitVec.ofNat 32 (beAt payload 0 4) then s.count n addLate
    else if p.bad then s
    else if d.blocked || isDamaged p || !closesWhole p payload then s.closeMissing n
    else (s.setDec n { d with current := none, closing := some (p, decodedBytes p raw) }).finishJob n

def execCloseUnit (s_ : SessionNo) (s : State) : Result :=
  onPackage s (fun s => s.takeUnit s_ Wu.close (fun s payload raw => s.takeClose s_ payload raw))

/-- The rows of R124 for a dropped-picture unit. -/
def State.takeDropped (s : State) (n : Nat) (payload : List Byte) : State :=
  let d := (s.ses n).dec
  let pic : W32 := BitVec.ofNat 32 (beAt payload 0 4)
  if d.stream.isNone then s
  else
    match d.current with
    | some p =>
      if p.pic = pic then (if p.bad then s else s.setDec n { d with current := none })
      else if d.expect = some pic then
        let s := s.closeMissing n
        s.setDec n { (s.ses n).dec with previous := some pic, expect := some (pic + 1) }
      else s.count n addLate
    | none =>
      if d.expect = some pic then s.setDec n { d with previous := some pic, expect := some (pic + 1) } else s.count n addLate

def execDroppedPictureUnit (s_ : SessionNo) (s : State) : Result :=
  onPackage s (fun s => s.takeUnit s_ Wu.dropped (fun s payload _ => s.takeDropped s_ payload))

/-! ### Bytes that are no unit, and units of no known kind -/

/-- Bytes that cannot be parsed: the error counts once for the unit and its scan, which goes on to the next SYNC that begins a good
unit (R124). -/
def State.crcScan (s : State) (n : Nat) : State :=
  let d := (s.ses n).dec
  if (s.ses n).kind ≠ .decode ∨ (s.runningJob n).isNone ∨ d.closing.isSome ∨ frontOf d.inbuf ≠ .bad then s
  else
    let s := if d.scanning then s else s.count n addCrc
    (s.setDec n { d with inbuf := scanForward (d.inbuf.drop 1), scanning := true }).decodeIdle n

def execCrcError (s_ : SessionNo) (s : State) : Result := onPackage s (fun s => s.crcScan s_)

/-- A unit of a reserved TYPE or another VERSION with a good CRC is skipped by LENGTH and counted (R124). -/
def State.skipUnknown (s : State) (n : Nat) : State :=
  let d := (s.ses n).dec
  if (s.ses n).kind ≠ .decode ∨ (s.runningJob n).isNone ∨ d.closing.isSome then s
  else
    match frontOf d.inbuf with
    | .unit t v _ raw =>
      if v = 1 ∧ 1 ≤ t ∧ t ≤ 5 then s
      else ((s.setDec n { d with inbuf := d.inbuf.drop raw.length, scanning := false }).count n addUnknown).decodeIdle n
    | _ => s

def execUnknownUnit (s_ : SessionNo) (s : State) : Result := onPackage s (fun s => s.skipUnknown s_)

end Sys2Proof.Machine
end

