-- ==== Sys2Proof/Machine/Encoder.lean ====
section
/-!
DEFINITION. The encoder of a stream: refresh points (R74, R500), the begin of a picture (R117, R118, R132), picture and slice units with
their editions (R117, R119, R121), rate control (R129), the close unit (R115, R122) and a dropped picture (R116, R346).
-/

namespace Sys2Proof.Machine

/-- The session with its encoder changed. -/
def State.setEnc (s : State) (n : Nat) (e : Encoder) : State := s.setSes n { s.ses n with enc := e }

/-- A unit leaves the encoder: it goes to the output buffer of its job behind the units before it, cut at the buffer's length
(notes/assumptions/27.md), and to the outside. Its STREAM is the session number (R108; notes/assumptions/70.md). A destination that cannot be
written ends the session (R283). -/
def State.emitUnit (s : State) (n type : Nat) (payload : List Byte) : State :=
  let unit := wsfUnit type n payload
  let s := s.send (.wsf n unit)
  let e := (s.ses n).enc
  match e.current, s.runningJob n with
  | some p, some j =>
    let s := s.setEnc n { e with current := some { p with emitted := p.emitted + unit.length } }
    match j.outs with
    | b :: _ =>
      let w := s.virtWrite (s.ses n).homeroom n (b.addr + p.emitted) (unit.take (b.len - p.emitted))
      if w.2 then w.1 else w.1.endSession n St.fetDstFault
    | [] => s
  | _, _ => s

/-! ### Refresh points and the begin of a picture -/

/-- The parameters with every staged value applied (R500). -/
def applyStaged (p : StreamParams) (g : Staged) : StreamParams :=
  { p with
    q := if g.q = 0xFF then p.q else g.q.toNat
    capPic := if g.capPic = 0 then p.capPic else g.capPic.toNat
    capPer := if g.capPer = 0 then p.capPer else g.capPer.toNat
    periodic := if g.refresh = 0 then p.periodic else g.refresh != 0xFFFF
    refresh := if g.refresh = 0 ∨ g.refresh = 0xFFFF then p.refresh else g.refresh.toNat }

/-- A refresh point is due before the next picture (R74). -/
def refreshNow (e : Encoder) : Bool :=
  e.refreshDue || (e.params.periodic && decide (e.params.refresh ≤ e.sinceRefresh))

/-- period_spent at the begin of a new rate period (R132). -/
def carryOver (e : Encoder) : Nat := e.periodSpent - e.params.capPer

/-- The next picture number is taken; at a refresh point the scale history empties, the references are dropped, staged values apply and
a stream unit leaves (R74, R117, R132, R500). The input samples are converted and padded, and the networks are passed the references that the
picture reads and Q (R48, R51, R57, R73, R127). -/
def State.beginPicture (s : State) (n : Nat) (input : List Byte) : State :=
  let ses := s.ses n
  let e := ses.enc
  let at_ := refreshNow e
  let first := e.sinceRefresh == 0
  let fresh := e.noneClosed || at_
  let params := if at_ then { applyStaged e.params e.staged with picBase := e.nextPic.toNat, audit := s.digestForm n } else e.params
  let noref := fresh || e.obligation
  let p : EncPicture := { pic := e.nextPic, noref := noref, forced := e.obligation, requested := fresh && (if at_ then !first else e.requested)
                          x := convertInput params input, reads := if noref then [] else e.refs, q := params.q }
  if at_ then
    let e := { e with params := params, staged := {}, current := some p, refreshDue := false, noneClosed := true,
                      requested := !first, sinceRefresh := 1, refs := [], periodSpent := carryOver e, periodPics := 1 }
    let s := s.setSes n { ses.emptyHist with enc := e }
    s.emitUnit n Wu.stream (streamPayload params)
  else
    let new := decide (e.params.periodPics ≤ e.periodPics)
    s.setEnc n { e with current := some p, sinceRefresh := e.sinceRefresh + 1,
                        periodSpent := if new then carryOver e else e.periodSpent,
                        periodPics := if new then 1 else e.periodPics + 1 }

/-! ### Slice units -/

/-- The bytes of lane l by a lane descriptor table, and whether one of its lines is poisoned (R100). -/
def State.laneBytes (s : State) (n : Nat) (t : LaneTable) (l : Nat) : List Byte × Bool :=
  let a := s.windowAddr n t.die (t.offset.toNat + 8 * l)
  let off := s.le a 4 % 2 ^ 24
  let len := s.le (a + 4) 4 % 2 ^ 24
  let b := s.windowAddr n t.die off
  (s.bytes b len, s.anyPoison a 8 || s.anyPoison b len)

/-- The lanes of a segment. -/
def State.laneList (s : State) (n : Nat) (t : LaneTable) : List (List Byte) := (List.range 8).map (fun l => (s.laneBytes n t l).1)

/-- Is a table, with the lanes that it names, inside the window of the session and free of poison? -/
def State.tableInside (s : State) (n : Nat) (t : LaneTable) : Bool :=
  s.inWindow n t.die t.offset.toNat 64 && (List.range 8).all (fun l =>
    let a := s.windowAddr n t.die (t.offset.toNat + 8 * l)
    s.inWindow n t.die (s.le a 4 % 2 ^ 24) (s.le (a + 4) 4 % 2 ^ 24))
def State.tablePoison (s : State) (n : Nat) (t : LaneTable) : Bool := (List.range 8).any (fun l => (s.laneBytes n t l).2)

/-- The bytes of the picture so far at final editions: the picture unit and the slice units before slice i (R129). -/
def sizeBefore (p : EncPicture) (i : Nat) : Nat :=
  p.unitSize + ((p.slices.filter (fun x => decide (x.index < i))).map (·.unit.length)).sum

/-- CAPPED, CAP_FIRST and CAP_COUNT of slice i (R129, R130), from the latents of the slice: the first tile whose cost passes the budget is
capped, and every tile after it is capped too, in this slice and in every later one; no tile is taken once the sizes have used the budget. -/
def capOf (e : Encoder) (p : EncPicture) (i : Nat) (ls : List LatentSym) : Bool × Nat × Nat :=
  let tiles := sliceTiles e.params i
  let before := (p.slices.filter (fun x => decide (x.index < i))).any (fun x => decide (0 < x.cap))
  let used := 128 * sizeBefore p i
  let budget := budgetOf e.params e.periodSpent
  let first := if before || decide (budget ≤ used) then 0 else firstCapped budget used (tileCosts e.params i ls)
  if first < tiles then (true, first, tiles - first) else (false, 0, 0)

/-- The picture unit leaves directly before the first slice unit, with the side lanes (R117); from here on a report card concerns the
next picture (R71), and the close discharges the obligation that stands (R72). -/
def State.emitPicture (s : State) (n : Nat) (side : List (List Byte)) : State :=
  let e := (s.ses n).enc
  match e.current with
  | none => s
  | some p =>
    if p.unitOut then s
    else
      let payload := picturePayload p.pic p.noref p.forced p.requested (sliceCount e.params) side
      let s := s.setEnc n { e with obligation := e.obligation && !p.noref,
                                   current := some { p with unitOut := true, sideLanes := side, owed := p.noref && e.obligation, unitSize := 16 + payload.length } }
      s.emitUnit n Wu.picture payload

/-- A slice unit leaves: edition 0, or the next edition of a slice that has changed (R117, R119). -/
def State.emitSlice (s : State) (n i edition : Nat) (lanes : List (List Byte)) (cap : Bool × Nat × Nat) (maxima : Sparse Nat) : State :=
  let e := (s.ses n).enc
  match e.current with
  | none => s
  | some p =>
    let payload := slicePayload p.pic i edition cap.1 cap.2.1 cap.2.2 lanes
    let new : Slice := { index := i, edition := edition, lanes := lanes, unit := wsfUnit Wu.slice n payload, cap := cap.2.2,
                          maxima := maxima }
    let more := hold32 e.reeditions (if edition = 0 then 0 else 1)
    let p := { p with slices := p.slices.filter (fun x => x.index != i) ++ [new] }
    let s := (s.setEnc n { e with current := some p, reeditions := more }).emitUnit n Wu.slice payload
    if i = 0 ∧ edition = 0 then s.noteFirstSlice n else s

/-! ### A dropped picture -/

/-- The side lanes once every one of them is coded; a picture dropped before that has none (R117). -/
def EncPicture.codedSide (p : EncPicture) : List (List Byte) :=
  let ls := (List.range 8).map (Sparse.get (fun _ => none) p.side)
  if ls.all (·.isSome) then ls.map (·.getD []) else []

/-- The picture of the running or next job of an encoder is dropped (R116, R117, R133, R346): its picture unit leaves in any case, then
the dropped-picture unit; it is no reference and obligations that it would have discharged stand (R72). -/
def State.dropPicture (s : State) (n reason : Nat) : State :=
  let s := if (s.ses n).enc.current.isNone then s.beginPicture n [] else s
  let s := s.emitPicture n (match (s.ses n).enc.current with | some p => p.codedSide | none => [])
  match (s.ses n).enc.current with
  | none => s
  | some p =>
    let s := s.emitUnit n Wu.dropped (droppedPayload p.pic reason)
    if (s.ses n).kind ≠ .encode then s
    else
      let e := (s.ses n).enc
      s.setEnc n { e with current := none, nextPic := p.pic + 1, obligation := e.obligation || p.owed || reason == 2 }

/-- The picture number that a drop concerns: that of the open picture, else the next one (R347). -/
def droppedPic (ses : Session) (j : Job) : W32 :=
  match ses.kind with
  | .encode => (match ses.enc.current with | some p => p.pic | none => ses.enc.nextPic)
  | .decode =>
    (match ses.dec.current, ses.dec.closing with
     | some p, _ => p.pic
     | none, some x => x.1.pic
     | none, none => ses.dec.expect.getD j.seq)
  | _ => ses.jobNumber

/-- The decoder after a drop (R347): no picture is written until the next refresh point; the bytes of a job that had begun are
discarded; a PIC not yet seen is taken as dropped; the drop does not count in LOST. -/
def dropDecoder (ses : Session) (begun : Bool) : Session :=
  let d := ses.dec
  let unseen := d.current.isNone && d.closing.isNone
  let counted := match d.current with | some p => p.counted | none => false
  let d := { d with current := none, closing := none, blocked := true, cut := if begun then false else d.cut,
                    inbuf := if begun then [] else d.inbuf, scanning := if begun then false else d.scanning,
                    previous := if unseen && d.expect.isSome then d.expect else d.previous,
                    expect := if unseen then d.expect.map (· + 1) else d.expect }
  { ses with dec := d, counters := { ses.counters with lost := if counted then ses.counters.lost - 1 else ses.counters.lost } }

/-- A job is dropped (R302, R346, R347, R354): its work is given up; an encoder emits its dropped-picture unit, a decoder writes no
further picture until the next refresh point; DROPPED carries a replay record. -/
def State.dropRunning (s : State) (n : Nat) (j : Job) (reason : Nat) : State :=
  let begun := j.phase != .queued
  let s := if begun then s.giveUpWork n else s.stepsPast n
  let ses := s.ses n
  let pic := droppedPic ses j
  let s := s.setSes n { ses with jobs := ses.jobs.map (fun x => if x = j then { x with phase := .ended } else x) }
  let s := match ses.kind with
    | .encode => s.dropPicture n reason
    | .decode => s.setSes n (dropDecoder (s.ses n) begun)
    | _ => s
  if (s.ses n).kind = .none then s
  else
    let k := (s.ses n).counters
    let s := s.setSes n { s.ses n with counters := { k with dropped := hold32 k.dropped 1, bellDrops := hold32 k.bellDrops (b2n (reason == 1)) } }
    let s := if ses.live then { s with ect := { s.ect with jobsDropped := hold32 s.ect.jobsDropped 1 } } else s
    let c : Completion := { tag := j.tag, session := n, kind := Ck.dropped, sqHead := j.sqHead, seq := j.seq }
    (s.postJob n j c pic (s.sessionStep n).toNat true []).dropJob n

/-! ### The rows -/

/-- A running tile-step of a session has class E results: a slice that it may have contributed to waits for its checks (R123). -/
def State.tileOpen (s : State) (n : Nat) : Bool :=
  (s.clustersOfSession n).any (fun c => (s.cl c).tile.session == n && (s.cl c).tile.classE && !(s.cl c).tile.dropped)

/-- The lanes of slice i: those that its segment left in the die buffer, and those of its final codes once a tile of it is capped (R130). -/
def State.sliceLanes (s : State) (n i : Nat) (table : LaneTable) (ls : List LatentSym) (cap : Bool × Nat × Nat) : List (List Byte) :=
  if cap.1 then cappedLanes (s.ses n).enc.params i cap.2.1 ls else s.laneList n table

/-- The first capped tile of a slice; with none, a number that no tile has. -/
def firstCap (cap : Bool × Nat × Nat) : Nat := if cap.1 then cap.2.1 else 2 ^ 32

/-- Slice k coded again after a vote: it leaves with the next edition when the bytes of a lane differ, until it would need edition 8
(R119, R121). -/
def State.sliceAgain (s : State) (n : Nat) (j : Job) (p : EncPicture) (k : Nat) (table : LaneTable) (ls : List LatentSym) : State :=
  let e := (s.ses n).enc
  let next := if k + 1 < p.slices.length then some (k + 1) else none
  match p.slices.find? (fun x => x.index == k) with
  | none => s.setEnc n { e with current := some { p with recode := none } }
  | some old =>
    let s := s.setEnc n { e with current := some { p with recode := next } }
    let cap := capOf e p k ls
    let lanes := s.sliceLanes n k table ls cap
    if old.lanes = lanes then s
    else if 7 ≤ old.edition then ((s.dropRunning n j 2).afterJob n)
    else s.emitSlice n k (old.edition + 1) lanes cap (sliceMaxima e.params k (firstCap cap) ls)

/-- Slice i leaves at edition 0, behind the picture unit when it is the first (R117); each code that R130 cuts counts. -/
def State.sliceFirst (s : State) (n i : Nat) (sideTable table : LaneTable) (ls : List LatentSym) : State :=
  let s := match (s.ses n).enc.current with
    | some p => if p.unitOut then s else s.emitPicture n (s.laneList n sideTable)
    | none => s
  let e := (s.ses n).enc
  match e.current with
  | none => s
  | some p =>
    let cap := capOf e p i ls
    let s := if cap.1 then s.saturate n (cappedSats e.params i cap.2.1 ls) else s
    s.emitSlice n i 0 (s.sliceLanes n i table ls cap) cap (sliceMaxima e.params i (firstCap cap) ls)

/-- The next slice unit (R117): in order while the picture is coded, held until the checks are done when EMISSION is 1 (R123); after a
vote, each slice emitted is coded again (R119). Nothing leaves of work that is to start again (R71). -/
def State.sliceOut (s : State) (n : Nat) (sideTable table : LaneTable) (ls : List LatentSym) : State :=
  let ses := s.ses n
  match ses.kind, ses.enc.current, s.runningJob n with
  | .encode, some p, some j =>
    if p.restart || !s.tableInside n table || (!p.unitOut && !s.tableInside n sideTable) then s
    else if s.tablePoison n table || (!p.unitOut && s.tablePoison n sideTable) then s.poisonEnd n
    else
      match p.recode with
      | some k => s.sliceAgain n j p k table ls
      | none =>
        let i := p.slices.length
        if sliceCount ses.enc.params ≤ i ∨ (ses.enc.params.emission && !(s.checksDone n && !s.tileOpen n)) then s
        else s.sliceFirst n i sideTable table ls
  | _, _, _ => s

def execSliceEmit (s_ : SessionNo) (sideLanes lanes : LaneTable) (latents : List LatentSym) (s : State) : Result :=
  onPackage s (fun s => s.sliceOut s_ sideLanes lanes latents)

/-- The close unit (R115, R122): after every slice, every check and every re-emission; the picture joins the references as its synthesis from
the final codes gives it (R64), its statistics stand in the history (R69), its sizes count
in the rate period (R132), and the job is DONE (R345). -/
def State.closeOut (s : State) (n : Nat) : State :=
  let ses := s.ses n
  match ses.kind, ses.enc.current, s.runningJob n with
  | .encode, some p, some j =>
    let count := sliceCount ses.enc.params
    if s.jobWaits n j ∨ p.restart ∨ p.slices.length ≠ count ∨ p.recode.isSome ∨ s.listsEnded n = false ∨ s.checksDone n = false then s
    else if s.nanDue n then s.nanEnd n
    else if j.tainted then s.poisonEnd n
    else
      let step := s.sessionStep n
      let dig := if ses.enc.params.audit then some (resultDigest ses.image j.input step.toNat) else none
      let capped := (p.slices.map (·.cap)).sum
      let editions := (List.range count).map (fun i => match p.slices.find? (fun x => x.index == i) with | some x => x.edition | none => 0)
      let payload := closePayload p.pic count step (ses.sat.toNat - ses.enc.satAtClose.toNat) capped editions dig
      let s := s.emitUnit n Wu.close payload
      if (s.ses n).kind ≠ .encode then s
      else
        let e := (s.ses n).enc
        let lanes := (List.range count).map (fun i => match p.slices.find? (fun x => x.index == i) with | some x => x.lanes | none => [])
        let new : Reference := { pic := p.pic, planes := ses.synthPicture p.q p.sideLanes lanes p.reads }
        let e := { e with
          current := none, nextPic := p.pic + 1, noneClosed := false, refs := (new :: e.refs).take e.params.refs
          periodSpent := e.periodSpent + 8 * (sizeBefore p count + 16 + payload.length)
          satAtClose := ses.sat, cappedTiles := hold32 e.cappedTiles capped }
        let k := { ses.counters with pictures := hold32 ses.counters.pictures 1, lastSeq := p.pic
                                     forcedNoref := hold32 ses.counters.forcedNoref (b2n p.forced) }
        let s := s.setSes n { ((s.ses n).finalStat capped p.slices).closeHist with enc := e, counters := k }
        let c : Completion := { tag := j.tag, session := n, kind := Ck.done, sqHead := j.sqHead, seq := j.seq }
        ((s.postJob n j c p.pic step.toNat false j.input).dropJob n).afterJob n
  | _, _, _ => s

def execCloseUnitEmit (s_ : SessionNo) (s : State) : Result := onPackage s (fun s => s.closeOut s_)

end Sys2Proof.Machine
end

