-- ==== Sys2Proof/Machine/Bells.lean ====
section
/-!
DEFINITION. Bells of live streams (R343 to R347, R353), and how a queue takes commands from its submission ring (R331 to R335, R341,
R352): doorbells, the fetch, and the completion ring's head.
-/

namespace Sys2Proof.Machine

/-! ### Submissions that R46 refuses -/

/-- Does the picture layout of a job fail R46? The output of a decoder is checked by the latest stream unit; before the first one no layout is
known but the image's format and sizes, and one of these must fit. -/
def badLayout (ses : Session) (j : Job) : Bool :=
  match ses.kind, ses.dec.stream with
  | .encode, _ => !pictureLayoutOk ses.enc.params j.ins
  | .decode, some p => !pictureLayoutOk p j.outs
  | .decode, none =>
    let c := ses.image.codec
    !c.sizes.any (fun z => pictureLayoutOk { media := if c.format < 8 then 0 else 1, format := c.format, width := z.1, height := z.2 } j.outs)
  | _, _ => false

/-- The answer to a submission that R46 refuses: it is no job of the sequence, and the session stays open (R46, R303). -/
def State.refuseLayout (s : State) (n : Nat) (j : Job) : State :=
  let ses := s.ses n
  ((s.setSes n { ses with jobs := ses.jobs.filter (fun x => x != j) }).closeCmd j.queue).complete j.queue
    { tag := j.tag, session := n, kind := Ck.error, status := St.badPictureLayout, sqHead := j.sqHead, seq := j.seq }

/-- A job that is to be dropped is dropped; one that has not begun and that R46 refuses never was a job. -/
def State.dropOrRefuse (s : State) (n : Nat) (j : Job) (reason : Nat) : State :=
  if j.phase = .queued ∧ badLayout (s.ses n) j then s.refuseLayout n j else s.dropRunning n j reason

/-! ### Bells -/

/-- A decode job with a FINAL is complete (R345). -/
def jobComplete (ses : Session) (j : Job) : Bool := ses.kind == .decode && j.phase != .queued && decide (0 < ses.dec.finals)

/-- The first job of a session that is due by a bell and not complete. -/
def dueJob (ses : Session) (bell : Nat) : Option Job :=
  ses.jobs.find? (fun j => match j.due with | some d => decide (d ≤ bell) && !j.late && !jobComplete ses j | none => false)

/-- Every job due by a bell that is not complete is dropped, in order (R346); while the homeroom's scheduler core restarts the drop is
left for the end of the restart (R353). -/
def State.dropDue (s : State) (n bell : Nat) : Nat → State
  | 0 => s
  | fuel + 1 =>
    let ses := s.ses n
    match dueJob ses bell with
    | none => s
    | some j =>
      if s.schedulerRestarts ses.homeroom then
        (s.setSes n { ses with jobs := ses.jobs.map (fun x => if x = j then { x with late := true } else x) }).dropDue n bell fuel
      else (s.dropOrRefuse n j 1).dropDue n bell fuel

/-- A session none of whose jobs runs closes, or its PAUSE takes effect, after a drop (R315, R335). -/
def State.afterDrop (s : State) (n : Nat) : State :=
  if (s.ses n).kind = .none ∨ (s.runningJob n).isSome then s else s.afterJob n

/-- The next bell of a live stream rings (R343): bell 0 the first time. A stream that is to stop at its next bell ends (R463, R501). -/
def State.ringBell (s : State) (n : Nat) : State :=
  let ses := s.ses n
  let bell := match ses.bell with | some b => b + 1 | none => 0
  let s := s.setSes n { ses with bell := some bell, bellStamp := s.stamp ses.homeroom }
  let s := (s.dropDue n bell ses.jobs.length).afterDrop n
  match ses.stopAtBell with
  | some status => s.endSession n status
  | none => s

/-- Drops left for the end of a restart are carried out (R353). -/
def State.dropLate (s : State) (n : Nat) : Nat → State
  | 0 => s
  | fuel + 1 =>
    match (s.ses n).jobs.find? (·.late) with
    | none => s
    | some j => (s.dropOrRefuse n j 1).dropLate n fuel

/-- What a session does as its homeroom's scheduler core runs again: the drops left to it, then the completion that waited (R353). -/
def State.catchUp (s : State) (n : Nat) : State :=
  let s := (s.dropLate n (s.ses n).jobs.length).afterDrop n
  if (s.ses n).kind = .none then s else (s.finishJob n).decodeIdle n

/-- BELL_RING: the homeroom's counter rings the next bell of a live stream without BELL_HOST whose bell 0 has rung (R343). -/
def execBellRing (s_ : SessionNo) (s : State) : Result :=
  onPackage s (fun s =>
    let ses := s.ses s_
    if ses.live && !ses.bellHost && ses.bell.isSome && !s.bit (key ses.homeroom 0) F.pwrStatusRefclkLost then s.ringBell s_ else s)

/-! ### The submission ring -/

/-- A command as its 64 bytes hold it (R335). -/
def parseCmd (b : List Byte) (head : Nat) : HostCmd :=
  { opcode := BitVec.ofNat 8 (leAt b 0 1), flags := BitVec.ofNat 8 (leAt b 1 1), session := BitVec.ofNat 12 (leAt b 2 2)
    tag := BitVec.ofNat 32 (leAt b 4 4), args := (List.range 7).map (fun k => BitVec.ofNat 64 (leAt b (8 + 8 * k) 8)), head := head }

/-- Is a session open whose homeroom is that of a queue, die 12 for queue 0 (R335, R354)? -/
def State.sharesHomeroom (s : State) (q n : Nat) : Bool := (s.ses n).kind != .none && (s.ses n).homeroom == s.qDie q

/-- What a live stream takes from the moment a command is fetched: bell 0 and the due bell of a SUBMIT, the ring of a BELL (R343,
R344). -/
def State.noteFetch (s : State) (q : Nat) (c : HostCmd) : State × HostCmd :=
  let n := c.session.toNat
  let ses := s.ses n
  if !s.sharesHomeroom q n || !ses.live then (s, c)
  else if c.opcode = 0x10 then
    let s := if ses.bell.isNone then s.ringBell n else s
    (s, { c with due := (s.ses n).bell.map (· + ses.deadline) })
  else if c.opcode = 0x16 ∧ ses.bellHost ∧ ses.bell.isSome then (s.ringBell n, { c with rang := true })
  else (s, c)

/-- Commands fetched from the consumed head up to the tail, while the queue is ACTIVE and its homeroom has a host link (R333, R405). -/
def State.fetchCmds (s : State) (q : Nat) : Nat → State
  | 0 => s
  | fuel + 1 =>
    let b := s.qBase q
    let x := s.que q
    let head := s.rf b F.fwcQStatusHead
    if s.qState q ≠ Qs.active ∨ (s.route (s.qDie q)).isNone ∨ head = s.rf b F.fwcSqTail then s
    else
      let next := (head + 1) % 2 ^ x.sqLog2
      let b64 := s.bytes (hostAddr (x.sq + 64 * head)) 64
      let c := (s.askHost (s.qDie q) (x.sq + 64 * head) 64).noteFetch q (parseCmd b64 next)
      let s := (c.1.sf b F.fwcQStatusHead next).bump b F.fwcQCmds 1
      let y := s.que q
      (s.setQue q { y with fetched := y.fetched ++ [c.2] }).fetchCmds q fuel

/-- Every command that a queue can fetch now. -/
def State.fetchAll (s : State) (q : Nat) : State := s.fetchCmds q (2 ^ (s.que q).sqLog2)

/-- FWC_SQ_TAIL (R333, R341): a tail outside the ring sets BAD_DOORBELL; one that comes while the owner restarts is kept and
fetches nothing (R352). -/
def State.sqTail (s : State) (q : Nat) (v : W32) : State :=
  let x := s.que q
  let t := getF v 15 0
  let st := s.qState q
  if st ≠ Qs.active ∧ st ≠ Qs.stalled then s
  else if 2 ^ x.sqLog2 ≤ t then s.raise (s.qBase q) F.fwcQStatusBadDoorbell
  else if st = Qs.stalled then (s.setQue q { x with kept := some (BitVec.ofNat 32 t) }).sf (s.qBase q) F.fwcSqTail t
  else (s.sf (s.qBase q) F.fwcSqTail t).fetchAll q

def execFwcSqTailWrite (q : QueueNo) (v : W32) (s : State) : Result := onDie (s.qDie q) s (fun s => s.sqTail q v)

/-- FWC_CQ_HEAD (R334, R341): the completions up to the head are consumed, and held ones are written. -/
def State.cqHead (s : State) (q : Nat) (v : W32) : State :=
  let x := s.que q
  let size := 2 ^ x.cqLog2
  let h := getF v 15 0
  let st := s.qState q
  if st ≠ Qs.active ∧ st ≠ Qs.stalled then s
  else if size ≤ h then s.raise (s.qBase q) F.fwcQStatusBadDoorbell
  else
    let old := s.rf (s.qBase q) F.fwcCqHead
    let moved := (h + size - old) % size
    let open_ := x.written - x.consumed
    let taken := if moved = 0 ∧ open_ = size then size else min moved open_
    ((s.sf (s.qBase q) F.fwcCqHead h).setQue q { x with consumed := x.consumed + taken }).flushEnd q

def execFwcCqHeadWrite (q : QueueNo) (v : W32) (s : State) : Result := onDie (s.qDie q) s (fun s => s.cqHead q v)

/-- The owner of a queue is ready again: the queue is ACTIVE, takes the doorbell kept, and writes what it held (R352). -/
def State.unstall (s : State) (q : Nat) : State :=
  if s.qState q ≠ Qs.stalled then s
  else
    let s := s.sf (s.qBase q) F.fwcQStatusState Qs.active
    let x := s.que q
    let s := match x.kept with
      | some v => (s.setQue q { x with kept := none }).sf (s.qBase q) F.fwcSqTail v.toNat
      | none => s
    (s.fetchAll q).flushEnd q

end Sys2Proof.Machine
end

