-- ==== Sys2Proof/Machine/Cells.lean ====
section
/-!
DEFINITION. The cells of the units: what one output element accumulates (R140, R148, R153, R177 to R179, R185), when it overflows
(R143), how it is narrowed (R187) or converted (R156), and the operands that an instruction names (R190 to R195, R210).
-/

namespace Sys2Proof.Machine

/-! ### Integer accumulation -/

/-- The additions of one reduction into the accumulator, in the order the cell makes them: one per product and pass in ordinary
mode, one per selected table entry in lookup mode, whose entry is the exact sum over its group (R143, R148, R178, R179). -/
def cellTerms (m n group : Nat) (as bs : List Int) : List Int :=
  if group = 0 then
    (List.range m).flatMap (fun i => (List.range n).flatMap (fun j =>
      List.zipWith (fun a b => (splitPieces m a).getD i 0 * (splitPieces n b).getD j 0 * 2 ^ (8 * (i + j))) as bs))
  else
    (List.range m).flatMap (fun i =>
      (chunksOf (as.length + 1) group (List.zipWith (fun a b => (splitPieces m a).getD i 0 * b) as bs)).map
        (fun g => g.sum * 2 ^ (8 * i)))

/-- The additions with block codes: one s × P per block, P exact (R185). -/
def blockTerms (m n group len : Nat) (codes : List Nat) (as bs : List Int) : List Int :=
  let a := chunksOf (as.length + 1) len as
  let b := chunksOf (bs.length + 1) len bs
  (List.range a.length).map (fun i => (codes.getD i 0 : Int) * (cellTerms m n group (a.getD i []) (b.getD i [])).sum)

/-- Is an integer outside the accumulator's range (R139)? -/
def outside48 (x : Int) : Bool := decide (x < -(2 ^ 47 : Int)) || decide ((2 ^ 47 : Int) - 1 < x)

/-- An accumulation, and whether one of its additions left the range (R143). -/
def accumulate (init : Int) (terms : List Int) : Int × Bool :=
  terms.foldl (fun a t => (a.1 + t, a.2 || outside48 (a.1 + t))) (init, false)

/-! ### Float accumulation -/

/-- The exact products of a reduction in the order of its passes (R149, R153). -/
def floatTerms (aFmt bFmt : Nat) (as bs : List Nat) : List (Fv × FpEvents) :=
  (floatPasses aFmt bFmt).flatMap (fun p =>
    List.zipWith (fun a b => fvMul ((floatPieces aFmt a).getD p.1 .nan) ((floatPieces bFmt b).getD p.2 .nan)) as bs)

/-- An accumulation in FP32, each addition rounded once (R154), with the events of its element (R158, R159). -/
def accumulateF (init : Nat) (terms : List (Fv × FpEvents)) : Nat × FpEvents :=
  terms.foldl (fun a t =>
    let r := fpAccumulate a.1 t.1
    (r.1, (a.2.join t.2).join r.2)) (init, {})

/-- The exact partial sum P of a block, with its events. -/
def exactSum : List (Fv × FpEvents) → Fv × FpEvents
  | [] => (.fin false 0 0, {})
  | t :: rest => rest.foldl (fun a t => let r := fvAdd a.1 t.1; (r.1, (a.2.join t.2).join r.2)) t

/-- The additions of a float reduction with block codes: one s × P per block, none for a block whose code is 0 (R185). -/
def floatBlocks (aFmt bFmt len : Nat) (codes : List Nat) (as bs : List Nat) : List (Fv × FpEvents) :=
  let a := chunksOf (as.length + 1) len as
  let b := chunksOf (bs.length + 1) len bs
  (List.range a.length).filterMap (fun i =>
    let code := codes.getD i 0
    if code = 0 then none
    else
      let p := exactSum (floatTerms aFmt bFmt (a.getD i []) (b.getD i []))
      let v := fvMul (.fin false code 0) p.1
      some (v.1, p.2.join v.2))

/-- A list in the order in which a choice takes its members, one by one. -/
def arrive {α : Type} (pick : Nat → Nat) : Nat → List α → List α
  | 0, _ => []
  | k + 1, xs =>
    let i := pick k % max 1 xs.length
    xs[i]?.toList ++ arrive pick k (xs.eraseIdx i)

/-- Float partial sums added one by one: from the first of them, each addition rounded (R154, R297). -/
def sumParts : List (Nat × FpEvents) → Nat × FpEvents
  | [] => (0, {})
  | p :: rest => rest.foldl (fun a t =>
    let r := fpAccumulate a.1 (fpOf 8 t.1)
    (r.1, (a.2.join t.2).join { r.2 with nanIn := false })) p

/-- How a float reduction of an output element runs: over how many units, in ordered mode or not, and what the free values depend on. -/
structure FloatMode where
  units   : Nat
  ordered : Bool
  part    : Nat → Nat
  pick    : Nat → Nat

/-- A float reduction: each unit accumulates the terms that it is given, the first from the start value and the others from +0, and their partial
sums are added in ascending order of the units in ordered mode (R297), in the order in which they arrive in free mode (R296;
notes/assumptions/50.md). -/
def floatReduce (x : FloatMode) (start : Nat) (terms : List (Fv × FpEvents)) : Nat × FpEvents :=
  if x.units ≤ 1 then accumulateF start terms
  else
    let parts := ((List.range x.units).map (fun u => ((terms.zipIdx.filter (fun t => x.part t.2 % x.units == u)).map (·.1)))).filter (!·.isEmpty)
    match parts with
    | [] => (start, {})
    | p :: rest =>
      let sums := accumulateF start p :: rest.map (accumulateF 0)
      sumParts (if x.ordered then sums else arrive x.pick sums.length sums)

/-! ### Operands -/

/-- An element read: its pattern as a number and its poison. -/
def State.elem (s : State) (c : ClusterId) (off n : Nat) : Nat × Bool :=
  (s.le (c.store + off) n, s.anyPoison (c.store + off) n)

/-- A range of the store. -/
def outOfStore (off len : Nat) : Bool := decide (storeSize < off + len)

/-- The block that an instruction names, or the neutral one: raw values, output clamped to its format. -/
inductive QpbRead where
  | ok (q : Qpb)
  | empty
  | fail (f : Fld × Nat)
  | poison
  deriving DecidableEq, Repr

/-- The block read once, as the instruction starts (R191 to R193). -/
def State.readQpb (s : State) (c : ClusterId) (w inFmt wFmt outFmt n : Nat) : QpbRead :=
  if !iQpbEn w then
    .ok { inFmt := inFmt, wFmt := wFmt, outFmt := outFmt, nCh := n, lo := fmtLo outFmt, hi := fmtHi outFmt }
  else
    let base := c.store + iQpb w
    let q := parseQpb (s.bytes base 32) base
    if outOfStore (iQpb w) (32 + 8 * q.nCh) then .fail (F.exeErrStoreBounds, St.exeStoreBounds)
    else if s.anyPoison base (32 + 8 * q.nCh) then .poison
    else if s.badQpb q then .fail (F.exeErrBadQpb, St.exeBadQpb)
    else if outOfStore (iQpb w) q.size then .fail (F.exeErrStoreBounds, St.exeStoreBounds)
    else if s.anyPoison base q.size then .poison
    else if q.nCh = 0 then .empty
    else .ok q

/-- The requantisation of an element of channel n: through the block, or clamped to the output format when no block is named. -/
def State.narrow (s : State) (c : ClusterId) (w : Nat) (q : Qpb) (n : Nat) (acc : Int) : Int × Bool :=
  if iQpbEn w then
    let x := s.cl c
    requantise q (s.qpbChan q n) x.fn0 x.fn1 acc
  else clampFmt q.outFmt acc

/-- The bias of a channel (R190); 0 without a block. A channel with CONST = 1 starts from the constant that stands there
(notes/assumptions/63.md). -/
def State.biasOf (s : State) (w : Nat) (q : Qpb) (n : Nat) : Int :=
  if iQpbEn w then signedN 32 (s.qpbChan q n / 2 ^ 32) else 0

/-- The rows of a tagged stream that a unit takes for an instruction: pairs of a weight block and a scale block in arrival order; a
pair whose tags differ is poisoned (R194). -/
structure Stream where
  rows   : List TaggedRow
  scales : List TaggedRow
  deriving DecidableEq, Repr

/-- The first k blocks of a queue, when it holds as many. -/
def Cluster.takeBlocks (x : Cluster) (q k : Nat) : Option (List TaggedRow × Cluster) :=
  let rows := Sparse.get (fun _ => []) x.blocks q
  if k ≤ rows.length then some (rows.take k, { x with blocks := Sparse.put (fun _ => []) x.blocks q (rows.drop k) }) else none

/-- Do the tags of the i-th pair differ? -/
def Stream.slipped (x : Stream) (i : Nat) : Bool :=
  match x.rows[i]?, x.scales[i]? with
  | some a, some b => a.tag != b.tag
  | _, _ => false

/-- Both blocks of each pair whose tags differ marked poisoned (R194). -/
def Stream.marked (x : Stream) : Stream :=
  let mark := fun (rs : List TaggedRow) => rs.zipIdx.map (fun r => { r.1 with poison := r.1.poison || x.slipped r.2 })
  { rows := mark x.rows, scales := mark x.scales }

/-- Is a block of the i-th pair poisoned? -/
def Stream.bad (x : Stream) (i : Nat) : Bool :=
  (match x.rows[i]? with | some r => r.poison | none => false) || (match x.scales[i]? with | some r => r.poison | none => false)

/-- Blocks of a reduction of length k under a block length (0: one block). -/
def blockCount (len k : Nat) : Nat := if len = 0 then 1 else (k + len - 1) / len

/-- The queues from which an instruction's blocks come (R194, R210): the weight queue when B_SRC = 1, and the scale queue when block
codes are used, with no weight block to pair when B_SRC = 0 (notes/assumptions/91.md). None: the blocks have not all arrived, and the unit
waits for them. -/
def State.takeStream (s : State) (c : ClusterId) (bSrc queue n k : Nat) (q : Qpb) : Option (Stream × State) :=
  let need := (n + 63) / 64 * blockCount q.blockLen k
  let x := s.cl c
  let a := if bSrc = 1 then x.takeBlocks queue need else some ([], x)
  match a with
  | none => none
  | some (rows, x) =>
    let b := if q.blockLen ≠ 0 then x.takeBlocks (Config.scaleQueue (if bSrc = 1 then queue else 64)) need else some ([], x)
    match b with
    | none => none
    | some (scales, x) =>
      let st : Stream := { rows := rows, scales := scales }
      let s := s.setCl c x
      some (st.marked, if (List.range need).any st.slipped then
        (s.raise c.base F.exeErrScaleTagMismatch).errEvent c.die (0x700 + F.exeErrScaleTagMismatch.hi) else s)

/-- The index of the pair that holds element k of channel n: 64 channels by 64 channels, and within them reduction block by reduction block
(notes/assumptions/91.md). -/
def pairOf (len k n : Nat) (blocks : Nat) : Nat := n / 64 * blocks + (if len = 0 then 0 else k / len)

/-- A weight or stationary element as its pattern or code, from a packed row. -/
def patternAt (f k : Nat) (row : List Byte) : Nat :=
  if fmtWeight f then codeAt f k row else leAt row (k * fmtBytes f) (fmtBytes f)

/-- The stationary element (n, k), as a pattern or code, with its poison: from the store, at a row pitch, or from the stream,
whose block holds 64 channels one behind another, packed (notes/assumptions/91.md). -/
def State.stationary (s : State) (c : ClusterId) (bSrc bBase pitch bFmt k : Nat) (len total : Nat) (st : Stream) (n : Nat) :
    Nat × Bool :=
  if bSrc = 1 then
    let i := pairOf len k n (blockCount len total)
    let per := rowBytes bFmt (if len = 0 then total else len)
    let row := match st.rows[i]? with | some r => r.bytes | none => []
    (patternAt bFmt (if len = 0 then k else k % len) (sliceB row (n % 64 * per) per), st.bad i)
  else
    let bits := fmtBits bFmt
    let at_ := c.store + bBase + n * pitch + k * bits / 8
    let p := s.anyPoison at_ (max 1 (bits / 8)) || (len != 0 && st.bad (pairOf len k n (blockCount len total)))
    (if fmtWeight bFmt then codeAt bFmt (k * bits % 8 / bits) (s.bytes at_ 1) else s.le at_ (bits / 8), p)

/-- The block codes of channel n: byte n mod 64 of each of its scale blocks (R185; notes/assumptions/91.md). -/
def blockCodes (len total n : Nat) (st : Stream) : List Nat :=
  (List.range (blockCount len total)).map (fun b =>
    match st.scales[n / 64 * blockCount len total + b]? with | some r => (r.bytes.getD (n % 64) 0).toNat | none => 0)

/-- The group size of lookup mode (R177). -/
def groupSize (f : Nat) : Nat := if f = 9 then 4 else if f = 10 then 2 else 1

/-- A stationary integer operand's value: a weight code's meaning, or the container's integer. -/
def State.stationaryInt (s : State) (q : Qpb) (n : Nat) (bFmt pattern : Nat) : Int :=
  if fmtWeight bFmt then s.weightOf { q with wFmt := bFmt } n pattern else intOf bFmt pattern

/-- One output element of an integer instruction: its accumulator, whether it overflowed, and its poison. A poisoned accumulation
raises no overflow (R196, R285). -/
def cellInt (aFmt bFmt : Nat) (lookup : Bool) (len : Nat) (codes : List Nat) (init : Int) (as bs : List (Int × Bool))
    (poison : Bool) : Int × Bool × Bool :=
  let m := pieceCount aFmt
  let n := if fmtWeight bFmt then 1 else pieceCount bFmt
  let group := if lookup then groupSize bFmt else 0
  let a := as.map (·.1)
  let b := bs.map (·.1)
  let terms := if len = 0 then cellTerms m n group a b else blockTerms m n group len codes a b
  let r := accumulate init terms
  let p := poison || as.any (·.2) || bs.any (·.2)
  (r.1, r.2 && !p, p)

/-- A float value written as an element of a format: a float format under R154, an integer format under R156. Its bytes, whether it counts as
saturated, and its events; a NaN that comes to an integer format has reached an operation, one that is the result itself has not (R159). -/
def floatWrite (outFmt : Nat) (v : Fv) : List Byte × Bool × FpEvents :=
  if fmtFloat outFmt then
    let r := fpRound outFmt v
    (natLe (fmtBytes outFmt) r.1, false, { overflow := r.2 })
  else
    let i := fvToInt outFmt v
    (containerOf outFmt i.1, i.2.1, i.2.2)

/-- An integer accumulator written by an instruction that narrows: through the block or clamped, or converted to a float format (R156, R187).
Its bytes, whether it counts as saturated, and its events. -/
def State.intWrite (s : State) (c : ClusterId) (w : Nat) (q : Qpb) (outFmt n : Nat) (acc : Int) : List Byte × Bool × FpEvents :=
  if fmtFloat outFmt then floatWrite outFmt (fvOfInt acc)
  else
    let v := s.narrow c w q n acc
    (containerOf outFmt v.1, v.2, {})

/-- The FP32 accumulator written as an output element: requantised when a block narrows it, else converted, which a NaN reaches (R159). -/
def State.floatOut (s : State) (c : ClusterId) (w : Nat) (q : Qpb) (byBlock : Bool) (outFmt n acc : Nat) : List Byte × Bool × FpEvents :=
  let v := fpOf 8 acc
  if byBlock && !fmtFloat outFmt then
    let i := fvToInt 5 v
    let r := s.narrow c w q n i.1
    (containerOf outFmt r.1, i.2.1 || r.2, i.2.2)
  else
    let o := floatWrite outFmt v
    (o.1, o.2.1, o.2.2.join { nanIn := v.isNan && outFmt != 8 })

/-! ### The accumulators of the cells (R139, R140, R213) -/

/-- Units of UNITS. -/
def unitCount (units : Nat) : Nat := ((List.range 8).filter (fun u => bitN units u)).length

/-- The cell of an output channel, as 64 × unit + cell. -/
def cellOf (units n : Nat) : Nat := 64 * unitOf units n + n % 64

def State.accInt (s : State) (c : ClusterId) (units n : Nat) : Acc := Sparse.get (fun _ => {}) (s.cl c).accInt (cellOf units n)
def State.accFloat (s : State) (c : ClusterId) (units n : Nat) : AccF := Sparse.get (fun _ => {}) (s.cl c).accFloat (cellOf units n)

/-- The channels of a row computed in turn, each with what its cell holds from an earlier channel of the row. -/
def cellChain {α : Type} (n step : Nat) (f : Nat → Option α → α) : List α :=
  (List.range n).foldl (fun xs i => xs ++ [f i (if i < step then none else xs[i - step]?)]) []

/-- What the integer accumulators hold after a row: a value outside their range wraps (notes/assumptions/63.md). -/
def State.keepInt (s : State) (c : ClusterId) (units : Nat) (row : List (Int × Bool × Bool)) : State :=
  let x := s.cl c
  s.setCl c { x with accInt := row.zipIdx.foldl (fun t a =>
    Sparse.put (fun _ => {}) t (cellOf units a.2) { value := BitVec.ofInt 48 a.1.1, poison := a.1.2.2 }) x.accInt }

/-- What the FP32 accumulators hold after a row. -/
def State.keepFloat (s : State) (c : ClusterId) (units : Nat) (row : List (Nat × FpEvents × Bool)) : State :=
  let x := s.cl c
  s.setCl c { x with accFloat := row.zipIdx.foldl (fun t a =>
    Sparse.put (fun _ => {}) t (cellOf units a.2) { value := BitVec.ofNat 32 a.1.1, poison := a.1.2.2 }) x.accFloat }

/-- How a float instruction's reductions run: an output element of a channel (R296, R297). -/
def State.floatMode (s : State) (c : ClusterId) (w : Nat) (element n : Nat) : FloatMode :=
  { units := unitCount (iUnits w), ordered := s.bit c.base F.exeCtrlOrdered
    part := Config.floatPart (BitVec.ofNat 128 w) (s.bytes (c.store + iRec w) 64) n
    pick := Config.arrival s.fresh element }

/-- The count of open values after a float instruction: one more when partial sums of several units have been added as they arrived. -/
def State.arrived (s : State) (c : ClusterId) (w : Nat) : State :=
  if s.bit c.base F.exeCtrlOrdered || decide (unitCount (iUnits w) ≤ 1) then s else { s with fresh := s.fresh + 1 }

/-! ### Operands of lookup mode (R181, R214) -/

/-- The state with a cluster's store as a TBUILD found it. -/
def State.withBuilt (s : State) (c : ClusterId) (b : Built) : State :=
  { s with
    mem := s.mem.filter (fun e => decide (e.1 < c.store)) ++ b.cells ++ s.mem.filter (fun e => decide (c.store + storeSize ≤ e.1))
    poison := s.poison.filter (fun l => decide (l < c.store / 64)) ++ b.lines
      ++ s.poison.filter (fun l => decide (c.store / 64 + storeSize / 64 ≤ l)) }

/-- The tables that the lookup instruction at an index resolves: those of the TBUILD before it (R214). -/
def Cluster.tablesFor (x : Cluster) (index : Nat) : Option Built := x.tables.find? (fun b => b.index + 1 == index)

/-- An element of an instruction's output as its computation leaves it. -/
structure Element where
  off      : Nat
  bytes    : List Byte
  poison   : Bool := false
  sat      : Bool := false
  overflow : Bool := false
  events   : FpEvents := {}
  index    : Nat := 0
  deriving DecidableEq, Repr

/-- The run that some elements make: pieces, saturated elements that are not poisoned (R169), origins by linear index (R160), and
the overflow trap (R143). -/
def runOf (s : State) (c : ClusterId) (es : List Element) : Run :=
  { st := s
    out := es.map (fun e => { addr := c.store + e.off, bytes := e.bytes, poison := e.poison })
    sat := (es.filter (fun e => e.sat && !e.poison)).length
    origins := (es.filter (fun e => e.events.kind != 0)).map (fun e => (e.index, e.events.kind))
    events := es.foldl (fun a e => a.join e.events) {}
    trap := if es.any (·.overflow) then some .accOverflow else none }

end Sys2Proof.Machine
end

