-- ==== Sys2Proof/Machine/Control.lean ====
section
/-!
DEFINITION. The instructions of the control and semaphore classes, and the events and registers of an execute engine: NOP, END,
STEP and SEM (R203, R207, R215, R217); completion of a pipe (R218); START, PAUSE_REQ, RESUME, configuration writes, ISLAND_EN and
the scrub of a cluster store (R229, R230, R355).
-/

namespace Sys2Proof.Machine

/-- No work besides the wait and the post. -/
def workNone : Work := fun _ _ s => { st := s }

/-- Nothing further. -/
def afterNone : After := fun _ _ s => s

/-- NOP: nothing except its wait and post (R207). -/
def execNop (c : ClusterId) (s : State) : Result :=
  onDie c.die s (fun s => s.issueWith c 0x00 workNone afterNone)

/-- SEM: a wait and a post with the counts of its body (R217). -/
def execSem (c : ClusterId) (s : State) : Result :=
  onDie c.die s (fun s => s.issueWith c 0xA0 workNone afterNone)

/-- After END's post the tile-step and the job end on the cluster, and the engine is ENDED (R203). -/
def afterEnd : After := fun c _ s =>
  let n := s.rf c.base F.exeSession
  ((s.endTile c false).setExe c Ex.ended).finishJob n

/-- END: after every earlier instruction has completed, its post is made and the job's list ends (R203). -/
def execEndList (c : ClusterId) (s : State) : Result :=
  onDie c.die s (fun s => s.issueWith c 0x01 workNone afterEnd)

/-- STEP ends a tile-step and, with ADV = 1, counts the cluster's copy of the step counter; the engine stops at a pause point when
a pause is requested (R215, R229). -/
def afterStep : After := fun c w s =>
  let n := s.rf c.base F.exeSession
  let s := s.endTile c (iAdv w)
  if s.nanDue n then s.nanEnd n
  else if iPausePoint w && s.bit c.base F.exeCtrlPauseReq then
    ((s.setExe c Ex.paused).sf c.base F.exeCtrlPauseReq 0).tryPause n
  else s

/-- STEP: issued when every earlier instruction has completed, as if it carried FENCE (R215). -/
def execStep (c : ClusterId) (s : State) : Result :=
  onDie c.die s (fun s => s.issueWith c 0x02 workNone afterStep)

/-- The oldest instruction of a pipe completes and makes its post; a parity or store error may come with it (R218, R229, R445). -/
def execInstructionComplete (c : ClusterId) (p : Pipe) (ev : CompleteEvent) (s : State) : Result :=
  onDie c.die s (fun s => match ev with
    | .apart path => s.parityApart c path
    | _ => s.completeFront c p ev)

/-- The engine as a job starts on it: from index 0, its function tables cleared (R203, R569); a tile-step of dropped work that waits for its vote
keeps its place in the replay window (R482). No engine of a fused region starts: the region has no
supply (R4). -/
def State.startList (s : State) (c : ClusterId) : State :=
  if fused c.die c.region then s
  else
  let x := s.cl c
  let x := if x.voting then { x with window := ({ x.tile with ended := true } :: x.window).take 2 } else x
  let s := s.setCl c { x with issue := 0, unitPipe := [], finPipe := [], owed := [], waitDone := false, linesReady := 0, linesFreed := 0,
                              accN := 0, accUnits := 0, tables := [], fn0 := [], fn1 := [], jobStep := s.stepCopy c }
  let s := s.setCl c { s.cl c with tile := s.newTile c x.tile.number }
  (s.setExe c Ex.running).setPc c

/-- EXE_CTRL.START: runs the list for a new job; ignored unless IDLE or ENDED (R230). -/
def execExeStart (c : ClusterId) (s : State) : Result :=
  onDie c.die s (fun s => if s.exe c = Ex.idle ∨ s.exe c = Ex.ended then s.startList c else s)

/-- PAUSE_REQ: the engine stops after the next STEP with PAUSE_POINT = 1 (R229). -/
def execPauseReq (c : ClusterId) (s : State) : Result :=
  onDie c.die s (fun s => s.sf c.base F.exeCtrlPauseReq 1)

/-- EXE_CTRL.RESUME: continues from PAUSED (R230). -/
def execExeResume (c : ClusterId) (s : State) : Result :=
  onDie c.die s (fun s => if s.exe c = Ex.paused then s.setExe c Ex.running else s)

/-- A write of CLS_CTRL: SCRUB for every writer, ISLAND_EN for the health core alone; another writer sets CTRL_WRITE_REFUSED
(R230). -/
def State.clsCtrlWrite (s : State) (by_ : Agent) (c : ClusterId) (v : W32) : State :=
  let s := s.sf c.base F.clsCtrlScrub (getF v 1 1)
  if by_ = .health then s.sf c.base F.clsCtrlIslandEn (getF v 0 0) else s.raise c.base F.clsErrCtrlWriteRefused

def execIslandEnWrite (by_ : Agent) (c : ClusterId) (v : W32) (s : State) : Result :=
  onDie c.die s (fun s => s.clsCtrlWrite by_ c v)

/-- EXE_LIST_SIZE: a power of two from 4 to 16,384 (R230). -/
def goodListSize (v : Nat) : Bool := decide (4 ≤ v ∧ v ≤ 16384) && v == 2 ^ Nat.log2 v

/-- A write of a configuration register of the engine (R229, R230): ignored with CFG_WRITE_WHILE_BUSY while a list runs, waits or is
paused, with BAD_CONFIG when the value of the field is out of its range; reserved bits are ignored (R16). -/
def State.exeConfig (s : State) (c : ClusterId) (r : ExeConfig) (v : W32) : State :=
  let n := v.toNat
  let guarded := fun (s : State) (ok : Bool) (t : State) =>
    if s.engineBusy c then s.raise c.base F.exeErrCfgWriteWhileBusy
    else if ok then t else s.raise c.base F.exeErrBadConfig
  match r with
  | .session => guarded s true (s.sf c.base F.exeSession (n % 4096))
  | .listBase => guarded s true (s.sf c.base F.exeListBase (n % 0x8_0000 / 64 * 64))
  | .listSize => guarded s (goodListSize (n % 2 ^ 15)) (s.sf c.base F.exeListSize (n % 2 ^ 15))
  | .listSem => guarded s true
      (((s.sf c.base F.exeListSemReady (getF v 12 0)).sf c.base F.exeListSemFree (getF v 28 16)).sf c.base
        F.exeListSemStreamed (getF v 31 31))
  | .listLen => guarded s (n % 2 ^ 24 != 0) (s.sf c.base F.exeListLen (n % 2 ^ 24))
  | .waitLimit => if n % 2 ^ 24 ≠ 0 then s.sf c.base F.exeWaitLimit (n % 2 ^ 24) else s.raise c.base F.exeErrBadConfig
  | .ordered => guarded s true (s.sf c.base F.exeCtrlOrdered (getF v 3 3))

def execExeConfigWrite (c : ClusterId) (r : ExeConfig) (v : W32) (s : State) : Result :=
  onDie c.die s (fun s => s.exeConfig c r v)

/-- A store line scrubbed in an idle cycle: a corrected line is rewritten and counted, an uncorrectable one is poisoned (R355,
R229). -/
def State.scrubLine (s : State) (c : ClusterId) (line : Nat) (found : ScrubResult) : State :=
  match found with
  | .clean => s
  | .corrected => ((s.raise c.base F.clsErrStoreCe).sf c.base F.clsErrLine line).bump c.base F.clsEccCe 1
  | .uncorrectable =>
    (((s.raise c.base F.clsErrStoreUe).sf c.base F.clsErrLine line).bump c.base F.clsEccUe 1).markLine (c.store / 64 + line)

def execStoreScrub (c : ClusterId) (line : Fin 8192) (found : ScrubResult) (s : State) : Result :=
  onDie c.die s (fun s => if s.bit c.base F.clsCtrlScrub then s.scrubLine c line found else s)

end Sys2Proof.Machine
end

