-- ==== Sys2Proof/Machine/MemEvents.lean ====
section
/-!
DEFINITION. What the memory behind an access reports (R367, R368, R370), and translation through the caches of fetch engines and dies
(R380, R381).
-/

namespace Sys2Proof.Machine

/-! ### Events -/

/-- A line entered in the poison directory of its die for a session (none: 0x8000): a full directory has its card, and the session that
made the access ends (R369, R370). -/
def State.enterLine (s : State) (d a ses : Nat) : State :=
  if s.poisoned a then s
  else if 16384 ≤ s.pdirCount d then
    let s := s.dirFull d a ses
    if ses = noSessionMark then s else s.endSession ses St.poisonConsumed
  else s.markLine (a / 64)

/-- Does an event leave the line without its data? -/
def lineFails : MemEvent → Bool
  | .uncorrectable => true
  | .edcFail => true
  | _ => false

/-- The sessions whose work uses the die buffer of a die: those with a window on it (R71, R358). -/
def State.bufferUsers (s : State) (d : Nat) : List Nat :=
  ((s.die d).windows.filterMap (fun w => w.2.map (·.1))).eraseDups

/-- What the memory at an address reports for an access, with the bits, counters, cards and poison of R229, R367, R368, R374, R375 and
R387. -/
def State.memEvent (s : State) (a ses : Nat) (ev : MemEvent) : State :=
  match s.target a with
  | .gddr d =>
    let b := key d 0
    let card := fun (s : State) (kind : Nat) => s.report { kind := kind, die := d, punit := d, session := ses, addr := a }
    match ev with
    | .clean => s
    | .corrected => ((s.raise b F.memGdErrCorrected).bump b F.memGdCe 1).noteAddr d a
    | .retried n =>
      if n.val = 0 then s else ((s.raise b F.memGdErrEdcRetry).bump b F.memGdRetry n.val).noteAddr d a
    | .uncorrectable =>
      let s := ((s.raise b F.memGdErrUncorrectable).bump b F.memGdUe 1).noteAddr d a
      (card s Card.memUncorrectable).enterLine d a ses
    | .edcFail =>
      let s := (((s.raise b F.memGdErrEdcRetry).raise b F.memGdErrEdcFail).bump b F.memGdRetry 4).noteAddr d a
      (card s Card.memEdcFail).enterLine d a ses
  | .cxl p =>
    let d := corners.getD p 0
    match ev with
    | .retried n => if n.val = 0 then s else ((s.raise (key d 0) F.memCxlErrReplay).bump (key d 0) F.memCxlReplays n.val).noteAddr d a
    | .uncorrectable => (s.raise (key d 0) F.memCxlErrPoisonRx).noteAddr d a
    | _ => s
  | .dbuf d _ =>
    let b := key d 0
    match ev with
    | .corrected => (s.raise b F.memErrDbCe).noteAddr d a
    | .uncorrectable =>
      let s := ((s.raise b F.memErrDbUe).noteAddr d a).markLine (a / 64)
      let users := s.bufferUsers d
      let noref := users.any (fun n => (s.ses n).kind == .encode)
      users.foldl State.forceNoref (s.report { kind := Card.diebufUe, die := d, punit := d, session := ses, addr := a, noref := noref })
    | _ => s
  | .store d r sl off =>
    let b := key d (clusterOff r sl)
    match ev with
    | .corrected => ((s.raise b F.clsErrStoreCe).sf b F.clsErrLine (off / 64)).bump b F.clsEccCe 1
    | .uncorrectable => (((s.raise b F.clsErrStoreUe).sf b F.clsErrLine (off / 64)).bump b F.clsEccUe 1).markLine (a / 64)
    | _ => s
  | _ => s

/-! ### Translation caches -/

/-- The cached translation of a session's page, if it serves the access: a write needs one that is writable. -/
def cached (cs : List Translation) (n page : Nat) (write : Bool) : Option Translation :=
  cs.find? (fun t => t.session == n && t.page == page && (!write || t.writable))

/-- A walk that misses, counted, and kept by both caches unless an invalidation of the session runs (R380, R386). The order in which
full caches replace entries is open; the oldest entry goes (notes/assumptions/22.md). -/
def State.walkMiss (s : State) (c : ClusterId) (n va : Nat) (write : Bool) : Walk × State :=
  let s := s.noteWalk c.die n va write
  let w := s.walk c.die n va write
  match w with
  | .fault _ _ _ => (w, s)
  | .ok phys wr =>
    if allDies.any (fun d => match (s.die d).invalid with | some i => i.session == n | none => false) then (w, s)
    else
      let t : Translation := { session := n, page := va / 2 ^ 16, phys := phys - va % 2 ^ 16, writable := wr }
      let s := s.setCl c { s.cl c with cache := (t :: (s.cl c).cache).take 64 }
      (w, s.setDie c.die { s.die c.die with cache := (t :: (s.die c.die).cache).take 4096 })

/-- Does an invalidation take in a page of a session (R381)? -/
def Invalidation.covers (i : Invalidation) (n page : Nat) : Bool :=
  i.session == n && (i.all || (decide (i.first ≤ page) && decide (page < i.first + i.pages)))

/-- Does an invalidation that runs take in a page of a session? A request from now on walks the tables again (R381). -/
def State.invalidated (s : State) (n page : Nat) : Bool :=
  allDies.any (fun d => match (s.die d).invalid with | some i => i.covers n page | none => false)

/-- The cached translation that serves an access of a fetch engine: its own cache's or its die's (R380). -/
def State.cachedFor (s : State) (c : ClusterId) (n page : Nat) (write : Bool) : Option Translation :=
  if s.invalidated n page then none
  else (cached (s.cl c).cache n page write).orElse (fun _ => cached (s.die c.die).cache n page write)

/-- The translation of an address for a fetch engine (R377, R380): the engine's cache, the die's, or a walk. Where the tables have
changed since the cached translation was made, which of the two is used is open: a free value decides. -/
def State.translate (s : State) (c : ClusterId) (n va : Nat) (write : Bool) : Walk × State :=
  let page := va / 2 ^ 16
  match s.cachedFor c n page write with
  | none => s.walkMiss c n va write
  | some t =>
    let hit := Walk.ok (t.phys + va % 2 ^ 16) t.writable
    if s.walk c.die n va write = hit then (hit, s)
    else
      let v := s.free
      if v.1.getLsbD 0 then (hit, v.2) else v.2.walkMiss c n va write

end Sys2Proof.Machine
end

