-- ==== Sys2Proof/Machine/Fetch.lean ====
section
/-!
DEFINITION. The fetch engine (R258 to R290): arming, delivery rows and their credit, requests, their return and the posts they make,
translation faults and what the service core answers.
-/

namespace Sys2Proof.Machine

/-! ### Queues -/

/-- An error of a queue: its bit and the queue in FET_ERR (R289). -/
def State.fetErr (s : State) (c : ClusterId) (q : Nat) (f : Fld) : State := (s.raise c.base f).sf c.base F.fetErrQueue q

/-- FET_CTRL.ENABLE (R289), of an engine that has a supply: one of a disabled region moves nothing (R4). -/
def State.fetchOn (s : State) (c : ClusterId) : Bool := s.bit c.base F.fetCtrlEnable && !fused c.die c.region

/-- A queue's state changed. -/
def State.setFqState (s : State) (c : ClusterId) (q st : Nat) : State := s.sf (c.fetchBase q) F.fetQStatusState st

/-- A queue's table entry set, with the count of its outstanding requests in FET_Q_STATUS. -/
def State.putFq (s : State) (c : ClusterId) (q : Nat) (x : FetchQ) : State :=
  (s.setFq c q x).sf (c.fetchBase q) F.fetQStatusOutstanding x.inflight.length

/-- May a queue of a session name this logical cluster's store: a region of its image's set that the chart seats (R264)? -/
def State.reaches (s : State) (n loc : Nat) : Bool :=
  let d := fieldN loc 4 0
  let r := fieldN loc 7 5
  decide (loc < 4096) && (s.ses n).image.regionSet.getLsbD (8 * d + r) && (s.ses n).dies.getLsbD d && s.regionOk d r

/-- Does the descriptor of a queue fail R264 for a session, or is its engine on a die that is none of the session's partition (R30;
notes/assumptions/65.md)? -/
def State.badDescFor (s : State) (c : ClusterId) (n : Nat) (b : List Byte) : Bool :=
  !(s.ses n).dies.getLsbD c.die || badDesc c.die (fun d => if (s.ses n).dies.getLsbD d then (s.windowOn n d).map (·.2) else none) (s.reaches n) b

/-- The READY post of a queue, to a die of its session's partition (R30, R272). -/
def State.postReady (s : State) (c : ClusterId) (q : Nat) (d : Desc) : State :=
  s.postFor (s.fqSession c q) c.die (srcFetch c q) (if d.readyDie = 31 then c.die.val else d.readyDie) d.readySem 1

/-- The posts of a completed transfer: READY once in POST_MODE 1, then DONE (R272, R279). -/
def State.postDone (s : State) (c : ClusterId) (q : Nat) (d : Desc) : State :=
  let s := if d.readyEn && d.postMode then s.postReady c q d else s
  if d.doneEn then s.post (srcFetch c q) c.die d.doneSem 1 else s

/-- The transfer of a queue completes: its posts are made, and the queue is idle with nothing outstanding (R266, R272). -/
def State.queueDone (s : State) (c : ClusterId) (q : Nat) (d : Desc) : State :=
  ((s.postDone c q d).putFq c q { desc := (s.fq c q).desc }).setFqState c q Fq.idle

/-- A queue armed for a session from the descriptor it holds: an arm of a busy queue is ignored (R266), a bad descriptor arms nothing
and ends the session (R264), and a count of 0 completes at once (R279), or when the engine may post again (R289). A disabled region has no supply,
and arms nothing (R4). -/
def State.armQueue (s : State) (c : ClusterId) (q n : Nat) : State :=
  if fused c.die c.region then s
  else if s.fqBusy c q then (s.raise (c.fetchBase q) F.fetQStatusRearmWhileBusy).errEvent c.die (0x800 + F.fetQStatusRearmWhileBusy.hi)
  else
    let x := s.fq c q
    let d := parseDesc x.desc
    if s.badDescFor c n x.desc then (s.fetErr c q F.fetErrBadDesc).endSession n St.fetBadDesc (s.exeDetail c 0)
    else
      let s := (s.sf (c.fetchBase q) F.fetQCtrlSession n).sf (c.fetchBase q) F.fetQStatusPosted 0
      let s := s.putFq c q { desc := x.desc, armer := x.armer }
      if d.empty then (if s.fetchOn c then s.postDone c q d else s.setFqState c q Fq.active)
      else s.setFqState c q (if d.creditEn then Fq.creditWait else Fq.active)

/-- FET_Q_CTRL.ARM of the queue that FET_QSEL selects (R265, R266). -/
def execArm (c : ClusterId) (s : State) : Result :=
  onDie c.die s (fun s =>
    let q := s.rf c.base F.fetQsel
    let s := if s.fqBusy c q then s else s.setFq c q { s.fq c q with armer := none }
    s.armQueue c q (s.fqSession c q))

/-- FETCH_ARM (R265): the record is checked as it is read; a poisoned one arms nothing (R288), a bad one ends the session. -/
def workFetchArm : Work := fun c w s =>
  let b := s.bytes (c.store + iRec w) 128
  let q := (parseDesc b).queue % 64
  if storeSize < iRec w + 128 then storeBounds s
  else if s.anyPoison (c.store + iRec w) 128 then { st := s, poison := true }
  else if iRec w % 128 ≠ 0 then badRecord s
  else if !s.fqBusy c q && s.badDescFor c (s.rf c.base F.exeSession) b then
    runFail (s.sf c.base F.fetErrQueue q) F.fetErrBadDesc St.fetBadDesc
  else { st := s }

/-- The record goes into the descriptor registers of its queue, which is armed for the cluster's session; the bytes of the transfer are results of the
instruction when it has V = 0 (R448). -/
def afterFetchArm : After := fun c w s =>
  let b := s.bytes (c.store + iRec w) 128
  let q := (parseDesc b).queue % 64
  let x := s.cl c
  let armer := if iV w then none else some (x.tile.id, x.issue - 1)
  let s := if s.fqBusy c q then s else s.setFq c q { s.fq c q with desc := b, armer := armer }
  s.armQueue c q (s.rf c.base F.exeSession)

def execFetchArm (c : ClusterId) (s : State) : Result :=
  onDie c.die s (fun s => s.issueWith c 0xE0 workFetchArm afterFetchArm)

/-- FET_Q_CTRL.ABORT (R288). -/
def execFetQAbort (c : ClusterId) (q : FetchNo) (s : State) : Result :=
  onDie c.die s (fun s => s.abortQueue c q)

/-- A write to the descriptor window: ignored while the selected queue is busy (R267). -/
def State.descWrite (s : State) (c : ClusterId) (word : Nat) (v : W32) : State :=
  let q := s.rf c.base F.fetQsel
  if s.fqBusy c q then s.fetErr c q F.fetErrDescWriteWhileBusy
  else
    let x := s.fq c q
    s.setFq c q { x with desc := overlay (sliceB x.desc 0 128) (4 * word) (natLe 4 v.toNat) }

def execFetDescWrite (c : ClusterId) (word : Fin 32) (v : W32) (s : State) : Result :=
  onDie c.die s (fun s => s.descWrite c word v)

/-! ### Rows -/

/-- The ring line at which a row starts: R_l lines after the one before (R262). -/
def State.rowLine (s : State) (c : ClusterId) (q : Nat) (d : Desc) (row : Nat) : Nat :=
  if d.ring = 0 then 0
  else (s.rf (c.fetchBase q) F.fetQRposRing + (row - (s.fq c q).posted) * d.lines) % d.ring

/-- The address of a place on one side of a transfer. -/
def State.sideAddr (s : State) (c : ClusterId) (n kind loc off : Nat) : Nat :=
  match kind with
  | 1 => c.store + off
  | 2 => s.windowAddr n (locDie c.die loc) off
  | 3 => (match s.physOf loc with | some e => e.store + off | none => c.store + off)
  | _ => off

/-- A row starts: with CREDIT_EN its credit is taken, unless it was taken before a fault (R270, R281); a pausing queue parks instead
(R288). -/
def State.rowStart (s : State) (c : ClusterId) (q : Nat) : State :=
  let x := s.fq c q
  let d := parseDesc x.desc
  let st := s.fqState c q
  if !s.fetchOn c || !(st == Fq.active || st == Fq.creditWait) || x.rowOpen || d.empty || decide (d.rows ≤ x.row) then s
  else if x.pausing then s.parkPause c q
  else
    let start := { x with rowOpen := true, i0 := 0, i1 := 0, credited := max x.credited (x.row + 1) }
    if d.creditEn && decide (x.credited ≤ x.row) then
      match s.take c.die d.freeSem d.lines with
      | none => s.setFqState c q Fq.creditWait
      | some s => (s.setFq c q start).setFqState c q Fq.active
    else (s.setFq c q start).setFqState c q Fq.active

def execDeliveryRowStart (c : ClusterId) (q : FetchNo) (s : State) : Result :=
  onDie c.die s (fun s => s.rowStart c q)

/-- The bytes of a delivered row as a block with its tag (R263), read where they were written. -/
def State.rowBlock (s : State) (c : ClusterId) (q : Nat) (d : Desc) (row : Nat) : TaggedRow :=
  let n := s.fqSession c q
  let p := s.rowLine c q d row
  let places := (List.range (d.count 1)).flatMap (fun i1 => (List.range (d.count 0)).map (fun i0 =>
    s.sideAddr c n d.dstKind d.dstLoc (d.dstAt row p i1 i0).toNat))
  { tag := BitVec.ofNat 16 (d.tagBase + row), bytes := places.map s.byte, poison := places.any s.poisoned }

/-- The next row of a queue is posted, in row order (R272); after the last one the transfer has completed. -/
def State.postRow (s : State) (c : ClusterId) (q : Nat) : State :=
  let x := s.fq c q
  let d := parseDesc x.desc
  let b := c.fetchBase q
  let s := if d.tagEn && d.dstKind != 0 then
      let old := Sparse.get (fun _ => []) (s.cl c).blocks q
      s.setCl c { s.cl c with blocks := Sparse.put (fun _ => []) (s.cl c).blocks q (old ++ [s.rowBlock c q d x.posted]) }
    else s
  let s := if d.readyEn && !d.postMode then s.postReady c q d else s
  let s := s.bump b F.fetQStatusPosted 1
  let s := if d.ring = 0 then s else s.sf b F.fetQRposRing (s.rowLine c q d (x.posted + 1))
  let s := s.setFq c q { x with posted := x.posted + 1 }
  if x.posted + 1 = d.rows then s.queueDone c q d
  else s.parkPause c q

/-- Rows whose requests have all been written are posted, as long as the engine may post (R272, R289). -/
def State.postRows (s : State) (c : ClusterId) (q : Nat) : Nat → State
  | 0 => s
  | fuel + 1 =>
    let x := s.fq c q
    if s.fetchOn c && s.fqBusy c q && decide (x.posted < x.row) && !x.inflight.any (fun r => !r.drop && r.row == x.posted) then
      (s.postRow c q).postRows c q fuel
    else s

/-- What a busy queue may do as its engine is enabled: complete when it moves nothing, post rows that were written meanwhile, park for a pause
(R279, R288, R289). -/
def State.fetchAgain (s : State) (c : ClusterId) (q : Nat) : State :=
  let d := parseDesc (s.fq c q).desc
  if !s.fetchOn c || !s.fqBusy c q then s
  else if d.empty then s.queueDone c q d
  else (s.postRows c q (s.fq c q).row).parkPause c q

/-- FET_CTRL.ENABLE written: with 1 the engine issues, posts and parks again (R289). -/
def State.fetchCtrl (s : State) (c : ClusterId) (v : W32) : State :=
  let s := s.sf c.base F.fetCtrlEnable (getF v 0 0)
  let s := (List.range 64).foldl (fun s q => s.fetchAgain c q) s
  (((List.range 64).filter (fun q => s.fqBusy c q)).map (s.fqSession c)).eraseDups.foldl State.tryPause s

def execFetCtrlEnable (c : ClusterId) (v : W32) (s : State) : Result := onDie c.die s (fun s => s.fetchCtrl c v)

/-! ### Requests -/

/-- A queue parks on a translation fault: requests of unposted rows are discarded as they return, what has returned and waits for a host link is
dropped, and the cursor names the lowest row that is not posted (R280). -/
def State.park (s : State) (c : ClusterId) (q va : Nat) (dst : Bool) (kind level : Nat) (entry : W64) : State :=
  let x := s.fq c q
  let s := (s.dropWrites (c.fetchNo q)).putFq c q { x with
    row := x.posted, rowOpen := false, i0 := 0, i1 := 0
    inflight := (x.inflight.filter (fun r => !r.held)).map (fun r => { r with drop := true }),
    fault := some { va := va, write := dst, kind := kind, level := level, entry := entry } }
  let s := ((s.setFqState c q Fq.parkedFault).setCursor c q).bump c.base F.fetFaults 1
  let s := (s.sf c.base F.fetFaultLo (va % 2 ^ 32)).sf c.base F.fetFaultHiAddr (va / 2 ^ 32 % 2 ^ 20)
  let s := (s.sf c.base F.fetFaultHiQueue q).flag c.base F.fetFaultHiDst dst
  s.serviceEvent c.die (0x800 + kind)

/-- A request's destination cut where the ring wraps. -/
def Desc.cutRing (d : Desc) (row p i1 i0 len : Nat) : List (Nat × Nat × Nat) :=
  let k := min len (d.toWrap p i1 i0)
  let first := (0, (d.dstAt row p i1 i0 % (2 ^ 52 : Int)).toNat, k)
  if k < len then [first, (k, (d.dstAt row p i1 (i0 + k) % (2 ^ 52 : Int)).toNat, len - k)] else [first]

/-- Device-virtual parts translated page by page, or the first fault (R377). -/
def State.translateParts (s : State) (c : ClusterId) (n : Nat) (parts : List (Nat × Nat × Nat)) :
    Except (Nat × Walk) (List (Nat × Nat × Nat)) × State :=
  (parts.flatMap (fun p => (piecesOf p.2.1 p.2.2).map (fun q => (p.1 + (q.1 - p.2.1), q.1, q.2)))).foldl (fun a p =>
    match a.1 with
    | .error e => (.error e, a.2)
    | .ok done =>
      let t := a.2.translate c n p.2.1 true
      match t.1 with
      | .ok phys _ => (.ok (done ++ [(p.1, phys, p.2.2)]), t.2)
      | w => (.error (p.2.1, w), t.2)) (.ok [], s)

/-- The length of the next request of a queue: at most to the next 1,024-byte boundary of its source and the end of its run (R268). -/
def nextLength (d : Desc) (src i0 : Nat) : Nat := min (d.count 0 - i0) (1024 - src % 1024)

/-- The next place of a row after a request of some bytes. -/
def FetchQ.advance (x : FetchQ) (d : Desc) (len : Nat) : FetchQ :=
  if x.i0 + len < d.count 0 then { x with i0 := x.i0 + len }
  else if x.i1 + 1 < d.count 1 then { x with i0 := 0, i1 := x.i1 + 1 }
  else { x with i0 := 0, i1 := 0, rowOpen := false, row := x.row + 1 }

/-- The address of host memory that a request reads, if its source lies there. -/
def State.hostSource (s : State) (r : Request) : Option Nat :=
  if r.zero then none else match s.target r.src with | .host h => some h | _ => none

/-- A request that reads host memory asks the host over the die's route; without one it is held (R394, R403). -/
def State.askFor (s : State) (c : ClusterId) (r : Request) : State × Request :=
  match s.hostSource r with
  | some h => (s.askHost c.die h r.len, { r with asked := s.route c.die })
  | none => (s, r)

/-- Does a translation of a fetch engine wait for a route to the host, because it must walk tables in host memory (R403)? -/
def State.translateHeld (s : State) (c : ClusterId) (n va : Nat) (write : Bool) : Bool :=
  (s.cachedFor c n (va / 2 ^ 16) write).isNone && s.walkHeld c.die n va write

/-- A queue issues its next request within its outstanding limit, translating its addresses (R268, R269, R280); a walk of tables in host memory
waits for a route (R403). -/
def State.requestIssue (s : State) (c : ClusterId) (q : Nat) : State :=
  let x := s.fq c q
  let d := parseDesc x.desc
  let n := s.fqSession c q
  if !s.fetchOn c || s.fqState c q != Fq.active || !x.rowOpen || decide (d.outstanding ≤ x.inflight.length) then s
  else
    let p := s.rowLine c q d x.row
    let src := (d.srcAt x.row x.i1 x.i0 % (2 ^ 52 : Int)).toNat
    let len := nextLength d src x.i0
    let parts := d.cutRing x.row p x.i1 x.i0 len
    let dst := if d.dstKind = 0 then parts.flatMap (fun t => (piecesOf t.2.1 t.2.2).map (·.1)) else []
    if (d.srcKind == 0 && !x.poisoned && s.translateHeld c n src false) || dst.any (fun v => s.translateHeld c n v true) then
      s.raise (key c.die 0) F.lnkDieErrHostLost
    else
    let a := if d.srcKind = 0 ∧ !x.poisoned then s.translate c n src false
      else (.ok (s.sideAddr c n d.srcKind d.srcLoc src) true, s)
    match a.1 with
    | .fault kind level entry => a.2.park c q src false kind level entry
    | .ok from_ _ =>
      let b := if d.dstKind = 0 then a.2.translateParts c n parts
        else (.ok (parts.map (fun t => (t.1, s.sideAddr c n d.dstKind d.dstLoc t.2.1, t.2.2))), a.2)
      match b.1 with
      | .error (va, .fault kind level entry) => b.2.park c q va true kind level entry
      | .error _ => b.2
      | .ok ps =>
        let pages := (if d.srcKind = 0 then [src / 2 ^ 16] else [])
          ++ dst.map (· / 2 ^ 16)
        let t := b.2.askFor c { src := from_, len := len, parts := ps, pages := pages, row := x.row, zero := x.poisoned }
        t.1.putFq c q ({ x with inflight := x.inflight ++ [t.2] }.advance d len)

def execFetchRequestIssue (c : ClusterId) (q : FetchNo) (s : State) : Result :=
  onDie c.die s (fun s => s.requestIssue c q)

/-! ### Returns -/

/-- A part of a request cut at the lines of its destination. -/
def cutLines : Nat → Nat → Nat → Nat → List (Nat × Nat × Nat)
  | 0, _, _, _ => []
  | fuel + 1, off, a, n =>
    if n = 0 then []
    else
      let k := min n (64 - a % 64)
      (off, a, k) :: cutLines fuel (off + k) (a + k) (n - k)

/-- How the writes of a request end: made, or the status with which its session ends. -/
abbrev Written := State × Option Nat

/-- Is an address in GDDR7 or CXL memory? -/
def State.inDram (s : State) (a : Nat) : Bool := match s.target a with | .gddr _ => true | .cxl _ => true | _ => false

/-- A write of a queue that its target refuses or loses: WRITE_REFUSED (R568). -/
def State.fetchRefused (s : State) (c : ClusterId) (q : Nat) : State := s.fetErr c q F.fetErrWriteRefused

/-- Bytes delivered to a store become inputs of the tile-step that runs there (R248), and whoever produced them is one that it reads from (R449). -/
def State.delivered (s : State) (a : Nat) (bytes : List Byte) : State :=
  match s.target a with
  | .store d r sl _ => (match clusterOfNo (clusterNo d r sl) with | some e => s.noteInput e a bytes | none => s)
  | _ => s

/-- Bytes that a request has read: those of host memory came with its READ_DATA, the others are read at their memory. -/
def State.sourceRead (s : State) (c : ClusterId) (r : Request) (off n : Nat) : List Byte × Bool × State :=
  match s.hostSource r with
  | some h =>
    let x := s.hostRead c.die (h + off) n
    (x.1, x.2, if x.2 then s.poisonEvent c.die else s)
  | none => s.physRead c.die (r.src + off) n

/-- One line of a request: its bytes are read at the source and written at the destination with their poison (R285); a poisoned write
over a host link ends the session (R286), a refused one ends it under R568, one that the poison directory cannot take under R370. A source
line that memory has failed to give is delivered as poisoned zeros (R368). A line delivered to a cluster's store is an input of its tile-step (R248). -/
def State.moveLine (s : State) (c : ClusterId) (q n : Nat) (r : Request) (bad : List Nat) (p : Nat × Nat × Nat) : Written :=
  let a := if r.zero then (List.replicate p.2.2 0, true, s) else s.sourceRead c r p.1 p.2.2
  let t := if r.zero then a.2.2 else a.2.2.touchRx (r.src + p.1) p.2.2
  let lost := bad.any (fun l => (linesOf (r.src + p.1) p.2.2).contains l)
  let bytes := if lost then List.replicate p.2.2 0 else a.1
  let poison := a.2.1 || lost
  let host := match s.target p.2.1 with | .host _ => true | _ => false
  if poison && host then (t.raise c.base F.exeErrPoisonIn, some St.poisonConsumed)
  else
    let w := t.physWrite c.die n p.2.1 bytes poison (some (c.fetchNo q))
    match w.2 with
    | .refused => (w.1.fetchRefused c q, some St.fetDstFault)
    | .dirFull => (w.1, some St.poisonConsumed)
    | _ =>
      let s := w.1.derive p.2.1 p.2.2 (if r.zero then [] else w.1.producers (r.src + p.1) p.2.2)
      let s := (s.noteTransfer c (s.fq c q).armer { addr := p.2.1, bytes := bytes, poison := poison }).delivered p.2.1 bytes
      let s := s.bump c.base F.fetBytes p.2.2
      (if poison then s.fetErr c q F.fetErrPoisonOut else s, none)

/-- The writes of a request, line by line, up to the first that fails. -/
def State.moveRequest (s : State) (c : ClusterId) (q n : Nat) (r : Request) (bad : List Nat) : Written :=
  (r.parts.flatMap (fun p => cutLines (p.2.2 + 1) p.1 p.2.1 p.2.2)).foldl (fun (a : Written) p =>
    match a.2 with
    | some st => (a.1, some st)
    | none => a.1.moveLine c q n r bad p) (s, none)

/-- The line of a request that an event names. -/
def Request.eventLine (r : Request) (e : LineEvent) : Option Nat :=
  (if e.dst then r.parts.flatMap (fun p => linesOf p.2.1 p.2.2) else linesOf r.src r.len)[e.line]?

/-- What the memory of a request reports for some of its lines. -/
def State.requestEvents (s : State) (n : Nat) (r : Request) (evs : List LineEvent) : State :=
  evs.foldl (fun s e => match r.eventLine e with | some l => s.memEvent (l * 64) n e.ev | none => s) s

/-- A write burst that still fails after its retries enters its line after the write; every other report is applied before it (R368, R386). -/
def lateEvent (e : LineEvent) : Bool := e.dst && e.ev == .edcFail

/-- Source lines that memory has failed to give: in GDDR7 or CXL memory, reported uncorrectable or still failing (R368, R374). -/
def State.failedLines (s : State) (r : Request) (evs : List LineEvent) : List Nat :=
  evs.filterMap (fun e => if !e.dst && lineFails e.ev && s.inDram r.src then r.eventLine e else none)

/-- May a request not return yet: it has returned and waits for a host link, or its READ_REQ has not left (R269, R403)? -/
def State.unanswered (s : State) (c : ClusterId) (r : Request) : Bool :=
  r.held || match s.hostSource r with
    | none => false
    | some h => match r.asked with
      | none => s.routeHolds c.die
      | some l => (s.lnk l).waiting.any (fun p => match p.reply with
          | .hostRead _ a m => p.src == c.die.val && decide (h ≤ a) && decide (a + m ≤ h + r.len)
          | _ => false)

/-- Do bytes of a request wait for a host link (R403)? -/
def State.bytesWait (s : State) (no : Nat) (r : Request) : Bool :=
  s.waitingWrites.any (fun w => w.queue == some no && r.parts.any (fun p => decide (p.2.1 ≤ hostAddr w.addr) && decide (hostAddr w.addr < p.2.1 + p.2.2)))

/-- Requests whose bytes have all left are outstanding no longer, and the rows that they complete are posted (R269, R272). -/
def State.releaseQueue (s : State) (c : ClusterId) (q : Nat) : State :=
  let x := s.fq c q
  if x.inflight.any (fun r => r.held && !s.bytesWait (c.fetchNo q) r) then
    let s := s.putFq c q { x with inflight := x.inflight.filter (fun r => !r.held || s.bytesWait (c.fetchNo q) r) }
    (s.postRows c q (s.fq c q).row).tryPause (s.fqSession c q)
  else s

/-- The same for every queue, after packets have left. -/
def State.releaseHeld (s : State) : State :=
  s.fetch.foldl (fun s e => match clusterOfNo (e.1 / 64) with | some c => s.releaseQueue c (e.1 % 64) | none => s) s

/-- A request returns, in any order of those in flight (R269): its data is written, and rows then complete are posted in order
(R272). While bytes of it wait for a host link it stays outstanding. -/
def State.requestReturn (s : State) (c : ClusterId) (q k : Nat) (evs : List LineEvent) : State :=
  let x := s.fq c q
  let n := s.fqSession c q
  match (x.inflight[k]?).filter (fun r => !s.unanswered c r) with
  | none => s
  | some r =>
    let s := s.putFq c q { x with inflight := x.inflight.eraseIdx k }
    if r.drop then s
    else
      let evs := evs.filter (fun e => e.dst || !r.zero)
      let s := s.requestEvents n r (evs.filter (fun e => !lateEvent e))
      if !s.fqBusy c q then s
      else
        let w := s.moveRequest c q n r (s.failedLines r evs)
        match w.2 with
        | some st => w.1.endSession n st (w.1.exeDetail c 0)
        | none =>
          let s := w.1.requestEvents n r (evs.filter lateEvent)
          if !s.fqBusy c q then s
          else
            let y := s.fq c q
            let s := if s.bytesWait (c.fetchNo q) r then s.putFq c q { y with inflight := y.inflight ++ [{ r with held := true }] } else s
            (s.postRows c q y.row).tryPause n

def execFetchRequestReturn (c : ClusterId) (q : FetchNo) (k : Nat) (evs : List LineEvent) (s : State) : Result :=
  onDie c.die s (fun s => s.requestReturn c q k evs)

/-! ### The service core's answers -/

/-- A parked queue goes on from its cursor (R281). -/
def State.resumeQueue (s : State) (c : ClusterId) (q : Nat) : State :=
  if s.fqState c q = Fq.parkedFault then
    (s.setFq c q { s.fq c q with fault := none }).setFqState c q Fq.active
  else s

/-- The service core gives up on a parked queue: on its source the rows left are delivered as poisoned zeros (R282), on its
destination the session ends (R283). -/
def State.giveUpQueue (s : State) (c : ClusterId) (q : Nat) : State :=
  let x := s.fq c q
  match x.fault with
  | none => s
  | some f =>
    if f.write then (s.fetErr c q F.fetErrDstFaultUnresolved).endSession (s.fqSession c q) St.fetDstFault (s.exeDetail c 0)
    else
      let s := (s.fetErr c q F.fetErrSrcFaultUnresolved).raise (c.fetchBase q) F.fetQStatusPoisoned
      (s.setFq c q { x with fault := none, poisoned := true }).setFqState c q Fq.active

end Sys2Proof.Machine
end

