-- ==== Sys2Proof/Machine/Matrix.lean ====
section
/-!
DEFINITION. The matrix instructions MM_INT, MM_LUT and MM_FLOAT (R210 to R214, R177 to R182), and FNLOAD (R197, R198, R569).
-/

namespace Sys2Proof.Machine

/-- What the three matrix instructions differ in. -/
inductive MatKind where
  | int | lut | float
  deriving DecidableEq, Repr

/-- The formats a matrix instruction may name (R135, R138, R173, R183). -/
def matFormats (k : MatKind) (a b : Nat) : Bool :=
  match k with
  | .int => decide (a ≤ 3) && (b == 0 || b == 2 || b == 3 || fmtWeight b)
  | .lut => decide (a ≤ 3) && fmtWeight b
  | .float => fmtFloat a && fmtFloat b && (a == b || (a == 8 && b == 6) || (a == 6 && b == 8))

/-- The record against its block (R211). -/
def unlikeBlock (w : Nat) (q : Qpb) (inFmt wFmt outFmt n : Nat) : Bool :=
  iQpbEn w && (inFmt != q.inFmt || wFmt != q.wFmt || n != q.nCh || (iNarrow w && outFmt != q.outFmt))

/-- The record against its block and its instruction (R211). -/
def badPairing (w : Nat) (q : Qpb) (inFmt wFmt outFmt n : Nat) : Bool :=
  unlikeBlock w q inFmt wFmt outFmt n || (!iNarrow w && outFmt != 5) || (iAccInit w == 1 && !iQpbEn w)

/-- What an integer accumulation of row m and channel n starts from (R140): with ACC_INIT = 2 what the cell holds, from an earlier channel of the
row when there is one; with ACC_INIT = 3 the partial sum stored at PART_BASE (notes/assumptions/63.md). -/
def State.matInit (s : State) (c : ClusterId) (w : Nat) (q : Qpb) (r : MatRec) (m n : Nat) (prev : Option (Int × Bool × Bool)) : Int × Bool :=
  match iAccInit w with
  | 1 => (s.biasOf w q n, false)
  | 2 => match prev with
    | some p => (signedN 48 (patternN 48 p.1), p.2.2)
    | none => let a := s.accInt c (iUnits w) n; (a.value.toInt, a.poison)
  | 3 =>
    let e := s.elem c (r.partBase + m * (r.outPitch * 2) + n * 8) 8
    (intOf 5 e.1, e.2)
  | _ => (0, false)

/-- The same for an FP32 accumulation: a bias or a stored sum is converted (R156). -/
def State.matInitF (s : State) (c : ClusterId) (w : Nat) (q : Qpb) (r : MatRec) (m n : Nat) (prev : Option (Nat × FpEvents × Bool)) : Nat × Bool :=
  if iAccInit w = 2 then
    match prev with
    | some p => (p.1, p.2.2)
    | none => let a := s.accFloat c (iUnits w) n; (a.value.toNat, a.poison)
  else
    let i := s.matInit c w q r m n none
    ((fpRound 8 (fvOfInt i.1)).1, i.2)

/-- Row m of the streaming operand, patterns with poison. -/
def State.matRow (s : State) (c : ClusterId) (r : MatRec) (m : Nat) : List (Nat × Bool) :=
  (List.range r.k).map (fun k => s.elem c (r.aBase + m * r.aPitch + k * fmtBytes r.aFmt) (fmtBytes r.aFmt))

/-- Channel n of the stationary operand. -/
def State.matCol (s : State) (c : ClusterId) (q : Qpb) (r : MatRec) (st : Stream) (n : Nat) : List (Nat × Bool) :=
  (List.range r.k).map (fun k => s.stationary c r.bSrc r.bBase r.bPitch r.bFmt k q.blockLen r.k st n)

/-- The operand a' after the zero point (R174). -/
def afterZero (fmt : Nat) (zp : Int) (p : Nat) : Int := if fmt ≤ 1 then intOf fmt p - zp else intOf fmt p

/-- The operands that the tables of a lookup instruction were built from, or those of an instruction without tables: the state that holds the
streaming operand and the codebooks, and the block in it (R181, R192). -/
structure TableSource where
  src : State
  q   : Qpb

/-- The accumulator of an integer output element: its value, whether it overflowed, its poison (R211). -/
def State.matCell (s : State) (c : ClusterId) (w : Nat) (q : Qpb) (r : MatRec) (x : TableSource) (lookup : Bool) (st : Stream) (m n : Nat)
    (prev : Option (Int × Bool × Bool)) : Int × Bool × Bool :=
  let init := s.matInit c w q r m n prev
  cellInt r.aFmt r.bFmt lookup q.blockLen (blockCodes q.blockLen r.k n st) init.1
    ((x.src.matRow c r m).map (fun a => (afterZero r.aFmt x.q.zpIn a.1, a.2)))
    ((s.matCol c q r st n).map (fun b => (x.src.stationaryInt x.q n r.bFmt b.1, b.2))) init.2

/-- The accumulators of row m of MM_INT or MM_LUT, channel by channel. -/
def State.matAccs (s : State) (c : ClusterId) (w : Nat) (q : Qpb) (r : MatRec) (x : TableSource) (lookup : Bool) (st : Stream) (m : Nat) :
    List (Int × Bool × Bool) :=
  cellChain r.n (64 * unitCount (iUnits w)) (s.matCell c w q r x lookup st m)

/-- The output element of row m and channel n of MM_INT or MM_LUT, from its accumulator (R211). -/
def State.matElement (s : State) (c : ClusterId) (w : Nat) (q : Qpb) (r : MatRec) (m n : Nat) (a : Int × Bool × Bool) : Element :=
  let o := if iNarrow w then s.intWrite c w q r.outFmt n a.1 else (containerOf 5 a.1, false, {})
  { off := r.outBase + m * r.outPitch + n * fmtBytes r.outFmt, bytes := o.1, poison := a.2.2, sat := o.2.1, overflow := a.2.1,
    events := o.2.2, index := m * r.n + n }

/-- The FP32 accumulator of an output element of MM_FLOAT, its events and its poison. -/
def State.matCellF (s : State) (c : ClusterId) (w : Nat) (q : Qpb) (r : MatRec) (st : Stream) (m n : Nat)
    (prev : Option (Nat × FpEvents × Bool)) : Nat × FpEvents × Bool :=
  let init := s.matInitF c w q r m n prev
  let as := s.matRow c r m
  let bs := s.matCol c q r st n
  let terms := if q.blockLen = 0 then floatTerms r.aFmt r.bFmt (as.map (·.1)) (bs.map (·.1))
    else floatBlocks r.aFmt r.bFmt q.blockLen (blockCodes q.blockLen r.k n st) (as.map (·.1)) (bs.map (·.1))
  let a := floatReduce (s.floatMode c w (m * r.n + n) n) init.1 terms
  (a.1, a.2, init.2 || as.any (·.2) || bs.any (·.2))

/-- The accumulators of row m of MM_FLOAT, channel by channel. -/
def State.matAccsF (s : State) (c : ClusterId) (w : Nat) (q : Qpb) (r : MatRec) (st : Stream) (m : Nat) : List (Nat × FpEvents × Bool) :=
  cellChain r.n (64 * unitCount (iUnits w)) (s.matCellF c w q r st m)

/-- The output element of row m and channel n of MM_FLOAT, from its accumulator. -/
def State.matElementF (s : State) (c : ClusterId) (w : Nat) (q : Qpb) (r : MatRec) (m n : Nat) (a : Nat × FpEvents × Bool) : Element :=
  let o := s.floatOut c w q (iNarrow w && iQpbEn w) r.outFmt n a.1
  { off := r.outBase + m * r.outPitch + n * fmtBytes r.outFmt, bytes := o.1, poison := a.2.2, sat := o.2.1,
    events := a.2.1.join o.2.2, index := m * r.n + n }

/-- The ranges of the store that a matrix instruction reads and writes. -/
def matOutside (w : Nat) (r : MatRec) : Bool :=
  outOfStore r.aBase ((r.m - 1) * r.aPitch + rowBytes r.aFmt r.k)
    || outOfStore r.outBase ((r.m - 1) * r.outPitch + rowBytes r.outFmt r.n)
    || (r.bSrc == 0 && outOfStore r.bBase ((r.n - 1) * r.bPitch + rowBytes r.bFmt r.k))
    || (iAccInit w == 3 && outOfStore r.partBase ((r.m - 1) * (r.outPitch * 2) + 8 * r.n))

/-- Where the tables of an instruction come from: the state and the block that its TBUILD found, or those of the instruction itself. None: a
lookup instruction whose tables are not there. -/
def State.tableSource (s : State) (c : ClusterId) (w : Nat) (lookup : Bool) (inFmt wFmt outFmt n : Nat) (q : Qpb) : Option TableSource :=
  if !lookup then some { src := s, q := q }
  else ((s.cl c).tablesFor (s.cl c).issue).map (fun b =>
    let t := s.withBuilt c b
    { src := t, q := match t.readQpb c w inFmt wFmt outFmt n with | .ok q => q | _ => q })

/-- The computation of a matrix instruction whose record and block are in order; the cells keep the accumulators of its last row. -/
def State.matCompute (s : State) (c : ClusterId) (w : Nat) (k : MatKind) (q : Qpb) (r : MatRec) (x : TableSource) (st : Stream) : Run :=
  match k with
  | .float =>
    let rows := (List.range r.m).map (s.matAccsF c w q r st)
    let es := (rows.zipIdx.map (fun row => row.1.zipIdx.map (fun a => s.matElementF c w q r row.2 a.2 a.1))).flatten
    runOf ((s.keepFloat c (iUnits w) (rows.getLastD [])).arrived c w) c es
  | _ =>
    let rows := (List.range r.m).map (s.matAccs c w q r x (k == .lut) st)
    let es := (rows.zipIdx.map (fun row => row.1.zipIdx.map (fun a => s.matElement c w q r row.2 a.2 a.1))).flatten
    runOf (s.keepInt c (iUnits w) (rows.getLastD [])) c es

/-- With ACC_INIT = 2, M is 1 and the unit pipe's previous instruction had the same N and UNITS (R211). -/
def State.badContinue (s : State) (c : ClusterId) (w : Nat) (r : MatRec) : Bool :=
  iAccInit w == 2 && (r.m != 1 || (s.cl c).accN != r.n || (s.cl c).accUnits.toNat != iUnits w)

/-- A matrix instruction from its record and its block. A lookup instruction takes its tables from the half of the lookup buffer that the TBUILD
before it has filled, and waits for them where there are none (R181, R214). -/
def State.matRun (s : State) (c : ClusterId) (w : Nat) (k : MatKind) : Run :=
  let raw := s.bytes (c.store + iRec w) 64
  let r := parseMat raw
  if s.anyPoison (c.store + iRec w) 64 then { st := s, poison := true }
  else if badMat raw r || !matFormats k r.aFmt r.bFmt then badRecord s
  else
    match s.readQpb c w r.aFmt r.bFmt r.outFmt r.n with
    | .fail f => runFail s f.1 f.2
    | .poison => { st := s, poison := true }
    | .empty => { st := s }
    | .ok q =>
      if badPairing w q r.aFmt r.bFmt r.outFmt r.n || s.badContinue c w r then badRecord s
      else if r.m = 0 ∨ r.n = 0 ∨ r.k = 0 then { st := s }
      else if matOutside w r then storeBounds s
      else
        match s.tableSource c w (k == .lut) r.aFmt r.bFmt r.outFmt r.n q, s.takeStream c r.bSrc r.bBase r.n r.k q with
        | some x, some (st, t) => t.matCompute c w k q r x st
        | _, _ => { st := s, wait := true }

/-- MM_INT, MM_LUT and MM_FLOAT. -/
def workMat (k : MatKind) : Work := fun c w s => s.matRun c w k

/-- MM_INT (R211): integer matrix product. -/
def execMmInt (c : ClusterId) (s : State) : Result :=
  onDie c.die s (fun s => s.issueWith c 0x20 (workMat .int) afterNone)

/-- MM_LUT (R211, R214): lookup-mode matrix product. -/
def execMmLut (c : ClusterId) (s : State) : Result :=
  onDie c.die s (fun s => s.issueWith c 0x21 (workMat .lut) afterNone)

/-- MM_FLOAT (R153, R211): float matrix product. -/
def execMmFloat (c : ClusterId) (s : State) : Result :=
  onDie c.die s (fun s => s.issueWith c 0x22 (workMat .float) afterNone)

/-- Is an instruction that uses function table t running (R198)? The finish pipe's own earlier instructions have ended (R201, R204). -/
def State.fnInUse (s : State) (c : ClusterId) (t : Nat) : Bool := (s.cl c).unitPipe.any (fun f => f.fn == t + 1)

/-- FNLOAD (R197, R569): the finish record's source and element count name the entries; a table in use keeps its entries, and
FN_WRITE_WHILE_ACTIVE is set (R198). -/
def workFnload : Work := fun c w s =>
  let raw := s.bytes (c.store + iRec w) 64
  let src := leAt raw 0 4
  let count := leAt raw 24 2
  if s.anyPoison (c.store + iRec w) 64 then { st := s, poison := true }
  else if 1025 < count ∨ src % 64 ≠ 0 then badRecord s
  else if outOfStore src (2 * count) then storeBounds s
  else if count ≠ 0 ∧ s.anyPoison (c.store + src) (2 * count) then { st := s, poison := true }
  else
    let t := Config.fnTable (BitVec.ofNat 128 w) raw % 2
    if s.fnInUse c t then { st := s.raise c.base F.exeErrFnWriteWhileActive }
    else
      let x := s.cl c
      let new := (List.range count).map (fun i => BitVec.ofNat 16 (s.le (c.store + src + 2 * i) 2))
      let merge := fun (old : List (BitVec 16)) => new ++ old.drop count
      { st := s.setCl c (if t = 0 then { x with fn0 := merge x.fn0 } else { x with fn1 := merge x.fn1 }) }

def execFnload (c : ClusterId) (s : State) : Result :=
  onDie c.die s (fun s => s.issueWith c 0x41 workFnload afterNone)

end Sys2Proof.Machine
end

