-- ==== Sys2Proof/Machine/Window.lean ====
section
/-!
DEFINITION. The windowed operators CONV_INT, CONV_LUT, CONV_FLOAT, POOL and RESAMPLE (R232 to R257): the window generator's taps
with their padding, the mask, the reductions, and the layouts they are written in; and TBUILD, which builds the tables of MM_LUT and CONV_LUT
(R177, R181, R214).
-/

namespace Sys2Proof.Machine

/-- A tap as the window generator supplies it: an operand (a' for integers, a pattern for floats), its poison, and whether it lies
inside the tensor; none: no value, the tap is left out (R241, R242). -/
structure Tap where
  value  : Int
  poison : Bool
  inside : Bool
  deriving DecidableEq, Repr

/-- The value of a stored element: a' for an integer format, the pattern for a float. -/
def tapValue (fmt : Nat) (zp : Int) (p : Nat) : Int := if fmtFloat fmt then (p : Int) else afterZero fmt zp p

/-- A stored input element. -/
def State.tapAt (s : State) (c : ClusterId) (r : WinRec) (zp : Int) (ch x y : Nat) (inside : Bool) : Tap :=
  let e := s.elem c (r.inAddr ch y x) (fmtBytes r.aFmt)
  { value := tapValue r.aFmt zp e.1, poison := e.2, inside := inside }

/-- The tap at an input coordinate of a channel (R237, R241). -/
def State.tap (s : State) (c : ClusterId) (r : WinRec) (zp : Int) (ch : Nat) (x y : Int) : Option Tap :=
  if 0 ≤ x ∧ x < r.w ∧ 0 ≤ y ∧ y < r.h then some (s.tapAt c r zp ch x.toNat y.toNat true)
  else match r.padMode with
    | 0 => some { value := 0, poison := false, inside := false }
    | 1 => some { value := tapValue r.aFmt zp r.padConst, poison := false, inside := false }
    | 2 => some (s.tapAt c r zp ch (padIndex false x r.w) (padIndex false y r.h) false)
    | 3 => some (s.tapAt c r zp ch (padIndex true x r.w) (padIndex true y r.h) false)
    | _ => none

/-- Is tap (kx, ky) taken, and how many channels of the group does it read (R244)? Every channel, but the first CTR_C at the centre
of a masked window. -/
def State.tapChannels (s : State) (c : ClusterId) (r : WinRec) (kx ky : Nat) : Nat :=
  if !r.maskEn then r.cg
  else if kx = r.fw / 2 ∧ ky = r.fh / 2 then s.le (c.store + r.mask + 30) 2
  else
    let b := ky * r.fw + kx
    if bitN (s.byte (c.store + r.mask + b / 8)).toNat (b % 8) then r.cg else 0

/-- A mask block that R244 forbids: CTR_C above the channels of a group, or another byte that is not 0. -/
def State.badMask (s : State) (c : ClusterId) (r : WinRec) : Bool :=
  r.maskEn && (decide (r.cg < s.le (c.store + r.mask + 30) 2) || s.byte (c.store + r.mask + 29) != 0
    || (s.bytes (c.store + r.mask + 32) 32).any (fun b => b != 0))

/-- The reduction of one output element: channel, kx, ky in the order of R238. -/
def State.reduction (s : State) (c : ClusterId) (r : WinRec) (n : Nat) : List (Nat × Nat × Nat) :=
  r.taps.flatMap (fun t => (List.range (s.tapChannels c r t.1 t.2)).map (fun i => (r.groupOf n * r.cg + i, t.1, t.2)))

/-- K of an instruction (R238): every channel has the same reduction length. -/
def State.winK (s : State) (c : ClusterId) (r : WinRec) : Nat := (r.taps.map (fun t => s.tapChannels c r t.1 t.2)).sum

/-- The operands of one output element, in the order of the reduction. -/
def State.window (s : State) (c : ClusterId) (r : WinRec) (zp : Int) (n xo yo : Nat) : List Tap :=
  (s.reduction c r n).filterMap (fun k => s.tap c r zp k.1 (r.tapX xo k.2.1) (r.tapY yo k.2.2))

/-- The weights of output channel n, in the order of the reduction. -/
def State.winCol (s : State) (c : ClusterId) (q : Qpb) (r : WinRec) (k : Nat) (st : Stream) (n : Nat) : List (Nat × Bool) :=
  let pitch := (rowBytes r.bFmt k + 63) / 64 * 64
  (List.range k).map (fun i => s.stationary c r.bSrc r.bBase pitch r.bFmt i q.blockLen k st n)

/-- Where the output element (n, y, x) goes: a rectangular tensor, or row j of a diagonal (R234, R246). -/
def winOut (r : WinRec) (j n x y : Nat) : Nat :=
  if r.diag then r.outBase + j * r.outPitch + n * fmtBytes r.outFmt else r.outAddr n y x

/-- The output positions an instruction computes: (j, x, y). -/
def winPositions (r : WinRec) (width : Nat) : List (Nat × Nat × Nat) :=
  if r.diag then (r.diagonal.zipIdx).map (fun p => (p.2, p.1.1, p.1.2))
  else (List.range' r.outY0 (r.outY1 + 1 - r.outY0)).flatMap (fun y => (List.range width).map (fun x => (0, x, y)))

/-- The channels that exist only to fill the last block: their bytes are written as 0 (R233). -/
def padElements (r : WinRec) (width : Nat) : List Element :=
  if r.diag then []
  else
    let top := (r.n + r.outB - 1) / r.outB * r.outB
    (winPositions r width).flatMap (fun p => (List.range' r.n (top - r.n)).map (fun n =>
      { off := r.outAddr n p.2.2 p.2.1, bytes := List.replicate (fmtBytes r.outFmt) 0 }))

/-- The linear index of output element (n, y, x), or of position j of a diagonal (R160). -/
def winIndex (r : WinRec) (width j n x y : Nat) : Nat := if r.diag then j * r.n + n else ((y - r.outY0) * width + x) * r.n + n

/-- The accumulator of an output element of CONV_INT or CONV_LUT: its value, whether it overflowed, its poison (R240). -/
def State.convCell (s : State) (c : ClusterId) (w : Nat) (q : Qpb) (r : WinRec) (t : TableSource) (lookup : Bool) (k : Nat) (st : Stream)
    (n x y : Nat) : Int × Bool × Bool :=
  let as := (t.src.window c r t.q.zpIn n x y).map (fun t => (t.value, t.poison))
  let bs := (s.winCol c q r k st n).map (fun b => (t.src.stationaryInt t.q n r.bFmt b.1, b.2))
  let init := if iAccInit w = 1 then s.biasOf w q n else 0
  cellInt r.aFmt r.bFmt lookup q.blockLen (blockCodes q.blockLen k n st) init as bs false

/-- An output element of CONV_INT or CONV_LUT, from its accumulator. -/
def State.convElement (s : State) (c : ClusterId) (w : Nat) (q : Qpb) (r : WinRec) (n j x y : Nat) (a : Int × Bool × Bool) : Element :=
  let o := if iNarrow w then s.intWrite c w q r.outFmt n a.1 else (containerOf 5 a.1, false, {})
  { off := winOut r j n x y, bytes := o.1, poison := a.2.2, sat := o.2.1, overflow := a.2.1, events := o.2.2, index := winIndex r r.wo j n x y }

/-- The FP32 accumulator of an output element of CONV_FLOAT, its events and its poison. -/
def State.convCellF (s : State) (c : ClusterId) (w : Nat) (q : Qpb) (r : WinRec) (k : Nat) (st : Stream) (n j x y : Nat) :
    Nat × FpEvents × Bool :=
  let taps := s.window c r 0 n x y
  let bs := s.winCol c q r k st n
  let start := if iAccInit w = 1 then (fpRound 8 (fvOfInt (s.biasOf w q n))).1 else 0
  let as := taps.map (fun t => t.value.toNat)
  let terms := if q.blockLen = 0 then floatTerms r.aFmt r.bFmt as (bs.map (·.1))
    else floatBlocks r.aFmt r.bFmt q.blockLen (blockCodes q.blockLen k n st) as (bs.map (·.1))
  let a := floatReduce (s.floatMode c w (winIndex r r.wo j n x y) n) start terms
  (a.1, a.2, taps.any (·.poison) || bs.any (·.2))

/-- An output element of CONV_FLOAT, from its accumulator. -/
def State.convElementF (s : State) (c : ClusterId) (w : Nat) (q : Qpb) (r : WinRec) (n j x y : Nat) (a : Nat × FpEvents × Bool) : Element :=
  let o := s.floatOut c w q (iNarrow w && iQpbEn w) r.outFmt n a.1
  { off := winOut r j n x y, bytes := o.1, poison := a.2.2, sat := o.2.1, events := a.2.1.join o.2.2, index := winIndex r r.wo j n x y }

/-! ### Pooling (R252) -/

/-- p of R252 for integers: the window's taps reduced as OP states. -/
def poolInt (op area : Nat) (taps : List Tap) : Int :=
  let vs := taps.map (·.value)
  match op with
  | 0 => match vs with | [] => 0 | v :: rest => rest.foldl max v
  | 1 => match vs with | [] => 0 | v :: rest => rest.foldl min v
  | 2 => if vs.isEmpty then 0 else roundDiv vs.sum area
  | _ =>
    let ins := (taps.filter (·.inside)).map (·.value)
    if ins.isEmpty then 0 else roundDiv ins.sum ins.length

/-- p of R252 for floats, as an FP32 pattern: sums accumulate in FP32, divisions are rounded (R154). -/
def poolFloat (fmt op area : Nat) (taps : List Tap) : Nat × FpEvents :=
  let vs := taps.map (fun t => fpOf fmt t.value.toNat)
  let nan := vs.any (·.isNan)
  let mean := fun (xs : List Fv) (d : Nat) =>
    let a := accumulateF 0 (xs.map (fun x => (x, ({} : FpEvents))))
    let q := fpDiv 8 (fpOf 8 a.1) d
    (q.1, (a.2.join { overflow := q.2 }))
  match op with
  | 0 => match vs with | [] => (0, {}) | v :: rest => ((fpRound 8 (rest.foldl fvMax v)).1, { nanIn := nan })
  | 1 => match vs with | [] => (0, {}) | v :: rest => ((fpRound 8 (rest.foldl fvMin v)).1, { nanIn := nan })
  | 2 => if vs.isEmpty then (0, {}) else mean vs area
  | _ =>
    let ins := (taps.filter (·.inside)).map (fun t => fpOf fmt t.value.toNat)
    if ins.isEmpty then (0, {}) else mean ins ins.length

/-- An output element of POOL. -/
def State.poolElement (s : State) (c : ClusterId) (w : Nat) (q : Qpb) (r : WinRec) (n j x y : Nat) : Element :=
  let taps := r.taps.filterMap (fun t => s.tap c r q.zpIn n (r.tapX x t.1) (r.tapY y t.2))
  let poison := taps.any (·.poison)
  let off := winOut r j n x y
  if fmtFloat r.aFmt then
    let p := poolFloat r.aFmt r.op (r.fh * r.fw) taps
    let o := s.floatOut c w q (iQpbEn w) r.outFmt n p.1
    { off := off, bytes := o.1, poison := poison, sat := o.2.1, events := p.2.join o.2.2, index := winIndex r r.wo j n x y }
  else
    let o := s.intWrite c w q r.outFmt n (poolInt r.op (r.fh * r.fw) taps)
    { off := off, bytes := o.1, poison := poison, sat := o.2.1, events := o.2.2, index := winIndex r r.wo j n x y }

/-! ### Resampling (R253) -/

/-- The input position of a resampled output element: channel, x, y. -/
def resampleFrom (r : WinRec) (n x y : Nat) : Nat × Nat × Nat :=
  let f := r.factor
  match r.op with
  | 2 => (n * (f * f) + y % f * f + x % f, x / f, y / f)
  | 3 => (n / (f * f), x * f + n % f, y * f + n % (f * f) / f)
  | _ => (n, x / f, y / f)

/-- The four taps of BILINEAR2 with their weights 9, 3, 3, 1, out-of-range neighbours by EDGE. -/
def State.bilinear (s : State) (c : ClusterId) (r : WinRec) (n x y : Nat) : List (Int × Tap) :=
  let i := y / 2
  let j := x / 2
  let jn : Int := if x % 2 = 0 then (j : Int) - 1 else j + 1
  let inn : Int := if y % 2 = 0 then (i : Int) - 1 else i + 1
  let at_ := fun (xx yy : Int) => s.tapAt c r 0 n (padIndex true xx r.w) (padIndex true yy r.h) true
  [(9, at_ j i), (3, at_ jn i), (3, at_ j inn), (1, at_ jn inn)]

/-- An output element of RESAMPLE; a NaN that it moves becomes the NaN of its format (R158). -/
def State.resampleElement (s : State) (c : ClusterId) (r : WinRec) (n j x y : Nat) : Element :=
  let off := winOut r j n x y
  if r.op = 1 then
    let ts := s.bilinear c r n x y
    let poison := ts.any (·.2.poison)
    if fmtFloat r.aFmt then
      let a := accumulateF 0 (ts.map (fun t => fvMul (.fin false t.1.toNat 0) (fpOf r.aFmt t.2.value.toNat)))
      let q := fpDiv r.outFmt (fpOf 8 a.1) 16
      { off := off, bytes := natLe (fmtBytes r.outFmt) q.1, poison := poison, events := a.2.join { overflow := q.2 },
        index := winIndex r (r.outW true) j n x y }
    else
      { off := off, bytes := containerOf r.outFmt (rshift (ts.map (fun t => t.1 * t.2.value)).sum 4), poison := poison }
  else
    let p := resampleFrom r n x y
    let t := s.tapAt c r 0 p.1 p.2.1 p.2.2 true
    let nan := fmtFloat r.outFmt && (fpOf r.outFmt t.value.toNat).isNan
    let v := if nan then fpNan r.outFmt else patternN (fmtBytes r.outFmt * 8) t.value
    { off := off, bytes := natLe (fmtBytes r.outFmt) v, poison := t.poison, events := { nanIn := nan } }

/-! ### The instructions -/

/-- The five instructions. -/
inductive WinOp where
  | int | lut | float | pool | resample
  deriving DecidableEq, Repr

def WinOp.kind : WinOp → WinKind
  | .pool => .pool
  | .resample => .resample
  | _ => .conv

/-- The formats a windowed instruction may name. -/
def winFormats (o : WinOp) (r : WinRec) : Bool :=
  match o with
  | .int => matFormats .int r.aFmt r.bFmt
  | .lut => matFormats .lut r.aFmt r.bFmt
  | .float => matFormats .float r.aFmt r.bFmt
  | _ => decide (r.aFmt ≤ 8) && decide (r.outFmt ≤ 8)

/-- The input position that a tap reads: its own, or by MIRROR and EDGE one inside the tensor (R241). -/
def WinRec.placeOf (r : WinRec) (x y : Int) : Option (Nat × Nat) :=
  if 0 ≤ x ∧ x < r.w ∧ 0 ≤ y ∧ y < r.h then some (x.toNat, y.toNat)
  else if r.padMode = 2 ∨ r.padMode = 3 then some (padIndex (r.padMode == 3) x r.w, padIndex (r.padMode == 3) y r.h)
  else none

/-- The input elements (channel, y, x) that an output element reads. -/
def State.elementsRead (s : State) (c : ClusterId) (r : WinRec) (o : WinOp) (n x y : Nat) : List (Nat × Nat × Nat) :=
  let at_ := fun (ch : Nat) (t : Nat × Nat) => (r.placeOf (r.tapX x t.1) (r.tapY y t.2)).map (fun p => (ch, p.2, p.1))
  match o with
  | .pool => r.taps.filterMap (at_ n)
  | .resample =>
    if r.op = 1 then
      let i := y / 2
      let j := x / 2
      let rows := [i, padIndex true (if y % 2 = 0 then (i : Int) - 1 else i + 1) r.h]
      rows.flatMap (fun i => [(n, i, j), (n, i, padIndex true (if x % 2 = 0 then (j : Int) - 1 else j + 1) r.w)])
    else
      let p := resampleFrom r n x y
      [(p.1, p.2.2, p.2.1)]
  | _ => (s.reduction c r n).filterMap (fun k => at_ k.1 k.2)

/-- The positions and channels that an instruction computes, channel by channel: (n, j, x, y). -/
def winPoints (r : WinRec) (o : WinOp) : List (Nat × Nat × Nat × Nat) :=
  (List.range r.n).flatMap (fun n => (winPositions r (r.outW (o == .resample))).map (fun p => (n, p)))

/-- Does an input element lie outside the store? A row above those held lies below IN_BASE (notes/assumptions/64.md). -/
def WinRec.inputOutside (r : WinRec) (e : Nat × Nat × Nat) : Bool :=
  decide (r.inBase + e.1 / r.inB * (r.rowHi - r.rowLo + 1) * r.inPitch + e.2.1 * r.inPitch < r.rowLo * r.inPitch)
    || outOfStore (r.inAddr e.1 e.2.1 e.2.2) (fmtBytes r.aFmt)

/-- Does a windowed instruction read or write an address beyond the store (R229)? -/
def State.winOutside (s : State) (c : ClusterId) (r : WinRec) (o : WinOp) (k : Nat) : Bool :=
  let width := r.outW (o == .resample)
  let lines := (r.n + r.outB - 1) / r.outB * (r.outY1 - r.outY0 + 1)
  (winPoints r o).any (fun p => (s.elementsRead c r o p.1 p.2.2.1 p.2.2.2).any r.inputOutside)
    || (if r.diag then outOfStore r.outBase ((r.diagonal.length - 1) * r.outPitch + r.n * fmtBytes r.outFmt)
        else outOfStore r.outBase ((lines - 1) * r.outPitch + width * r.outB * fmtBytes r.outFmt))
    || (o.kind == .conv && r.bSrc == 0
        && outOfStore r.bBase ((r.n - 1) * ((rowBytes r.bFmt k + 63) / 64 * 64) + rowBytes r.bFmt k))

/-- The last element that each channel's cell accumulates, in channel order. -/
def lastOf {α : Type} (ps : List (Nat × Nat × Nat × Nat)) (n : Nat) (as : List α) : List α :=
  (List.range n).filterMap (fun ch => (((ps.zip as).filter (fun x => x.1.1 == ch)).getLast?).map (·.2))

/-- The computation of a windowed instruction whose record and block are in order; the cells keep the accumulators of a convolution's last
position (R139). -/
def State.winCompute (s : State) (c : ClusterId) (w : Nat) (o : WinOp) (q : Qpb) (r : WinRec) (x : TableSource) (k : Nat) (st : Stream) : Run :=
  let ps := winPoints r o
  let pad := padElements r (r.outW (o == .resample))
  match o with
  | .float =>
    let as := ps.map (fun p => s.convCellF c w q r k st p.1 p.2.1 p.2.2.1 p.2.2.2)
    let es := List.zipWith (fun p a => s.convElementF c w q r p.1 p.2.1 p.2.2.1 p.2.2.2 a) ps as
    runOf ((s.keepFloat c (iUnits w) (lastOf ps r.n as)).arrived c w) c (es ++ pad)
  | .pool => runOf s c (ps.map (fun p => s.poolElement c w q r p.1 p.2.1 p.2.2.1 p.2.2.2) ++ pad)
  | .resample => runOf s c (ps.map (fun p => s.resampleElement c r p.1 p.2.1 p.2.2.1 p.2.2.2) ++ pad)
  | _ =>
    let as := ps.map (fun p => s.convCell c w q r x (o == .lut) k st p.1 p.2.2.1 p.2.2.2)
    let es := List.zipWith (fun p a => s.convElement c w q r p.1 p.2.1 p.2.2.1 p.2.2.2 a) ps as
    runOf (s.keepInt c (iUnits w) (lastOf ps r.n as)) c (es ++ pad)

/-- The record of a windowed instruction against its block (R211, R240, R252). -/
def winUnpaired (w : Nat) (o : WinOp) (q : Qpb) (r : WinRec) : Bool :=
  match o with
  | .pool => iQpbEn w && (r.aFmt != q.inFmt || r.outFmt != q.outFmt || r.n != q.nCh)
  | .resample => false
  | _ => badPairing w q r.aFmt r.bFmt r.outFmt r.n

/-- A windowed instruction from its record and its block. CONV_LUT takes its tables from the half of the lookup buffer that the TBUILD before it
has filled, and waits for them where there are none (R181, R214). -/
def State.winRun (s : State) (c : ClusterId) (w : Nat) (o : WinOp) : Run :=
  let raw := s.bytes (c.store + iRec w) 64
  let r := parseWin raw
  if s.anyPoison (c.store + iRec w) 64 then { st := s, poison := true }
  else if badWin raw r o.kind w || !winFormats o r then badRecord s
  else if r.maskEn && s.anyPoison (c.store + r.mask) 64 then { st := s, poison := true }
  else if s.badMask c r then badRecord s
  else
    match s.readQpb c w r.aFmt r.bFmt r.outFmt r.n with
    | .fail f => runFail s f.1 f.2
    | .poison => { st := s, poison := true }
    | .empty => { st := s }
    | .ok q =>
      let k := s.winK c r
      if winUnpaired w o q r then badRecord s
      else if r.empty o.kind || (o.kind == .conv && k == 0) || (r.diag && r.diagonal.isEmpty) then { st := s }
      else if s.winOutside c r o k then storeBounds s
      else if o.kind ≠ .conv then s.winCompute c w o q r { src := s, q := q } k { rows := [], scales := [] }
      else
        match s.tableSource c w (o == .lut) r.aFmt r.bFmt r.outFmt r.n q, s.takeStream c r.bSrc r.bBase r.n k q with
        | some x, some (st, t) => t.winCompute c w o q r x k st
        | _, _ => { st := s, wait := true }

/-! ### TBUILD (R177, R181, R192, R214) -/

/-- What a TBUILD reads of the record of its pair: whether it fails its checks, whether there is nothing to build (R193, R212, R239), its formats and
its channels. -/
structure BuildRec where
  bad   : Bool
  empty : Bool
  aFmt  : Nat
  bFmt  : Nat
  out   : Nat
  n     : Nat
  /-- Table sets: rows of the operand, or positions and passes; and the length of the reduction. -/
  rows  : Nat
  k     : Nat

/-- The record as MM_LUT or CONV_LUT lays it out: the lookup instruction follows the TBUILD in the list. -/
def State.buildRec (s : State) (c : ClusterId) (w : Nat) : BuildRec :=
  let raw := s.bytes (c.store + iRec w) 64
  let partner := s.listWord c ((s.cl c).issue + 1)
  if iOp partner = 0x61 then
    let r := parseWin raw
    { bad := badWin raw r .conv partner || !winFormats .lut r || s.badMask c r, empty := r.empty .conv || s.winK c r == 0 || (r.diag && r.diagonal.isEmpty)
      aFmt := r.aFmt, bFmt := r.bFmt, out := r.outFmt, n := r.n, rows := (winPositions r r.wo).length, k := s.winK c r }
  else
    let r := parseMat raw
    { bad := badMat raw r || !matFormats .lut r.aFmt r.bFmt, empty := r.m == 0 || r.n == 0 || r.k == 0, aFmt := r.aFmt, bFmt := r.bFmt,
      out := r.outFmt, n := r.n, rows := r.m, k := r.k }

/-- Tables that a half of a lookup buffer holds: 256 of 32 bytes, or 16 of 512 bytes for W8 (R181). -/
def halfTables (wFmt : Nat) : Nat := if wFmt = 12 then 16 else 256

/-- The halves that a TBUILD's tables go through: one when all of them fit it, else both in turn (R177, R179, R181). A codebook for each 64 channels
gives each of their blocks tables of its own (R172). -/
def BuildRec.halves (r : BuildRec) (q : Qpb) : Nat :=
  let books := if q.scope = 1 then (r.n + 63) / 64 else 1
  let tables := r.rows * pieceCount r.aFmt * ((r.k + groupSize r.bFmt - 1) / groupSize r.bFmt) * books
  if tables ≤ halfTables r.bFmt then 1 else 2

/-- Is no half free in the lookup buffer of some unit of UNITS (R181)? -/
def Cluster.noHalf (x : Cluster) (units : Nat) : Bool :=
  (List.range 8).any (fun u => bitN units u
    && decide (2 ≤ ((x.tables.filter (fun b => bitN (iUnits b.word.toNat) u)).map (·.halves)).sum))

/-- TBUILD builds the tables of the lookup instruction that follows into the halves of the lookup buffers of its units, from the operands and the block
as they stand at its start (R192); it waits until each of those units has a half free (R181). -/
def workBuild : Work := fun c w s =>
  if s.anyPoison (c.store + iRec w) 64 then { st := s, poison := true }
  else
    let r := s.buildRec c w
    if r.bad then badRecord s
    else
      match s.readQpb c w r.aFmt r.bFmt r.out r.n with
      | .fail f => runFail s f.1 f.2
      | .poison => { st := s, poison := true }
      | .empty => { st := s }
      | .ok q =>
        let x := s.cl c
        if r.empty then { st := s }
        else if x.noHalf (iUnits w) then { st := s, wait := true }
        else
          let lo := c.store / 64
          let b : Built := { index := x.issue, word := BitVec.ofNat 128 w, halves := r.halves q, cells := s.storeBytes c
                             lines := s.poison.filter (fun l => decide (lo ≤ l) && decide (l < lo + storeSize / 64)) }
          { st := s.setCl c { x with tables := x.tables ++ [b] } }

def execTbuild (c : ClusterId) (s : State) : Result :=
  onDie c.die s (fun s => s.issueWith c 0x40 workBuild afterNone)

/-! ### The rows -/

/-- CONV_INT (R240): integer convolution. -/
def execConvInt (c : ClusterId) (s : State) : Result :=
  onDie c.die s (fun s => s.issueWith c 0x60 (fun c w s => s.winRun c w .int) afterNone)

/-- CONV_LUT (R240, R214): lookup-mode convolution. -/
def execConvLut (c : ClusterId) (s : State) : Result :=
  onDie c.die s (fun s => s.issueWith c 0x61 (fun c w s => s.winRun c w .lut) afterNone)

/-- CONV_FLOAT (R240): float convolution. -/
def execConvFloat (c : ClusterId) (s : State) : Result :=
  onDie c.die s (fun s => s.issueWith c 0x62 (fun c w s => s.winRun c w .float) afterNone)

/-- POOL (R252). -/
def execPool (c : ClusterId) (s : State) : Result :=
  onDie c.die s (fun s => s.issueWith c 0x63 (fun c w s => s.winRun c w .pool) afterNone)

/-- RESAMPLE (R253). -/
def execResample (c : ClusterId) (s : State) : Result :=
  onDie c.die s (fun s => s.issueWith c 0x64 (fun c w s => s.winRun c w .resample) afterNone)

end Sys2Proof.Machine
end

