-- ==== Sys2Proof/Machine/Finish.lean ====
section
/-!
DEFINITION. The finish class (R207): REQUANT, elementwise and float functions, softmax and normalisation, the latent codec steps
(R65 to R68, R88, R90, R99) and the generator (R305 to R307).
-/

namespace Sys2Proof.Machine

/-- A finish record (R207): source, destination, element count and format; every other byte is 0. -/
structure FinRec where
  src    : Nat
  dst    : Nat
  count  : Nat
  outFmt : Nat
  deriving DecidableEq, Repr

def parseFin (r : List Byte) : FinRec := { src := leAt r 0 4, dst := leAt r 8 4, count := leAt r 24 2, outFmt := leAt r 34 1 }

/-- The bytes of a finish record that it does not use. -/
def finSpare (r : List Byte) : List Byte :=
  sliceB r 4 4 ++ sliceB r 12 12 ++ sliceB r 26 8 ++ sliceB r 35 29

/-- A finish record that fails R207, R210 or R135. -/
def badFin (raw : List Byte) (r : FinRec) (line : Bool) : Bool :=
  (finSpare raw).any (fun b => b != 0) || fmtReserved r.outFmt || fmtWeight r.outFmt
    || (if line then decide (8192 ≤ r.src) else r.src % 64 != 0 || decide (storeSize ≤ r.src))
    || r.dst % 64 != 0 || decide (storeSize ≤ r.dst)

/-- A finish instruction: its record and block are read and checked, its ranges lie inside the store, and its work follows.
Sizes are those of the source and of the destination in bytes. -/
def State.finish (s : State) (c : ClusterId) (w : Nat) (ok : FinRec → Bool) (inFmt : Option Nat) (sizes : FinRec → Nat × Nat)
    (work : FinRec → Qpb → Run) : Run :=
  let raw := s.bytes (c.store + iRec w) 64
  let r := parseFin raw
  if s.anyPoison (c.store + iRec w) 64 then { st := s, poison := true }
  else if badFin raw r false || !ok r then badRecord s
  else
    match s.readQpb c w (inFmt.getD r.outFmt) 0 r.outFmt 1 with
    | .fail f => runFail s f.1 f.2
    | .poison => { st := s, poison := true }
    | .empty => { st := s }
    | .ok q =>
      if iQpbEn w && q.outFmt != r.outFmt then badRecord s
      else if r.count = 0 then { st := s }
      else if outOfStore r.src (sizes r).1 || outOfStore r.dst (sizes r).2 then storeBounds s
      else work r q

/-- Source and destination of a finish instruction whose source elements take n bytes each. -/
def finSizes (n : Nat) (r : FinRec) : Nat × Nat := (r.count * n, r.count * fmtBytes r.outFmt)

/-- Output element i of a finish instruction with an integer value held inside the output format (R168). -/
def intElement (r : FinRec) (i : Nat) (v : Int) (poison : Bool) (sat : Bool := false) : Element :=
  let k := clampFmt r.outFmt v
  { off := r.dst + i * fmtBytes r.outFmt, bytes := containerOf r.outFmt k.1, poison := poison, sat := k.2 || sat, index := i }

/-- Output element i with a float value rounded to the output format (R154, R156). -/
def floatElement (r : FinRec) (i : Nat) (v : Fv) (e : FpEvents) (poison : Bool) : Element :=
  let k := fpRound r.outFmt v
  { off := r.dst + i * fmtBytes r.outFmt, bytes := natLe (fmtBytes r.outFmt) k.1, poison := poison,
    events := e.join { overflow := k.2 }, index := i }

def intOut (r : FinRec) : Bool := !fmtFloat r.outFmt
def floatOnly (r : FinRec) : Bool := fmtFloat r.outFmt

/-! ### REQUANT -/

/-- Element j of a stored INT48 tensor under R187; it is of channel j mod N_CH (notes/assumptions/21.md). -/
def State.requantElement (s : State) (c : ClusterId) (w : Nat) (r : FinRec) (q : Qpb) (j : Nat) : Element :=
  let e := s.elem c (r.src + 8 * j) 8
  let v := s.narrow c w q (j % max 1 q.nCh) (intOf 5 e.1)
  intElement r j v.1 e.2 v.2

def workRequant : Work := fun c w s =>
  s.finish c w intOut (some 5) (finSizes 8) (fun r q => runOf s c ((List.range r.count).map (s.requantElement c w r q)))

def execRequant (c : ClusterId) (s : State) : Result :=
  onDie c.die s (fun s => s.issueWith c 0x80 workRequant afterNone)

/-! ### Elementwise -/

/-- The operation of an elementwise instruction and the store offset of its second operand (notes/assumptions/5.md). -/
def finSelect (s : State) (c : ClusterId) (w n : Nat) : Nat :=
  Config.finishSelect (BitVec.ofNat 128 w) (s.bytes (c.store + iRec w) 64) % n
def finSecond (s : State) (c : ClusterId) (w : Nat) : Nat :=
  Config.finishSecond (BitVec.ofNat 128 w) (s.bytes (c.store + iRec w) 64)
def finOperand (s : State) (c : ClusterId) (w : Nat) : Nat := finSecond s c w % storeSize / 64 * 64

/-- Integer elementwise operations: add, subtract, multiply, minimum, maximum, rshift. -/
def ewInt (op : Nat) (a b : Int) : Int :=
  match op with
  | 0 => a + b
  | 1 => a - b
  | 2 => a * b
  | 3 => min a b
  | 4 => max a b
  | _ => rshift a (b.toNat % 64)

def State.ewIntElement (s : State) (c : ClusterId) (w : Nat) (r : FinRec) (q : Qpb) (j : Nat) : Element :=
  let f := q.inFmt
  let a := s.elem c (r.src + j * fmtBytes f) (fmtBytes f)
  let b := s.elem c (finOperand s c w + j * fmtBytes f) (fmtBytes f)
  let v := s.narrow c w q (j % max 1 q.nCh) (ewInt (finSelect s c w 6) (intOf f a.1) (intOf f b.1))
  intElement r j v.1 (a.2 || b.2) v.2

/-- EW_INT: an operand format with more than one element format is the block's IN_FMT, else OUT_FMT. -/
def workEwInt : Work := fun c w s =>
  s.finish c w intOut none (fun r => (0, r.count * fmtBytes r.outFmt)) (fun r q =>
    let n := r.count * fmtBytes q.inFmt
    if fmtFloat q.inFmt then badRecord s
    else if outOfStore r.src n || outOfStore (finOperand s c w) n then storeBounds s
    else runOf s c ((List.range r.count).map (s.ewIntElement c w r q)))

def execEwInt (c : ClusterId) (s : State) : Result :=
  onDie c.die s (fun s => s.issueWith c 0x81 workEwInt afterNone)

/-- Float elementwise operations: add, subtract, multiply, minimum, maximum (R154, R155). -/
def ewFloat (op : Nat) (a b : Fv) : Fv × FpEvents :=
  let nan : FpEvents := { nanIn := a.isNan || b.isNan }
  match op with
  | 0 => fvAdd a b
  | 1 => fvAdd a (fvNeg b)
  | 2 => fvMul a b
  | 3 => (fvMin a b, nan)
  | _ => (fvMax a b, nan)

/-- Does EW_FLOAT convert? Its sixth operation does (R156; notes/assumptions/5.md). -/
def ewConverts (s : State) (c : ClusterId) (w : Nat) : Bool := finSelect s c w 6 == 5

/-- The format of the operands of EW_FLOAT: that of the output when it is a float format, else FP32; a conversion has a source format of its own
(notes/assumptions/5.md). -/
def ewFormat (s : State) (c : ClusterId) (w : Nat) (r : FinRec) : Nat :=
  if ewConverts s c w then Config.finishSource (BitVec.ofNat 128 w) (s.bytes (c.store + iRec w) 64) % 9
  else if fmtFloat r.outFmt then r.outFmt else 8

/-- The value of a stored element as an exact float value (R156). -/
def valueOf (f p : Nat) : Fv := if fmtFloat f then fpOf f p else fvOfInt (intOf f p)

/-- Element j of EW_FLOAT: an operation on two operands, or the conversion of one, written in the output format; a result that goes to an integer format
is an FP32 result first (R154, R156). -/
def State.ewFloatElement (s : State) (c : ClusterId) (w : Nat) (r : FinRec) (j : Nat) : Element :=
  let f := ewFormat s c w r
  let a := s.elem c (r.src + j * fmtBytes f) (fmtBytes f)
  let b := s.elem c (finOperand s c w + j * fmtBytes f) (fmtBytes f)
  let x := valueOf f a.1
  let y := ewFloat (finSelect s c w 6) (fpOf f a.1) (fpOf f b.1)
  let v := if ewConverts s c w then (x, ({ nanIn := x.isNan } : FpEvents))
    else if fmtFloat r.outFmt then y
    else
      let p := fpRound 8 y.1
      (fpOf 8 p.1, y.2.join { overflow := p.2 })
  let o := floatWrite r.outFmt v.1
  { off := r.dst + j * fmtBytes r.outFmt, bytes := o.1, poison := a.2 || (!ewConverts s c w && b.2), sat := o.2.1, events := v.2.join o.2.2, index := j }

/-- Source of the format of the output. -/
def sameSizes (r : FinRec) : Nat × Nat := finSizes (fmtBytes r.outFmt) r

def workEwFloat : Work := fun c w s =>
  s.finish c w (fun _ => true) none (fun r => (0, r.count * fmtBytes r.outFmt)) (fun r _ =>
    let n := r.count * fmtBytes (ewFormat s c w r)
    if outOfStore r.src n || (!ewConverts s c w && outOfStore (finOperand s c w) n) then storeBounds s
    else runOf s c ((List.range r.count).map (s.ewFloatElement c w r)))

def execEwFloat (c : ClusterId) (s : State) : Result :=
  onDie c.die s (fun s => s.issueWith c 0x82 workEwFloat afterNone)

/-! ### Float functions (R157) -/

/-- A source element as an FP32 pattern; BF16 and FP16 convert exactly (R156). -/
def State.floatSource (s : State) (c : ClusterId) (r : FinRec) (j : Nat) : Nat × Bool :=
  let f := r.outFmt
  let e := s.elem c (r.src + j * fmtBytes f) (fmtBytes f)
  ((fpRound 8 (fpOf f e.1)).1, e.2)

def workFfn : Work := fun c w s =>
  s.finish c w floatOnly none sameSizes (fun r _ =>
    runOf s c ((List.range r.count).map (fun j =>
      let e := s.floatSource c r j
      let v := floatFn (finSelect s c w 8) e.1
      floatElement r j (fpOf 8 v.1) v.2 e.2)))

def execFfn (c : ClusterId) (s : State) : Result :=
  onDie c.die s (fun s => s.issueWith c 0x83 workFfn afterNone)

/-- An element of a row function (R157); a poisoned element makes the whole row poisoned (R285). -/
def State.rowElement (s : State) (c : ClusterId) (r : FinRec) (fn len j : Nat) : Element :=
  let first := j / len * len
  let row := (List.range (min len (r.count - first))).map (fun i => s.floatSource c r (first + i))
  let v := rowFn fn (row.map (·.1)) (j - first)
  floatElement r j (fpOf 8 v.1) v.2 (row.any (·.2))

def workRow (fn : State → ClusterId → Nat → Nat) : Work := fun c w s =>
  s.finish c w floatOnly none sameSizes (fun r _ =>
    let len := max 1 (min r.count (finSecond s c w))
    runOf s c ((List.range r.count).map (s.rowElement c r (fn s c w) len)))

def execSoftmax (c : ClusterId) (s : State) : Result :=
  onDie c.die s (fun s => s.issueWith c 0x84 (workRow (fun _ _ _ => 0)) afterNone)

/-- NORM: layer or RMS normalisation. -/
def execNorm (c : ClusterId) (s : State) : Result :=
  onDie c.die s (fun s => s.issueWith c 0x85 (workRow (fun s c w => 1 + finSelect s c w 2)) afterNone)

/-! ### The latent codec -/

/-- The scale of element j of a latent tensor (R68). -/
def State.groupOf (s : State) (c : ClusterId) (w j : Nat) : Nat :=
  Config.latentGroup (BitVec.ofNat 128 w) (s.bytes (c.store + iRec w) 64) j
def State.scaleOf (s : State) (c : ClusterId) (w j : Nat) : Nat :=
  (s.ses (s.rf c.base F.exeSession)).scale (s.groupOf c w j)

/-- LQUANT (R65): INT24 values to codes; a scale of 0 is a division by zero (R144). -/
def workLquant : Work := fun c w s =>
  s.finish c w intOut (some 3) (finSizes 4) (fun r _ =>
    let run := runOf s c ((List.range r.count).map (fun j =>
      let e := s.elem c (r.src + 4 * j) 4
      let k := quantise (intOf 3 e.1) (s.scaleOf c w j)
      intElement r j k.1 e.2 k.2))
    if (List.range r.count).any (fun j => s.scaleOf c w j == 0) then { run with trap := some .divZero } else run)

def execLquant (c : ClusterId) (s : State) : Result :=
  onDie c.die s (fun s => s.issueWith c 0x86 workLquant afterNone)

/-- LRECON (R66): codes to INT24 values. -/
def workLrecon : Work := fun c w s =>
  s.finish c w intOut (some 0) (finSizes 1) (fun r _ =>
    runOf s c ((List.range r.count).map (fun j =>
      let e := s.elem c (r.src + j) 1
      intElement r j (reconstruct (intOf 0 e.1) (s.scaleOf c w j)) e.2)))

def execLrecon (c : ClusterId) (s : State) : Result :=
  onDie c.die s (fun s => s.issueWith c 0x87 workLrecon afterNone)

/-- q_max of each scale group over the codes that an LSTAT names (R67). -/
def State.maxima (s : State) (c : ClusterId) (w : Nat) (r : FinRec) : Sparse Nat :=
  (List.range r.count).foldl (fun t j =>
    let g := s.groupOf c w j
    let q := (intOf 0 (s.elem c (r.src + j) 1).1).natAbs
    if t.any (fun e => e.1 == g) then t.map (fun e => if e.1 = g then (g, max e.2 q) else e)
    else (t.filter (fun e => decide (e.1 < g))) ++ [(g, q)] ++ t.filter (fun e => decide (g < e.1))) []

/-- The statistic of the open picture with the codes that an LSTAT of a cluster names, as they stand in its store (R67, R69). -/
def State.takeStat (s : State) (n : Nat) (c : ClusterId) (w : Nat) : State :=
  s.setSes n (closeScales (s.ses n) (s.maxima c w (parseFin (s.bytes (c.store + iRec w) 64))))

/-- LSTAT (R67, R68): the largest codes of every scale group that it names enter the open picture's statistic, and the scales of the next picture
are written in the order of the groups' numbers. -/
def workLstat : Work := fun c w s =>
  s.finish c w intOut (some 0) (fun r => (r.count, 0)) (fun r _ =>
    let n := s.rf c.base F.exeSession
    let gs := (s.maxima c w r).map (·.1)
    let x := ((s.takeStat n c w).ses n)
    let x := { x with stats := x.stats ++ [(c.no, BitVec.ofNat 128 w)] }
    let poison := s.anyPoison (c.store + r.src) r.count
    if outOfStore r.dst (gs.length * fmtBytes r.outFmt) then storeBounds s
    else runOf (s.setSes n x) c ((List.range gs.length).map (fun i => intElement r i (x.nextScale (gs.getD i 0)) poison)))

def execLstat (c : ClusterId) (s : State) : Result :=
  onDie c.die s (fun s => s.issueWith c 0x88 workLstat afterNone)

/-- CDF (R90): c[k] and c[k + 1] from a record of mean, scale and code; each clamp of R88 counts. -/
def workCdf : Work := fun c w s =>
  s.finish c w intOut (some 2) (fun r => (r.count * 8, r.count * 2 * fmtBytes r.outFmt)) (fun r _ =>
    let one := fun j =>
      let a := r.src + 8 * j
      let p := s.anyPoison (c.store + a) 8
      let m := clampMuSigma (intOf 2 (s.elem c a 2).1) (s.elem c (a + 2) 2).1
      let k := (intOf 0 (s.elem c (a + 4) 1).1 + 127).toNat
      ([intElement r (2 * j) (latentCdf m.1 m.2.1 k) p, intElement r (2 * j + 1) (latentCdf m.1 m.2.1 (k + 1)) p],
        if p then 0 else m.2.2)
    let all := (List.range r.count).map one
    let run := runOf s c (all.flatMap (·.1))
    { run with sat := run.sat + (all.map (·.2)).sum })

def execCdf (c : ClusterId) (s : State) : Result :=
  onDie c.die s (fun s => s.issueWith c 0x89 workCdf afterNone)

/-- Source bytes of one record of FEEDPACK by the kind of record it makes. -/
def packSource (kind : Nat) : Nat := if kind = 0 then 4 else if kind = 1 then 8 else 1

/-- A feed record (R99) from its upper word and a source element: A and B from μ and σ, from a CDF pair, or a code in SYM; a σ below
0 becomes 0 and counts (R88). -/
def packRecord (head : Nat) (src : List Byte) : Nat × Bool :=
  match fieldN head 55 53 with
  | 0 =>
    let sigma := signedN 16 (leAt src 2 2)
    (setFieldN (setFieldN head 15 0 (leAt src 0 2)) 31 16 (if sigma < 0 then 0 else sigma.toNat), decide (sigma < 0))
  | 1 =>
    let lo := leAt src 0 4
    (setFieldN (setFieldN head 15 0 lo) 31 16 (leAt src 4 4 - lo), false)
  | _ => (setFieldN head 47 40 (leAt src 0 1), false)

/-- FEEDPACK: feed records of 8 bytes. -/
def workFeedpack : Work := fun c w s =>
  let head := fun j => (Config.feedHeader (BitVec.ofNat 128 w) (s.bytes (c.store + iRec w) 64) j).toNat
  let kind := fieldN (head 0) 55 53
  s.finish c w intOut none (fun r => (r.count * packSource kind, r.count * 8)) (fun r _ =>
    runOf s c ((List.range r.count).map (fun j =>
      let a := r.src + packSource kind * j
      let v := packRecord (setFieldN (head j) 55 53 kind) (s.bytes (c.store + a) (packSource kind))
      { off := r.dst + 8 * j, bytes := natLe 8 v.1, poison := s.anyPoison (c.store + a) (packSource kind), sat := v.2 })))

def execFeedpack (c : ClusterId) (s : State) : Result :=
  onDie c.die s (fun s => s.issueWith c 0x8A workFeedpack afterNone)

/-! ### The generator -/

/-- A generator block that fails R307 for an output format. -/
def badGen (b : List Byte) (outFmt : Nat) : Bool :=
  let mode := leAt b 1 1
  let m := leAt b 12 4
  let lo := signedN 32 (leAt b 16 4)
  decide (16 ≤ leAt b 0 1) || decide (2 < mode) || leAt b 2 2 != 0 || (sliceB b 20 44).any (fun x => x != 0)
    || (match mode with
        | 0 => m != 0 || lo != 0 || outFmt != 4
        | 1 => m == 0 || fmtFloat outFmt || outFmt == 5
                || decide (lo < fmtLo outFmt) || decide (fmtHi outFmt < lo + (m - 1 : Nat))
        | _ => m != 0 || lo != 0 || outFmt != 8)

/-- An element of the generator from its word, as bytes (R307). -/
def genElement (b : List Byte) (outFmt : Nat) (x : W32) : List Byte :=
  match leAt b 1 1 with
  | 0 => natLe 4 x.toNat
  | 1 => containerOf outFmt (signedN 32 (leAt b 16 4) + (x.toNat * leAt b 12 4 / 2 ^ 32 : Nat))
  | _ => natLe 4 (fpRound 8 (.fin false (x.toNat / 256) (-24))).1

/-- RNG (R306): COUNT elements from the generator block, with the cluster's step copy and the session's seed. -/
def workRng : Work := fun c w s =>
  let raw := s.bytes (c.store + iRec w) 64
  let r := parseFin raw
  if s.anyPoison (c.store + iRec w) 64 then { st := s, poison := true }
  else if badFin raw r true then badRecord s
  else if r.count = 0 then { st := s }
  else if s.anyPoison (c.store + 64 * r.src) 64 then { st := s, poison := true }
  else
    let b := s.bytes (c.store + 64 * r.src) 64
    if badGen b r.outFmt then badRecord s
    else if outOfStore r.dst (r.count * fmtBytes r.outFmt) then storeBounds s
    else
      let seed := (s.ses (s.rf c.base F.exeSession)).seeds.getD (leAt b 0 1) 0
      runOf s c ((List.range r.count).map (fun j =>
        { off := r.dst + j * fmtBytes r.outFmt, index := j
          bytes := genElement b r.outFmt
            (genWord (BitVec.ofNat 32 (leAt b 8 4 + j)) (s.stepCopy c) (BitVec.ofNat 32 (leAt b 4 4)) seed) }))

def execRng (c : ClusterId) (s : State) : Result :=
  onDie c.die s (fun s => s.issueWith c 0x8B workRng afterNone)

end Sys2Proof.Machine
end

