-- ==== Sys2Proof/Machine/Image.lean ====
section
/-!
DEFINITION. Program images: the header and sections of R225 and R226, the codec block of R227, and the checks that the device makes at
load, in the order of R228. Section bodies that the manual does not lay out are read through constants of Config
(notes/assumptions/5.md).
-/

namespace Sys2Proof.Machine

/-- A section: its place in the table, type, logical cluster, PLACE word and bytes. -/
structure Section where
  index : Nat
  type  : Nat
  lclus : Nat
  place : Nat
  body  : List Byte
  deriving DecidableEq, Repr

/-- The k-th section of an image. -/
def sectionAt (raw : List Byte) (k : Nat) : Section :=
  let e := 192 + 16 * k
  let w := leAt raw e 4
  { index := k, type := fieldN w 7 0, lclus := fieldN w 23 8, place := leAt raw (e + 12) 4,
    body := (raw.drop (leAt raw (e + 4) 4)).take (leAt raw (e + 8) 4) }

/-- The sections of an image. -/
def sectionsOf (raw : List Byte) : List Section := (List.range (leAt raw 8 4)).map (sectionAt raw)

/-- A PLACE word as its section type has it (R226). -/
def goodPlace (x : Section) : Bool :=
  match x.type with
  | 1 => fieldN x.place 30 17 == 0 && decide (2 ≤ fieldN x.place 16 13 ∧ fieldN x.place 16 13 ≤ 14)
  | 4 => decide (1 ≤ x.place ∧ x.place ≤ 224) && decide (x.lclus < 25)
  | _ => x.place == 0

/-- The unit of a section's length, by its type. -/
def sectionUnit (t : Nat) : Nat :=
  match t with
  | 1 | 7 => 16
  | 8 => 128
  | _ => 1

/-- A section whose table entry is in order: its bytes lie behind the table and inside the image
(notes/assumptions/92.md). -/
def goodSection (raw : List Byte) (n : Nat) (x : Section) : Bool :=
  let e := 192 + 16 * x.index
  let off := leAt raw (e + 4) 4
  let len := leAt raw (e + 8) 4
  fieldN (leAt raw e 4) 31 24 == 0 && decide (1 ≤ x.type ∧ x.type ≤ 8) && decide (x.lclus < 4096) && goodPlace x
    && decide (192 + 16 * n ≤ off) && decide (off + len ≤ raw.length) && len % sectionUnit x.type == 0

/-- No two of some numbers are equal. -/
def distinct (ns : List Nat) : Bool := ns.eraseDups.length == ns.length

/-- Check 1 of R228: MAGIC, FMT_VERSION, reserved fields, section bounds; one list of a logical cluster, one window of a die. -/
def goodHeader (raw : List Byte) : Bool :=
  let n := leAt raw 8 4
  let codec := bitN (leAt raw 6 2) 0
  decide (192 ≤ raw.length) && raw.take 4 == [0x42, 0x44, 0x49, 0x01] && leAt raw 4 2 == 3 && leAt raw 6 2 / 4 == 0
    && leAt raw 12 4 == 0 && leAt raw 41 7 == 0 && leAt raw 152 40 == 0
    && (codec || (leAt raw 112 32 == 0 && leAt raw 144 8 == 0))
    && decide (192 + 16 * n ≤ raw.length)
    && (sectionsOf raw).all (goodSection raw n)
    && distinct (((sectionsOf raw).filter (fun x => x.type == 1)).map (·.lclus))
    && distinct (((sectionsOf raw).filter (fun x => x.type == 4)).map (·.lclus))

/-- Check 2: the digests. -/
def goodDigests (raw : List Byte) (weights : List Byte) : Bool :=
  digest32 (raw.drop 192) == sliceB raw 48 32 && digest32 weights == sliceB raw 80 32

/-! ### What an image says -/

/-- The words of an instruction list. -/
def wordsOf (body : List Byte) : List Nat := (chunksOf (body.length / 16 + 1) 16 body).map leNat

/-- STEP instructions with ADV = 1 in a list (R302). -/
def advSteps (ws : List Nat) : Nat := (ws.filter (fun w => iOp w == 0x02 && iAdv w)).length

/-- A section 0x07 entry (R275). -/
def semEntry (b : List Byte) : SemEntry :=
  { sem := leAt b 0 2, die := leAt b 2 1, kind := leAt b 3 1, waiter := BitVec.ofNat 16 (leAt b 4 2), queue := leAt b 6 1,
    init := BitVec.ofNat 32 (leAt b 8 4) }

/-- The codec block of a section body (R227). -/
def codecOf (b : List Byte) : CodecBlock :=
  let w := Config.codecWord b
  { format := w 0, latentC := w 1, sideC := w 2, slope := w 3, refs := w 4, qmask := BitVec.ofNat 64 (w 5)
    sizes := (List.range (min (w 6) 9)).map (fun i => (w (7 + 2 * i), w (8 + 2 * i))) }

/-- The part of a weight section that is loaded into its device-virtual range (R226). -/
def weightPart (body : List Byte) : List Byte := body.drop (body.length - (Config.weightTarget body).2)

/-- The load digests of an image's weight sections (R466; notes/assumptions/29.md). -/
def Image.loadDigests (x : Image) : List (List Byte) := x.weights.map (fun w => digest32 (weightPart w))

/-- The image that a host's bytes hold. -/
def parseImage (raw : List Byte) : Image :=
  let xs := sectionsOf raw
  let of := fun (t : Nat) => xs.filter (fun x => x.type == t)
  { digest := sliceB raw 48 32, weightDigest := sliceB raw 80 32, codecDigest := sliceB raw 112 32
    regionSet := BitVec.ofNat 200 (leAt raw 16 25), isCodec := bitN (leAt raw 6 2) 0
    codec := match of 6 with | x :: _ => codecOf x.body | [] => {}
    lists := (of 1).map (fun x =>
      { lclus := BitVec.ofNat 16 x.lclus, line := fieldN x.place 12 0, sizeLog2 := fieldN x.place 16 13, streamed := bitN x.place 31
        words := x.body, len := x.body.length / 16, advSteps := advSteps (wordsOf x.body) })
    sems := (of 7).flatMap (fun x => (chunksOf (x.body.length / 16 + 1) 16 x.body).map semEntry)
    descs := (of 8).flatMap (fun x => (chunksOf (x.body.length / 128 + 1) 128 x.body).map (fun b => (BitVec.ofNat 16 x.lclus, b)))
    windows := (of 4).map (fun x => (x.lclus, x.place))
    weights := (of 3).map (·.body) }

/-! ### Check 3: regions -/

/-- The regions that an image names, as 8d + r (R6): its set, the logical clusters of the sections that belong to one, and those of its semaphore
entries. In the other sections the table entry names a die or nothing (notes/assumptions/67.md). -/
def namedRegions (img : Image) (xs : List Section) : List Nat :=
  let idx := fun (l : Nat) => 8 * fieldN l 4 0 + fieldN l 7 5
  (List.range 200).filter (fun k => img.regionSet.getLsbD k)
    ++ (xs.filter (fun x => x.type == 1 || x.type == 2 || x.type == 8)).map (fun x => idx x.lclus)
    ++ (img.sems.filter (fun e => e.kind == 1 || e.kind == 2)).map (fun e => idx e.waiter.toNat)

/-- The lowest region that an image names and may not use on this part and partition. -/
def State.failingRegion (s : State) (img : Image) (dies : BitVec 25) (xs : List Section) : Option Nat :=
  let bad := (namedRegions img xs).filter (fun k =>
    !(img.regionSet.getLsbD k && dies.getLsbD (k / 8) && s.regionOk (k / 8) (k % 8)))
  bad.foldl (fun m k => match m with | none => some k | some x => some (min x k)) none

/-! ### Check 4: sizes -/

/-- The ranges of the store that preloads of a logical cluster fill, as offset and length. -/
def preloadsOf (xs : List Section) (lclus : Nat) : List (Nat × Nat) :=
  (xs.filter (fun x => x.type == 2 && x.lclus == lclus)).map (fun x => (Config.preloadOffset x.body, x.body.length))

/-- The refill descriptor of a streamed list (R224): to the list's ring in the store, whose lines it counts. -/
def isRefill (line sizeLog2 : Nat) (b : List Byte) : Bool :=
  let d := parseDesc b
  d.dstKind == 1 && d.dst == 64 * line && d.ring == 2 ^ sizeLog2 / 4

/-- A list ring that R224 refuses. -/
def badRing (img : Image) (xs : List Section) (x : Section) : Bool :=
  let lo := 64 * fieldN x.place 12 0
  let hi := lo + 16 * 2 ^ fieldN x.place 16 13
  decide (storeSize < hi) || (preloadsOf xs x.lclus).any (fun p => decide (p.1 < hi ∧ lo < p.1 + p.2))
    || (!bitN x.place 31 && decide (2 ^ fieldN x.place 16 13 < x.body.length / 16))
    || (bitN x.place 31 && !img.descs.any (fun d =>
          d.1 == BitVec.ofNat 16 x.lclus && isRefill (fieldN x.place 12 0) (fieldN x.place 16 13) d.2))

/-- A section that does not fit its store, its window or the device range of its session. -/
def State.tooLarge (s : State) (n : Nat) (img : Image) (xs : List Section) (x : Section) : Bool :=
  match x.type with
  | 1 => badRing img xs x
  | 2 => decide (storeSize < Config.preloadOffset x.body + x.body.length)
  | 4 => decide (x.place * 0x1_0000 < x.body.length)
  | 3 =>
    let r := Config.weightTarget x.body
    decide (2 ^ 48 < r.1 + r.2) || decide (x.body.length < r.2) || !s.mapped ((s.ses n).homeroom) n r.1 r.2 true
  | _ => false

/-! ### Checks 5 to 9: the instructions -/

/-- An instruction of an image: its logical cluster, the cluster it is seated on, its index and its word. -/
structure Placed where
  lclus : Nat
  c     : ClusterId
  index : Nat
  word  : Nat
  next  : Option Nat
  prev  : Option Nat
  /-- The unit pipe's instruction before it in the list (R211). -/
  unit  : Option Nat
  deriving DecidableEq, Repr

/-- For each word of a list, the last one before it that goes to the unit pipe. -/
def unitBefore (last : Option Nat) : List Nat → List (Option Nat)
  | [] => []
  | w :: rest => last :: unitBefore (if iClass w = 1 ∨ iClass w = 3 then some w else last) rest

/-- Every instruction of an image, list by list. -/
def State.placed (s : State) (xs : List Section) : List Placed :=
  (xs.filter (fun x => x.type == 1)).flatMap (fun x =>
    match s.physOf x.lclus with
    | none => []
    | some c =>
      let ws := wordsOf x.body
      let units := unitBefore none ws
      (List.range ws.length).map (fun i =>
        { lclus := x.lclus, c := c, index := i, word := ws.getD i 0, next := ws[i + 1]?
          prev := if i = 0 then none else ws[i - 1]?, unit := units.getD i none }))

/-- The bytes of a cluster's store that the image preloads: only they can be checked at load. -/
def known (xs : List Section) (p : Placed) (off len : Nat) : Bool :=
  (preloadsOf xs p.lclus).any (fun r => decide (r.1 ≤ off ∧ off + len ≤ r.1 + r.2))

/-- The formats that an instruction's record names, so far as it is known (R137); a reserved code of its block is that of a bad block
(R191; notes/assumptions/71.md). -/
def State.formatsOf (s : State) (xs : List Section) (p : Placed) : List Nat :=
  let raw := s.bytes (p.c.store + iRec p.word) 64
  if !known xs p (iRec p.word) 64 then [] else
    match iClass p.word with
    | 1 => [leAt raw 32 1, leAt raw 33 1, leAt raw 34 1]
    | 3 => let r := parseWin raw; [r.aFmt, r.outFmt, r.bFmt]
    | 4 => [leAt raw 34 1]
    | _ => []

/-- The formats of an instruction's operands and result, so far as they are known: of its record, but for the weights that POOL and RESAMPLE do not
have, and of its block (R151). -/
def State.operandFormats (s : State) (xs : List Section) (p : Placed) : List Nat :=
  let fs := s.formatsOf xs p
  (if iOp p.word = 0x63 ∨ iOp p.word = 0x64 then fs.take 2 else fs) ++
    (if iQpbEn p.word && known xs p (iQpb p.word) 32 then (List.range 3).map (fun k => (s.byte (p.c.store + iQpb p.word + k)).toNat) else [])

/-- What R207 requires of bit 127: some value, or none. -/
def vRule (op : Nat) : Option Bool :=
  if op = 0x22 ∨ op = 0x62 ∨ (0x82 ≤ op ∧ op ≤ 0x85) then some true
  else if op = 0x01 ∨ op = 0x02 ∨ op = 0x41 ∨ (0x86 ≤ op ∧ op ≤ 0x8A) ∨ 0xA0 ≤ op then some false
  else none

/-- Is an opcode that of a lookup instruction (R214)? -/
def isLut (op : Nat) : Bool := op == 0x21 || op == 0x61

/-- The V flag of an instruction breaks R151, R207 or R208. -/
def State.badClass (s : State) (xs : List Section) (p : Placed) : Bool :=
  let v := iV p.word
  (match vRule (iOp p.word) with | some b => v != b | none => false)
    || (iOp p.word == 0x40 && (match p.next with | some w => isLut (iOp w) && iV w != v | none => false))
    || (!v && (s.operandFormats xs p).any fmtFloat && decide (1 ≤ iClass p.word ∧ iClass p.word ≤ 4))

/-- A descriptor against R264 with the windows that the image declares (R358); a ring that passes them fails here, and not in check 4
(notes/assumptions/92.md). -/
def State.badDescAtLoad (s : State) (n die : Nat) (b : List Byte) : Bool :=
  let ses := s.ses n
  badDesc die (fun d => if ses.dies.getLsbD d then (ses.image.windows.find? (fun w => w.1 == d)).map (fun w => w.2 * 0x1_0000) else none)
    (s.reaches n) b

/-- With ACC_INIT = 2 the unit pipe's instruction before it has the same UNITS and, where both records are known, the same N (R211). -/
def State.badUnitBefore (s : State) (xs : List Section) (p : Placed) (n : Option Nat) : Bool :=
  match p.unit with
  | none => true
  | some u => iUnits u != iUnits p.word || (known xs p (iRec u) 64 && n.any (fun n => s.recordN p.c u != n))

/-- The record of an instruction against R210, R211, R256, R223, R264 and R307, so far as it is known. -/
def State.badRecordOf (s : State) (n : Nat) (xs : List Section) (p : Placed) : Bool :=
  let w := p.word
  let raw := s.bytes (p.c.store + iRec w) 64
  let q : Qpb := parseQpb (s.bytes (p.c.store + iQpb w) 32) 0
  let block := iQpbEn w && known xs p (iQpb w) 32
  let paired := fun (a b o k : Nat) => (block && unlikeBlock w q a b o k) || (!iNarrow w && o != 5)
  let multiplies := iClass w == 1 || (decide (0x60 ≤ iOp w) && decide (iOp w ≤ 0x62))
  let units := (iClass w == 1 || iClass w == 3 || iOp w == 0x40) && iUnits w == 0
  units || (multiplies && iAccInit w == 1 && !iQpbEn w) || (iClass w == 1 && iAccInit w == 2 && s.badUnitBefore xs p none)
    || (known xs p (iRec w) (if iClass w = 7 then 128 else 64) &&
    (match iClass w with
     | 1 =>
       let r := parseMat raw
       let k : MatKind := if iOp w = 0x20 then .int else if iOp w = 0x21 then .lut else .float
       badMat raw r || !matFormats k r.aFmt r.bFmt || paired r.aFmt r.bFmt r.outFmt r.n || (iAccInit w == 2 && (r.m != 1 || s.badUnitBefore xs p (some r.n)))
     | 3 =>
       let r := parseWin raw
       let o : WinOp := match iOp w with | 0x60 => .int | 0x61 => .lut | 0x62 => .float | 0x63 => .pool | _ => .resample
       badWin raw r o.kind w || !winFormats o r || (r.maskEn && known xs p r.mask 64 && s.badMask p.c r)
         || (o.kind == .conv && paired r.aFmt r.bFmt r.outFmt r.n) || (o.kind == .pool && block && winUnpaired w o q r)
     | 4 =>
       let r := parseFin raw
       badFin raw r (iOp w == 0x8B) || (iOp w == 0x8B && known xs p (64 * r.src) 64 && badGen (s.bytes (p.c.store + 64 * r.src) 64) r.outFmt)
     | 6 => badFeed raw (parseFeed raw) (iOp w == 0xC1)
     | 7 => iRec w % 128 != 0 || s.badDescAtLoad n p.c.die (s.bytes (p.c.store + iRec w) 128)
     | _ => false))

/-- A list that does not end with its one END (R203): the index that breaks the rule. -/
def badEnd (ws : List Nat) : Option Nat :=
  match ws.findIdx? (fun w => iOp w == 0x01) with
  | none => some ws.length
  | some i => if i + 1 = ws.length then none else some i

/-- A pairing that R214 refuses. -/
def badPair (p : Placed) : Bool :=
  let same := fun (a b : Nat) => iRec a == iRec b && iQpb a == iQpb b && iUnits a == iUnits b
  if isLut (iOp p.word) then
    iWaitEn p.word || (match p.prev with | some t => iOp t != 0x40 || !same t p.word | none => true)
  else if iOp p.word = 0x40 then
    iPostEn p.word || (match p.next with | some w => !isLut (iOp w) | none => true)
  else false

/-- A block that R191 refuses, so far as it is known. -/
def State.badBlock (s : State) (xs : List Section) (p : Placed) : Bool :=
  let base := p.c.store + iQpb p.word
  let h := s.bytes base 32
  let q := parseQpb h base
  decide (1 ≤ iClass p.word ∧ iClass p.word ≤ 4) && iQpbEn p.word && known xs p (iQpb p.word) 32
    && (badQpbHead h q || (known xs p (iQpb p.word) (32 + 8 * q.nCh) && s.badQpb q))

/-! ### Checks 7, 10 and 11: the codec block, semaphores, side tables -/

/-- The codec block against R227. -/
def badCodec (c : CodecBlock) : Bool :=
  let audio := c.format == 8 || c.format == 9
  !(decide (c.format ≤ 4) || audio) || c.latentC == 0 || c.latentC % 4 != 0 || c.sideC == 0 || c.slope == 0 || decide (8 < c.slope)
    || !(c.refs == 1 || c.refs == 2) || c.qmask == 0 || c.sizes.isEmpty || decide (8 < c.sizes.length)
    || c.sizes.any (fun x =>
        if audio then decide (x.1 < 80) || decide (1920 < x.1) || decide (x.2 < 1) || decide (8 < x.2)
        else decide (x.1 < 16) || decide (8192 < x.1) || decide (x.2 < 16) || decide (8192 < x.2)
          || (decide (c.format ≤ 1) && (x.1 % 2 != 0 || x.2 % 2 != 0)))

/-- DETAIL of a section. -/
def sectionDetail (x : Section) : Nat := detailOf x.index x.lclus 0

/-- An image that lacks the codec block it needs, has one too many, or one that R227 refuses: DETAIL names the section. -/
def codecFailure (img : Image) (xs : List Section) : Option Nat :=
  match xs.filter (fun x => x.type == 6), img.isCodec with
  | [], needed => if needed then some 0 else none
  | [x], true => if badCodec img.codec then some (sectionDetail x) else none
  | x :: _, false => some (sectionDetail x)
  | _ :: x :: _, true => some (sectionDetail x)

/-- The descriptors of an image's sections, each with its section. -/
def descsIn (xs : List Section) : List (Section × List Byte) :=
  (xs.filter (fun x => x.type == 8)).flatMap (fun x => (chunksOf (x.body.length / 128 + 1) 128 x.body).map (fun b => (x, b)))

/-- The semaphore entries of an image's sections, each with its section. -/
def semsIn (xs : List Section) : List (Section × SemEntry) :=
  (xs.filter (fun x => x.type == 7)).flatMap (fun x => (chunksOf (x.body.length / 16 + 1) 16 x.body).map (fun b => (x, semEntry b)))

/-- A wait of an image: the semaphore (8192 × die + number), who waits, and where it stands. -/
structure ImageWait where
  sem   : Nat
  who   : Nat
  index : Nat
  lclus : Nat
  deriving DecidableEq, Repr

/-- The credit semaphore of a descriptor as a wait of its cluster. -/
def descWaits (lclus index : Nat) (b : List Byte) : List ImageWait :=
  let d := parseDesc b
  if d.creditEn then [{ sem := 8192 * fieldN lclus 4 0 + d.freeSem % 8192, who := lclus, index := index, lclus := lclus }] else []

/-- LIST_READY of a streamed list, as its refill descriptor names it (R224). -/
def listWaits (img : Image) (x : Section) : List ImageWait :=
  if x.type = 1 ∧ bitN x.place 31 then
    match img.descs.find? (fun d => d.1 == BitVec.ofNat 16 x.lclus && isRefill (fieldN x.place 12 0) (fieldN x.place 16 13) d.2) with
    | some d => [{ sem := 8192 * fieldN x.lclus 4 0 + (parseDesc d.2).readySem % 8192, who := x.lclus, index := 0, lclus := x.lclus }]
    | none => []
  else []

/-- Every wait of an image: of its instructions, its streamed lists, its descriptors and its section 0x07 entries. -/
def State.imageWaits (s : State) (img : Image) (xs : List Section) (ps : List Placed) : List ImageWait :=
  ps.flatMap (fun p =>
      let d := 8192 * p.c.die.val
      (if iWaitEn p.word then [{ sem := d + iWaitSem p.word, who := p.lclus, index := p.index, lclus := p.lclus }] else [])
        ++ (if iOp p.word = 0xE0 ∧ known xs p (iRec p.word) 128 then descWaits p.lclus p.index (s.bytes (p.c.store + iRec p.word) 128) else [])
        ++ (if iClass p.word = 6 ∧ known xs p (iRec p.word) 64 ∧ iCount p.word ≠ 0 then
              [{ sem := d + leAt (s.bytes (p.c.store + iRec p.word) 64) 8 2, who := p.lclus, index := p.index, lclus := p.lclus }] else []))
    ++ xs.flatMap (listWaits img)
    ++ (descsIn xs).flatMap (fun x => descWaits x.1.lclus x.1.index x.2)
    ++ (semsIn xs).map (fun x =>
        { sem := 8192 * x.2.die + x.2.sem, who := if x.2.kind = 3 then 65536 + 64 * x.2.die + x.2.waiter.toNat else x.2.waiter.toNat
          index := x.1.index, lclus := x.1.lclus })

/-- The first wait that meets a semaphore of another waiter (R220). -/
def clashAt : List ImageWait → List ImageWait → Option ImageWait
  | _, [] => none
  | seen, w :: rest => if seen.any (fun x => x.sem == w.sem && x.who != w.who) then some w else clashAt (w :: seen) rest

/-- The dies of a region set. -/
def regionDies (img : Image) : List Nat := allDies.filter (fun d => (List.range 8).any (fun r => img.regionSet.getLsbD (8 * d + r)))

/-- A descriptor that posts to a die outside the region set. -/
def badDescPost (img : Image) (lclus : Nat) (b : List Byte) : Bool :=
  let d := parseDesc b
  d.readyEn && !(regionDies img).contains (if d.readyDie = 31 then fieldN lclus 4 0 else d.readyDie)

/-- A post to a die outside the region set (R220): by the header, by the record of an EFEED or ERES, by the descriptor of a FETCH_ARM, so far as they
are known. -/
def State.badPost (s : State) (img : Image) (xs : List Section) (p : Placed) : Bool :=
  let outside := fun (d : Nat) => !(regionDies img).contains d
  let raw := s.bytes (p.c.store + iRec p.word) 128
  (iPostEn p.word && outside (postTarget p.c p.word).1)
    || (iClass p.word == 6 && known xs p (iRec p.word) 64 && iCount p.word != 0 && outside (parseFeed raw).die)
    || (iOp p.word == 0xE0 && known xs p (iRec p.word) 128 && badDescPost img p.lclus raw)

/-- A section 0x07 entry with a reserved value (R275). -/
def badSemEntry (e : SemEntry) : Bool := !(e.kind == 1 || e.kind == 2 || e.kind == 3) || decide (25 ≤ e.die) || decide (8192 ≤ e.sem)

/-- The semaphore check: the DETAIL of its first failure. -/
def State.semFailure (s : State) (img : Image) (xs : List Section) (ps : List Placed) : Option Nat :=
  [ (ps.find? (s.badPost img xs)).map (fun p => detailOf p.index p.lclus 0),
    ((descsIn xs).find? (fun x => badDescPost img x.1.lclus x.2)).map (fun x => sectionDetail x.1),
    ((semsIn xs).find? (fun x => badSemEntry x.2)).map (fun x => sectionDetail x.1),
    (clashAt [] (s.imageWaits img xs ps)).map (fun w => detailOf w.index w.lclus 0) ].findSome? id


/-- Table t of a section 0x05 body: present, and its entry k (R91). -/
def sideEntry (b : List Byte) (t k : Nat) : Nat := Config.sideTable b (64 * t + k)
def sidePresent (b : List Byte) (t : Nat) : Bool := sideEntry b t 0 != 0

/-- A side table that R91 refuses. -/
def badSide91 (b : List Byte) (t : Nat) : Bool :=
  sidePresent b t && (sideEntry b t 1 == 0 || decide (65535 < sideEntry b t 62)
    || (List.range 61).any (fun i => decide (sideEntry b t (i + 2) ≤ sideEntry b t (i + 1))))

/-! ### The load -/

/-- The feed or result ring of an EFEED or ERES whose record is known does not fit the window of its die (R223, R358). -/
def State.ringTooLarge (s : State) (img : Image) (xs : List Section) (p : Placed) : Bool :=
  let raw := s.bytes (p.c.store + iRec p.word) 64
  let r := parseFeed raw
  let eres := iOp p.word == 0xC1
  iClass p.word == 6 && known xs p (iRec p.word) 64 && iCount p.word != 0 && !badFeed raw r eres
    && (match img.windows.find? (fun w => w.1 == r.die) with
      | some w => decide (w.2 * 0x1_0000 < r.base + r.entries eres * (if eres then 1 else 8))
      | none => true)

/-- A part of a check: the failures in the order they are met, as DETAIL. -/
def firstBad (ps : List Placed) (bad : Placed → Bool) : Option Nat := (ps.find? bad).map (fun p => detailOf p.index p.lclus 0)

/-- Preloads written: into the stores of the clusters that the lists name. -/
def State.putPreloads (s : State) (xs : List Section) : State :=
  (xs.filter (fun x => x.type == 2)).foldl (fun s x =>
    match s.physOf x.lclus with
    | some c => s.store (c.store + Config.preloadOffset x.body) x.body false
    | none => s) s

/-- The checks of R228 in their order: the status and DETAIL of the first that fails. The session n under which the image is loaded has
its dies, its homeroom and its page tables already. -/
def State.loadFailure (s : State) (n : Nat) (raw : List Byte) : Option (Nat × Nat) :=
  let dies := (s.ses n).dies
  if !goodHeader raw then some (St.imageBadHeader, 0)
  else
    let xs := sectionsOf raw
    let img := parseImage raw
    let t := s.setSes n { s.ses n with image := img }
    if !goodDigests raw img.weights.flatten then some (St.imageBadDigest, 0)
    else
      match s.failingRegion img dies xs with
      | some k => some (St.imageBadRegion, detailOf 0 0 k)
      | none =>
        match xs.find? (t.tooLarge n img xs) with
        | some x => some (St.imageTooLarge, detailOf x.index x.lclus 0)
        | none =>
          let t := t.putPreloads xs
          let ps := t.placed xs
          let lists := xs.filter (fun x => x.type == 1)
          let at_ := fun (status : Nat) (d : Option Nat) => d.map (fun d => (status, d))
          [ at_ St.imageTooLarge (firstBad ps (t.ringTooLarge img xs)),
            at_ St.imageBadOpcode (firstBad ps (fun p => badInstruction p.word)),
            at_ St.imageBadFormat (firstBad ps (fun p => (t.formatsOf xs p).any fmtReserved)),
            at_ St.imageBadClass (firstBad ps (t.badClass xs)),
            at_ St.imageBadRecord (firstBad ps (t.badRecordOf n xs)),
            at_ St.imageBadRecord (lists.findSome? (fun x => (badEnd (wordsOf x.body)).map (fun i => detailOf i x.lclus 0))),
            at_ St.imageBadRecord (((descsIn xs).find? (fun x => t.badDescAtLoad n (fieldN x.1.lclus 4 0) x.2)).map (fun x => sectionDetail x.1)),
            at_ St.imageBadRecord (codecFailure img xs),
            at_ St.imageBadPair (firstBad ps badPair),
            at_ St.imageBadQpb (firstBad ps (t.badBlock xs)),
            at_ St.imageBadSem (t.semFailure img xs ps),
            at_ St.imageBadCdfTable ((xs.filter (fun x => x.type == 5)).findSome? (fun x =>
              if (List.range 128).any (badSide91 x.body) then some (detailOf x.index x.lclus 0) else none)) ].findSome? id

end Sys2Proof.Machine
end

