-- ==== Sys2Proof/Machine/Open.lean ====
section
/-!
DEFINITION. The opening of a session: the parameter block (R336, R337, R566), the limits of R326, R327, R342, R348 and R359, the load of
the image (R228), and what the session holds from then on (R224, R275, R292, R298, R358).
-/

namespace Sys2Proof.Machine

/-! ### The parameter block -/

/-- Why an OPEN_SESSION fails: status and DETAIL. -/
abbrev Refused := Option (Nat × Nat)

/-- The first refusal of some checks. -/
def firstOf (xs : List Refused) : Refused := xs.findSome? id

/-- A check that names the byte offset of its field. -/
def needs (ok : Bool) (status offset : Nat) : Refused := if ok then none else some (status, offset)

/-- The parameters of a STREAM field with the image's values where it holds 0 (R337). -/
def mergeParams (p : StreamParams) (img : Image) : StreamParams :=
  let c := img.codec
  { p with
    refs := if p.refs = 0 then c.refs else p.refs
    slope := if p.slope = 0 then c.slope else p.slope
    latentC := if p.latentC = 0 then c.latentC else p.latentC
    sideC := if p.sideC = 0 then c.sideC else p.sideC
    codecDigest := if p.codecDigest.all (· == 0) then sliceB img.codecDigest 0 32 else p.codecDigest }

/-- The checks of an encoder's merged STREAM field in ascending byte offset, then the format and size against the image (R45, R55 to
R59, R126, R127, R566). -/
def checkParams (p : StreamParams) (img : Image) : Refused :=
  let c := img.codec
  let bad := fun (ok : Bool) (off : Nat) => needs ok St.badCodecParam (32 + off)
  let video := p.media == 0
  let even := fun (n : Nat) => decide (2 ≤ p.format) || n % 2 == 0
  let side := fun (n : Nat) => decide (16 ≤ n ∧ n ≤ 8192) && even n
  firstOf [
    bad (decide (p.media ≤ 1)) 0,
    bad (goodFormat p.media p.format) 1,
    bad (if video then side p.width else goodSamples p) 2,
    bad (if video then side p.height else decide (1 ≤ p.height ∧ p.height ≤ 8)) 4,
    bad (if video then decide (1 ≤ p.sliceRows ∧ p.sliceRows ≤ 8) else p.sliceRows == 1) 6,
    bad (decide (1 ≤ p.window ∧ p.window ≤ 8)) 7,
    bad ((p.group == 8 || p.group == 16 || p.group == 32) && p.latentC % p.group == 0) 8,
    bad (p.refs == c.refs) 9,
    bad (p.slope == c.slope) 10,
    bad (decide (p.q < 64) && c.qmask.getLsbD p.q) 11,
    bad (p.latentC == c.latentC) 12,
    bad (p.sideC == c.sideC) 14,
    bad (decide (p.sMin ≤ p.sInit ∧ p.sInit ≤ 8388607)) 16,
    bad (decide (1 ≤ p.sMin ∧ p.sMin ≤ 8388607)) 20,
    bad (video || decide (8000 ≤ p.rate ∧ p.rate ≤ 96000)) 24,
    bad (video || p.frameMs == 10 || p.frameMs == 20) 28,
    bad (decide (1 ≤ p.capPic)) 32,
    bad (decide (1 ≤ p.capPer)) 36,
    bad (decide (1 ≤ p.periodPics)) 40,
    bad (!p.periodic || decide (1 ≤ p.refresh)) 42,
    bad (p.codecDigest == sliceB img.codecDigest 0 32) 48,
    needs (p.format == c.format) St.imageSizeMismatch 33,
    needs (sizeListed c p) St.imageSizeMismatch 34 ]

/-- The kind of a KIND byte (R336). -/
def kindOf (k : Nat) : Kind :=
  match k with
  | 1 => .encode
  | 2 => .decode
  | 3 => .model
  | _ => .none

/-- A session from its parameter block, before its image is known. -/
def blockSession (b : List Byte) (homeroom root : Nat) : Session :=
  let f := leAt b 1 1
  { kind := kindOf (leAt b 0 1), state := .open_, queue := leAt b 2 2, homeroom := homeroom, dies := BitVec.ofNat 25 (leAt b 4 4)
    live := bitN f 0, ordered := bitN f 1, nanTrap := bitN f 2, bellHost := bitN f 3, fullRedundancy := bitN f 4
    deadline := leAt b 8 1, period := leAt b 12 4, jobCycles := leAt b 16 8
    seeds := (List.range 16).map (fun k => BitVec.ofNat 64 (leAt b (128 + 8 * k) 8)), root := root }

/-! ### Limits -/

/-- The active clusters of a partition (R348): its slots that stand for a logical cluster. -/
def State.activeClusters (s : State) (dies : BitVec 25) : Nat :=
  ((diesOf dies).map (fun d => ((List.range 8).map (fun r =>
    ((List.range 17).filter (fun sl => (s.logical d r sl).isSome)).length)).sum)).sum

/-- A sum of fractions, as numerator and denominator. -/
def sumFractions (xs : List (Nat × Nat)) : Nat × Nat :=
  xs.foldl (fun a x => (a.1 * x.2 + x.1 * a.2, a.2 * x.2)) (0, 1)

/-- The live demand of a partition with one more stream is within 0.9 × 1,600 × A (R348). -/
def State.admits (s : State) (x : Session) : Bool :=
  let live := (s.sessions.map (·.2)).filter (fun y => y.kind != .none && y.live && y.dies == x.dies)
  let d := sumFractions ((live ++ [x]).map (fun y => (y.jobCycles, max 1 y.period)))
  decide (d.1 ≤ 1440 * s.activeClusters x.dies * d.2)

/-- The lowest free session number. -/
def State.freeSession (s : State) : Option Nat := (List.range 4096).find? (fun n => (s.ses n).kind == .none)

/-- The lowest free slot of the live streams (R499). -/
def State.freeSlot (s : State) : Option Nat :=
  (List.range 64).find? (fun k => s.sessions.all (fun e => e.2.slot != some k))

/-- A root that R379 accepts. -/
def State.goodRoot (s : State) (dies : BitVec 25) (root : Nat) : Bool :=
  root % 4096 == 0 && (match s.target root with | .gddr d => dies.getLsbD d | .host _ => true | _ => false)

/-! ### Windows (R358, R359) -/

/-- The first base granule of a free range of k granules on a die. -/
def freeGranules (ws : List (Nat × Nat × Nat)) (k : Nat) : Option Nat :=
  (List.range 224).find? (fun b => decide (b + k ≤ 224) && ws.all (fun w => decide (b + k ≤ w.2.1) || decide (w.2.1 + w.2.2 ≤ b)))

/-- A window of k granules for a session on a die: its lines read 0 (R361). None: it is refused. -/
def State.openWindow (s : State) (n d k : Nat) : Option State :=
  let x := s.die d
  let ws := x.windows.filterMap (·.2)
  let i := (List.range 256).find? (fun i => (Sparse.get (fun _ => none) x.windows i).isNone)
  match i, freeGranules ws k with
  | some i, some b =>
    let s := s.setDie d { x with windows := Sparse.put (fun _ => none) x.windows i (some (n, b, k)) }
    let s := s.sf (key d 0) F.memDbFree (s.rf (key d 0) F.memDbFree - k)
    some (s.zeroRange (dbufAddr d (b * 0x1_0000)) (k * 0x1_0000))
  | _, _ => none

/-- The windows of an image, in ascending die. -/
def State.openWindows (s : State) (n : Nat) (img : Image) : Option State :=
  allDies.foldl (fun (a : Option State) d =>
    match img.windows.find? (fun w => w.1 == d) with
    | some w => a.bind (fun s => s.openWindow n d w.2)
    | none => a) (some s)

/-! ### What an image brings -/

/-- The preloads of the windows written (R226). -/
def State.putWindowPreloads (s : State) (n : Nat) (xs : List Section) : State :=
  (xs.filter (fun x => x.type == 4)).foldl (fun s x => s.store (s.windowAddr n x.lclus 0) x.body false) s

/-- The weight sections written to their device-virtual ranges (R226), and whether every write was taken (R375, R568). -/
def State.putWeights (s : State) (n : Nat) (xs : List Section) : State × Bool :=
  (xs.filter (fun x => x.type == 3)).foldl (fun a x =>
    let r := Config.weightTarget x.body
    let w := a.1.virtWrite (a.1.ses n).homeroom n r.1 (weightPart x.body)
    (w.1, a.2 && w.2)) (s, true)

/-- The side tables of a die written into its entropy units (R91), whatever channels of theirs are enabled (notes/assumptions/69.md). -/
def State.putSideTables (s : State) (xs : List Section) : State :=
  (xs.filter (fun x => x.type == 5)).foldl (fun s x =>
    (List.range 8).foldl (fun s u => ((List.range 128).filter (sidePresent x.body)).foldl (fun s t =>
      (List.range 62).foldl (fun s i =>
        let o := 0x4000 + t * 0x80 + 2 * (i + 1)
        let w := key (x.lclus % 32) (entOff u) + o / 4 * 4
        s.wr w (setF (s.rd w) (o % 4 * 8 + 15) (o % 4 * 8) (sideEntry x.body t (i + 1)))) s) s) s) s

/-- SEM_CFG of a semaphore that the image names (R291, R292). -/
def State.semConfig (s : State) (n : Nat) (e : SemEntry) : Nat :=
  let w := e.waiter.toNat
  let place := if e.kind = 3 then fieldN w 2 0 * 2 ^ 16 + fieldN w 4 3 * 2 ^ 19
    else fieldN w 7 5 * 2 ^ 16 + s.seat (fieldN w 4 0) (fieldN w 7 5) (fieldN w 11 8) * 2 ^ 19
  n + 2 ^ 12 + e.kind * 2 ^ 13 + place + (if e.kind = 2 then e.queue % 64 * 2 ^ 24 else 0)

/-- The semaphores of an image belong to the session, at INIT (R275, R292). -/
def State.takeSems (s : State) (n : Nat) (img : Image) : State :=
  img.sems.foldl (fun s e => (s.setSem e.die e.sem e.init.toNat).wr (semCfgKey e.die e.sem) (BitVec.ofNat 32 (s.semConfig n e))) s

/-- ORDERED written to every cluster of the session, and a copy of the step counter that an earlier session of this number left
cleared (R215, R298). -/
def State.claimClusters (s : State) (n : Nat) : State :=
  (s.clustersOfSession n).foldl (fun s c =>
    let s := if s.rf c.base F.exeSession = n then s.setStepCopy c 0 else s
    if s.engineBusy c then s else s.flag c.base F.exeCtrlOrdered (s.ses n).ordered) s

/-! ### Save records at the begin of a session (R312 to R314) -/

/-- The check of a save record's bytes (R312, R313): status of the failure, or the snapshot that it holds. -/
def State.readSave (s : State) (n : Nat) (b : List Byte) : Nat × Option Snapshot :=
  let ses := s.ses n
  let len := leAt b 8 8
  if b.take 4 ≠ [0x5A, 0x53, 0x56, 0x01] ∨ leAt b 4 2 ≠ 1 ∨ len ≠ ses.saveBytes ∨ b.length ≠ len then (St.resumeFormat, none)
  else if digest32 (b.take (len - 32)) ≠ b.drop (len - 32) then (St.resumeFormat, none)
  else if sliceB b 32 32 ≠ sliceB ses.image.digest 0 32 then (St.resumeImageMismatch, none)
  else (St.ok, some (s.savedIn b))

/-- The save record that an OPEN_SESSION names, read and checked; 0 names none. -/
def State.saveSource (s : State) (n va : Nat) : Nat × Option Snapshot × State :=
  if va = 0 then (St.ok, none, s)
  else
    let r := s.virtRead (s.ses n).homeroom n va (s.ses n).saveBytes
    let k := r.2.2.readSave n r.1
    (k.1, k.2, r.2.2)

/-- ORDER_CHANGED of R314: another slot, another set of dies, another firmware version. -/
def State.orderChangedBy (s : State) (n : Nat) (x : Snapshot) : Bool :=
  (x.slots.any (fun p => match s.physOf p.1.toNat with | some c => c.slot.val != p.2 | none => true))
    || x.session.dies != (s.ses n).dies || x.version != s.fwVersion

/-- The link channels of a session start again at ring position 0 (R414). -/
def State.restartChannels (s : State) (n : Nat) : State :=
  let again := fun (l : Nat) (r : Bool) (c : Nat × LinkChannel) =>
    if s.crf l r c.1 F.lnkChCtrlEnable = 1 ∧ s.crf l r c.1 F.lnkChCtrlSession = n then
      (c.1, ({ base := c.2.base, lines := c.2.lines } : LinkChannel))
    else c
  { s with links := s.links.map (fun e => (e.1, { e.2 with tx := e.2.tx.map (again e.1 false), rx := e.2.rx.map (again e.1 true) })) }

/-- A record's state put back and set going: engines that stood at the pause point run (R230), queues go on from their cursors (R288). Of a
job dropped while the session was PAUSED nothing goes on: its lists are halted and the step counters stand as the drops left them (R302, R354). -/
def State.resumeFrom (s : State) (n : Nat) (x : Snapshot) : State :=
  let changed := s.orderChangedBy n x
  let copies := s.copyOf n
  let dropped := (s.ses n).lostJob
  let s := s.restore n x
  let s := if dropped then (s.giveUpWork n).setCopies n (fun l => BitVec.ofNat 64 (copies l.lclus)) else s
  let s := s.setSes n { s.ses n with orderChanged := changed, state := .open_ }
  let s := s.restartChannels n
  (s.clustersOfSession n).foldl (fun s c => if s.exe c = Ex.paused ∧ s.rf c.base F.exeSession = n then s.setExe c Ex.running else s) s

/-! ### OPEN_SESSION -/

/-- An activation is in progress (R437): FWC_ACT_STATUS shows LOADING, WAIT_EMERGENCY or COMMITTING. -/
def State.activating (s : State) : Bool := decide (1 ≤ s.rf die12 F.fwcActStatusCode ∧ s.rf die12 F.fwcActStatusCode ≤ 3)

/-- The checks of the parameter block in ascending offset, and the partition (R327, R328, R342, R566). -/
def State.checkBlock (s : State) (b : List Byte) : Refused :=
  let x := blockSession b (s.qDie (leAt b 2 2)) 0
  let q := leAt b 2 2
  let testOk := x.kind == .model && !x.live
  let part := s.parts.any (fun p => p.dies == x.dies && (p.state == .service || (p.state == .test && testOk)))
  firstOf [
    needs (x.kind != .none) St.badCommand 0,
    needs (!(x.live && x.kind == .model)) St.badCodecParam 1,
    needs (decide (q < 1024) && (s.qState q == Qs.active || s.qState q == Qs.stalled)) St.badQueue 2,
    needs (part && x.dies.getLsbD x.homeroom) St.badPartition 4,
    needs (!x.live || decide (1 ≤ x.deadline ∧ x.deadline ≤ 8)) St.badCodecParam 8,
    needs (!x.live || decide (1000 ≤ x.period ∧ x.period ≤ 1_000_000)) St.badCodecParam 12 ]

/-- The checks that need the image: its kind, the STREAM field, the limits of R342 and R348. -/
def State.checkSession (s : State) (x : Session) (stream : StreamParams) (img : Image) : Refused :=
  let fields := if x.kind = .encode then checkParams (mergeParams stream img) img else none
  let liveCount := (s.sessions.filter (fun e => e.2.kind != .none && e.2.live)).length
  firstOf [
    needs ((x.kind != .model) == img.isCodec) St.badCommand 0,
    fields,
    needs (!x.live || decide (liveCount < 64)) St.liveLimit 0,
    needs (!x.live || s.admits x) St.admissionLimit 0 ]

/-- The session that opens, with its image. -/
def State.openedSession (s : State) (n : Nat) (x : Session) (stream : StreamParams) (img : Image) : Session :=
  let p := mergeParams stream img
  let enc : Encoder := if x.kind = .encode then { params := { p with audit := (s.setSes n x).digestForm n }, nextPic := BitVec.ofNat 32 p.picBase } else {}
  { x with image := img, enc := enc, saveBytes := saveBytesOf img, slot := if x.live then s.freeSlot else none }

/-- The bytes of an image that its digests absorb: those after the header, and the weight sections once more for IMAGE_WEIGHT_DIGEST and once for
their load digests (R228, R466). -/
def digestedBytes (raw : List Byte) : Nat := raw.length - 192 + 2 * ((parseImage raw).weights.map (·.length)).sum

/-- OPEN_SESSION: each check in turn; a weight section that cannot be written fails it with FET_DST_FAULT (R375); then the session under the lowest free number. Answers the status, DETAIL and number. -/
def State.openWith (s : State) (d : Nat) (a : List W64) : State × Nat × Nat × Nat :=
  let arg := fun (k : Nat) => (a.getD k 0).toNat
  let b := s.bytes (hostAddr (arg 0)) 256
  let no := fun (r : Nat × Nat) => (s, r.1, r.2, 0)
  if s.activating then no (St.badCommand, 0)
  else if s.pkg.drained then no (St.deviceDrained, 0)
  else
    let s := s.askHost d (arg 0) 256
    let no := fun (r : Nat × Nat) => (s, r.1, r.2, 0)
    match s.checkBlock b with
    | some r => no r
    | none =>
      let x := blockSession b (s.qDie (leAt b 2 2)) (arg 3)
      let same := (s.sessions.filter (fun e => e.2.kind != .none && e.2.homeroom == x.homeroom)).length
      match s.freeSession with
      | none => no (St.sessionLimit, 0)
      | some n =>
        if 512 ≤ same then no (St.sessionLimit, 0)
        else if !s.goodRoot x.dies x.root then no (St.badCommand, 32)
        else
          let t := s.setSes n x
          let r := t.virtRead x.homeroom n (arg 1) (arg 2)
          let raw := r.1
          let s := (if goodHeader raw then r.2.2.absorbShared x.dies (digestedBytes raw) else r.2.2).setSes n {}
          let t := s.setSes n x
          let no := fun (r : Nat × Nat) => (s.dropTranslations n, r.1, r.2, 0)
          match t.loadFailure n raw with
          | some r => no r
          | none =>
            let img := parseImage raw
            let stream := parseStream (sliceB b 32 96)
            match s.checkSession x stream img with
            | some r => no r
            | none =>
              let y := s.openedSession n x stream img
              let v := (s.setSes n y).saveSource n (arg 4)
              if v.1 ≠ St.ok then ((v.2.2.setSes n {}).dropTranslations n, v.1, 0, 0)
              else
              match v.2.2.openWindows n img with
              | none => no (St.sessionLimit, 0)
              | some t =>
                let xs := sectionsOf raw
                let w := (t.putWindowPreloads n xs).putWeights n xs
                if !w.2 then (((w.1.freeWindows n).setSes n {}).dropTranslations n, St.fetDstFault, 0, 0)
                else
                let t := w.1.putPreloads xs
                let t := ((t.putSideTables xs).takeSems n img).claimClusters n
                match v.2.1 with
                | some snap => (t.resumeFrom n snap, St.ok, y.saveBytes, n)
                | none => (t, St.ok, y.saveBytes, n)

end Sys2Proof.Machine
end

