-- ==== Sys2Proof/Machine/Commands.lean ====
section
/-!
DEFINITION. The host's commands (R329 to R340, R343, R354), each executed from the front of its queue in ring order.
-/

namespace Sys2Proof.Machine

/-! ### Taking a command -/

/-- The opcodes of R335. -/
def knownOpcode (o : BitVec 8) : Bool := [0x01, 0x02, 0x03, 0x04, 0x05, 0x10, 0x11, 0x12, 0x13, 0x14, 0x15, 0x16].contains o.toNat

/-- An argument of a command. -/
def HostCmd.arg (c : HostCmd) (k : Nat) : Nat := (c.args.getD k 0).toNat

/-- The command at the front of a queue, when it has opcode op and may start: FENCE waits until every earlier command of the queue has
completed (R333). An opcode of no command is refused when its turn comes. -/
def State.takeCmd (s : State) (q op : Nat) (work : State → HostCmd → State) : State :=
  if s.qState q ≠ Qs.active then s
  else
    let x := s.que q
    match x.fetched with
    | [] => s
    | c :: rest =>
      if c.flags.getLsbD 0 && x.openCmds != 0 then s
      else if !knownOpcode c.opcode then (s.setQue q { x with fetched := rest }).complete q (answerTo c Ck.error St.badCommand)
      else if c.opcode.toNat ≠ op then s
      else work (s.setQue q { x with fetched := rest }) c

/-- The answer to a command on its queue. -/
def State.reply (s : State) (q : Nat) (c : HostCmd) (status : Nat) : State :=
  s.complete q (answerTo c (if status = St.ok then Ck.done else Ck.error) status)

/-- A command that only queue 0 takes (R335). -/
def State.adminCmd (s : State) (q op : Nat) (work : State → HostCmd → State) : State :=
  s.takeCmd q op (fun s c => if q = 0 then work s c else s.reply q c St.badQueue)

/-- A command of a session, on a queue whose homeroom is the session's (R335, R354). -/
def State.sessionCmd (s : State) (q op : Nat) (work : State → HostCmd → Nat → State) : State :=
  s.takeCmd q op (fun s c =>
    let n := c.session.toNat
    if (s.ses n).kind = .none then s.reply q c St.noSession
    else if !s.sharesHomeroom q n then s.reply q c St.badQueue
    else work s c n)

/-- A meaning of a command: its queue's owner must be clocked. -/
def onQueue (q : QueueNo) (s : State) (f : State → State) : Result := onDie (s.qDie q) s f

/-! ### Queues -/

/-- Is a queue in use? -/
def State.queueUsed (s : State) (q : Nat) : Bool := s.qState q == Qs.active || s.qState q == Qs.stalled

/-- The registers of a queue in a window returned to 0 (R341). -/
def State.clearQueueRegs (s : State) (b : Nat) : State := [0x0, 0x4, 0x8, 0xC, 0x10].foldl (fun s o => s.wr (b + o) 0) s

/-- CREATE_QUEUE: the rings of R332, the homeroom and the priority. A queue that shows DELETED_BY_RESET may be created again; one
whose homeroom's scheduler core restarts is STALLED at first (R352). -/
def State.createQueueCmd (s : State) (c : HostCmd) : State :=
  let a := c.arg 2
  let q := fieldN a 9 0
  let sqLog2 := fieldN a 20 16
  let cqLog2 := fieldN a 28 24
  let home := fieldN a 36 32
  let pri := fieldN a 42 40
  if q = 0 ∨ s.queueUsed q then s.reply 0 c St.badQueue
  else if c.arg 0 % 4096 ≠ 0 ∨ c.arg 1 % 4096 ≠ 0 ∨ sqLog2 < 4 ∨ 16 < sqLog2 ∨ cqLog2 < 4 ∨ 16 < cqLog2 ∨ 25 ≤ home then
    s.reply 0 c St.badCommand
  else
    let s := s.clearQueueRegs (s.qBase q)
    let s := s.setQue q { sq := c.arg 0, cq := c.arg 1, sqLog2 := sqLog2, cqLog2 := cqLog2, homeroom := home, priority := pri }
    let b := s.qBase q
    let s := ((s.clearQueueRegs b).sf b F.fwcQStatusState (s.firstQState q)).sf b F.fwcQOwnerHomeroom home
    (s.sf b F.fwcQOwnerPriority pri).reply 0 c St.ok

def execCreateQueue (q : QueueNo) (s : State) : Result := onQueue q s (fun s => s.adminCmd q 0x01 State.createQueueCmd)

/-- Is a queue the only one that a session's homeroom uses (R335)? -/
def State.lastQueue (s : State) (q : Nat) : Bool :=
  let home := (s.que q).homeroom
  s.sessions.any (fun e => e.2.kind != .none && e.2.homeroom == home)
    && !(s.queues.map (·.1)).any (fun p => p != q && p != 0 && s.queueUsed p && (s.que p).homeroom == home)

/-- DELETE_QUEUE: the queue is UNUSED; what it had fetched or held goes with it. -/
def State.deleteQueueCmd (s : State) (c : HostCmd) : State :=
  let q := fieldN (c.arg 2) 9 0
  if q = 0 ∨ !s.queueUsed q ∨ s.lastQueue q then s.reply 0 c St.badQueue
  else ((s.clearQueueRegs (s.qBase q)).setQue q {}).reply 0 c St.ok

def execDeleteQueue (q : QueueNo) (s : State) : Result := onQueue q s (fun s => s.adminCmd q 0x02 State.deleteQueueCmd)

/-! ### TEST (R329) -/

/-- The state with the partition of exactly these dies changed. -/
def State.modExact (s : State) (m : BitVec 25) (f : Partition → Partition) : State :=
  { s with parts := s.parts.map (fun p => if p.dies = m then f p else p) }

/-- The clusters of a partition's enabled regions, one list for all regions in ascending slot order. -/
def State.examList (s : State) (m : BitVec 25) : List Nat :=
  (List.range 17).flatMap (fun sl => (diesOf m).flatMap (fun d =>
    ((List.range 8).filter (s.regionOk d)).map (fun r => clusterNo d r sl)))

/-- An enter request: the partition of exactly these dies is in SERVICE and has no session. None: BAD_PARTITION. -/
def State.enterTest (s : State) (m : BitVec 25) (exams : Bool) : Option State :=
  if s.parts.any (fun p => p.dies == m && p.state == .service) && !s.sessions.any (fun e => e.2.kind != .none && (e.2.dies &&& m) != 0)
  then some (s.modExact m (fun p => { p with state := .test, exams := if exams then s.examList m else [], leaving := none }))
  else none

/-- Is a cluster of these dies in recess? -/
def State.inRecess (s : State) (m : BitVec 25) : Bool := (diesOf m).any (fun d => !(s.die d).recess.isEmpty)

/-- TEST is left: every session of the partition ends, and it returns to SERVICE; the requests of the host are answered. -/
def State.leaveNow (s : State) (m : BitVec 25) (dests : List (W32 × Nat)) : State :=
  let s := s.openSessions.foldl (fun s n => if (s.ses n).dies &&& m != 0 then s.endSession n St.sessionEnded else s) s
  let s := s.modExact m (fun p => { p with state := .service, exams := [], leaving := none })
  dests.foldl (fun s d => (s.closeCmd 0).complete 0 { tag := d.1, kind := Ck.done, sqHead := d.2 }) s

/-- A leave request, of the host (with its tag and ring head) or of the object dictionary: at once, or after the exams in progress, like one that
waits already (notes/assumptions/55.md). None: BAD_PARTITION. -/
def State.leaveTest (s : State) (m : BitVec 25) (dest : Option (W32 × Nat)) : Option State :=
  match s.parts.find? (fun p => p.dies == m && p.state == .test) with
  | none => none
  | some p =>
    let s := s.setQue 0 { s.que 0 with openCmds := (s.que 0).openCmds + dest.toList.length }
    let dests := p.leaving.getD [] ++ dest.toList
    if s.inRecess m then some (s.modExact m (fun p => { p with exams := [], leaving := some dests })) else some (s.leaveNow m dests)

/-- TEST: an enter or a leave request for one partition. -/
def State.testCmd (s : State) (c : HostCmd) : State :=
  let m := BitVec.ofNat 25 (c.arg 0)
  if bitN (c.arg 1) 0 then
    match s.enterTest m (bitN (c.arg 1) 1) with
    | some s => s.reply 0 c St.ok
    | none => s.reply 0 c St.badPartition
  else
    match s.leaveTest m (some (c.tag, c.head)) with
    | some s => s
    | none => s.reply 0 c St.badPartition

def execTest (q : QueueNo) (s : State) : Result := onQueue q s (fun s => s.adminCmd q 0x05 State.testCmd)

/-! ### Sessions -/

/-- OPEN_SESSION: the DONE completion names the session and carries SAVE_BYTES (R338); a failure names what failed. -/
def execOpenSession (q : QueueNo) (s : State) : Result :=
  onQueue q s (fun s => s.takeCmd q 0x03 (fun s c =>
    let r := s.openWith (s.qDie q) c.args
    if r.2.1 = St.ok then
      let changed := (r.1.ses r.2.2.2).orderChanged
      r.1.complete q { answerTo c Ck.done St.ok r.2.2.1 with session := r.2.2.2, order := changed }
    else r.1.complete q { answerTo c Ck.error r.2.1 r.2.2.1 with session := 0 }))

/-- CLOSE_SESSION: queued jobs complete with SESSION_ENDED; then the session ends, after its running job or at once with ABORT (R335,
R354); a stream that STOP ends already is answered as ended (R505). -/
def State.closeSession (s : State) (q : Nat) (c : HostCmd) (n : Nat) : State :=
  if (s.ses n).closing.isSome ∨ (s.ses n).stopAtBell = some St.sessionEnded then s.reply q c St.sessionEnded
  else
    let s := s.setQue q { s.que q with openCmds := (s.que q).openCmds + 1 }
    let s := s.setSes n { s.ses n with closing := some (c.tag, q, c.head), state := .ending }
    let s := s.failQueued n St.sessionEnded
    if c.flags.getLsbD 1 || (s.runningJob n).isNone then s.endSession n St.ok else s

def execCloseSession (q : QueueNo) (s : State) : Result :=
  onQueue q s (fun s => s.sessionCmd q 0x04 (fun s c n => s.closeSession q c n))

/-- A buffer list: up to 4 entries of 16 bytes; an entry of length 0 names nothing (R335). -/
def State.bufferList (s : State) (n va : Nat) : List Buffer × State :=
  let r := s.virtRead (s.ses n).homeroom n va 64
  let b := r.1
  (((List.range 4).map (fun k => { addr := leAt b (16 * k) 8, pitch := leAt b (16 * k + 8) 4, len := leAt b (16 * k + 12) 4 : Buffer })).filter
    (fun x => x.len != 0), r.2.2)

/-- SUBMIT: a job joins the session's list, due at a bell when its stream is live (R335, R344); a picture whose layout R46 refuses is
answered at once. -/
def State.submitCmd (s : State) (q : Nat) (c : HostCmd) (n : Nat) : State :=
  let ses := s.ses n
  if ses.state = .ending then s.reply q c St.sessionEnded
  else if s.pkg.drained && !ses.live then s.reply q c St.deviceDrained
  else
    let ins := s.bufferList n (c.arg 0)
    let outs := ins.2.bufferList n (c.arg 1)
    let s := outs.2
    let ses := s.ses n
    let j : Job := { tag := c.tag, queue := q, sqHead := c.head, seq := BitVec.ofNat 32 (c.arg 3), ins := ins.1, outs := outs.1,
                     audit := c.arg 2, due := c.due, order := s.pkg.submitted }
    if badLayout ses j then s.complete q { answerTo c Ck.error St.badPictureLayout with seq := j.seq }
    else
    let s := s.setSes n { ses with jobs := ses.jobs ++ [j] }
    let s := { s with pkg := { s.pkg with submitted := s.pkg.submitted + 1 } }
    s.setQue q { s.que q with openCmds := (s.que q).openCmds + 1 }

def execSubmit (q : QueueNo) (s : State) : Result := onQueue q s (fun s => s.sessionCmd q 0x10 (fun s c n => s.submitCmd q c n))

/-- WITHDRAW: the job is dropped, at once when it runs or comes next, else when its turn comes, so that drops keep the order of the
jobs (R303, R354). -/
def State.withdrawCmd (s : State) (q : Nat) (c : HostCmd) (n : Nat) : State :=
  let ses := s.ses n
  match ses.jobs.find? (fun j => j.seq.toNat == c.arg 3 % 2 ^ 32 && !j.withdrawn && !jobComplete ses j) with
  | none => s.complete q (answerTo c Ck.done St.jobNotFound)
  | some j =>
    let s := if j.phase = .queued ∧ badLayout ses j then s.refuseLayout n j
      else if ses.jobs.head? = some j then (s.dropRunning n j 3).afterJob n
      else s.setSes n { ses with jobs := ses.jobs.map (fun x => if x = j then { x with withdrawn := true } else x) }
    s.reply q c St.ok

def execWithdraw (q : QueueNo) (s : State) : Result := onQueue q s (fun s => s.sessionCmd q 0x11 (fun s c n => s.withdrawCmd q c n))

/-- A refresh point is requested before the next picture not yet begun (R74). -/
def State.requestRefresh (s : State) (n : Nat) : State := s.setEnc n { (s.ses n).enc with refreshDue := true }

/-- REFRESH: for an encode session. -/
def execRefresh (q : QueueNo) (s : State) : Result :=
  onQueue q s (fun s => s.sessionCmd q 0x12 (fun s c n =>
    if (s.ses n).kind = .encode then (s.requestRefresh n).reply q c St.ok else s.reply q c St.badCommand))

/-- PAUSE: takes effect at the next pause point of the session's lists, never between them (R310); a capacity below SAVE_BYTES leaves the session running (R313). A second PAUSE, or
one of a session that is not open, is refused. -/
def State.pauseCmd (s : State) (q : Nat) (c : HostCmd) (n : Nat) : State :=
  let ses := s.ses n
  if ses.state ≠ .open_ ∨ ses.pauseTo.isSome then s.reply q c St.badCommand
  else if c.arg 1 < ses.saveBytes then s.reply q c St.saveTooSmall
  else
    let s := s.setQue q { s.que q with openCmds := (s.que q).openCmds + 1 }
    let s := s.setSes n { ses with pauseTo := some (c.tag, q, c.head, c.arg 0) }
    let s := (s.clustersOfSession n).foldl (fun s k =>
      if s.rf k.base F.exeSession = n ∧ s.engineBusy k then s.sf k.base F.exeCtrlPauseReq 1 else s) s
    s.tryPause n

def execPause (q : QueueNo) (s : State) : Result := onQueue q s (fun s => s.sessionCmd q 0x13 (fun s c n => s.pauseCmd q c n))

/-- RESUME of a paused session from its save record (R312 to R314). -/
def State.resumeCmd (s : State) (q : Nat) (c : HostCmd) (n : Nat) : State :=
  let ses := s.ses n
  if ses.state ≠ .paused then s.reply q c St.badCommand
  else
    let r := s.virtRead ses.homeroom n (c.arg 0) ses.saveBytes
    match r.2.2.readSave n r.1 with
    | (_, some x) =>
      let s := r.2.2.resumeFrom n x
      s.complete q { answerTo c Ck.done St.ok with order := (s.ses n).orderChanged }
    | (st, none) => r.2.2.reply q c st

def execResume (q : QueueNo) (s : State) : Result := onQueue q s (fun s => s.sessionCmd q 0x14 (fun s c n => s.resumeCmd q c n))

/-- An origin record (R161). -/
def originBytes (o : Origin) : List Byte :=
  natLe 8 o.step.toNat ++ natLe 4 o.element ++ natLe 3 o.instr ++ natLe 1 o.opcode.toNat ++ natLe 2 o.punit.toNat ++ natLe 2 o.lclus.toNat
    ++ natLe 1 o.kind ++ natLe 1 (b2n o.ordered) ++ natLe 2 0 ++ natLe 4 o.count.toNat ++ natLe 4 0

/-- The status block (R340). -/
def State.statusBlock (s : State) (n : Nat) : List Byte :=
  let ses := s.ses n
  let k := ses.counters
  let os := ses.origins.take 256
  let st := match ses.state with | .paused => 2 | .ending => 3 | _ => 1
  natLe 1 st ++ natLe 1 ses.kind.code ++ natLe 2 n ++ natLe 1 ses.homeroom ++ natLe 3 0 ++ natLe 8 (s.sessionStep n).toNat
    ++ natLe 8 ses.sat.toNat ++ natLe 4 ses.excFlags.toNat ++ natLe 4 (min (ses.origins.length - 256) 0xFFFF_FFFF)
    ++ natLe 4 k.lost.toNat ++ natLe 4 k.crcErr.toNat ++ natLe 4 k.unknown.toNat ++ natLe 4 k.late.toNat ++ natLe 4 k.duplicate.toNat
    ++ natLe 4 k.dropped.toNat ++ natLe 4 k.forcedNoref.toNat ++ natLe 2 os.length ++ natLe 2 0 ++ os.flatMap originBytes

/-- QUERY: the status block written to the session's address; a capacity below its length writes nothing (R340), and an address that
cannot be written answers FET_DST_FAULT and ends the session (R283, R375, R405). -/
def State.queryCmd (s : State) (q : Nat) (c : HostCmd) (n : Nat) : State :=
  let b := s.statusBlock n
  if c.arg 1 < b.length then s.reply q c St.saveTooSmall
  else
    let w := s.virtWrite (s.ses n).homeroom n (c.arg 0) b
    if w.2 then w.1.reply q c St.ok else (w.1.reply q c St.fetDstFault).endSession n St.fetDstFault

def execQuery (q : QueueNo) (s : State) : Result := onQueue q s (fun s => s.sessionCmd q 0x15 (fun s c n => s.queryCmd q c n))

/-- BELL: the bell rang as the command was fetched (R343); a stream without BELL_HOST, or before its bell 0, has none to ring. -/
def execBell (q : QueueNo) (s : State) : Result :=
  onQueue q s (fun s => s.sessionCmd q 0x16 (fun s c _ => s.reply q c (if c.rang then St.ok else St.badCommand)))

end Sys2Proof.Machine
end

