-- ==== Sys2Proof/Machine/Entropy.lean ====
section
/-!
DEFINITION. The entropy units (R79 to R107): how a channel takes feed records, codes and decodes symbols on its lanes, opens and ends
segments, writes results, and what its registers refuse.
-/

namespace Sys2Proof.Machine

/-! ### Lanes as registers (R106, R107) -/

/-- A lane context read from its registers. -/
def State.lane (s : State) (ch : ChannelId) (l : Nat) : Lane :=
  let b := ch.laneBase l
  { low := s.rf b F.entLcLow, range := s.rf b F.entLcRange, cache := s.rf b F.entLcCacheCache
    carry := s.bit b F.entLcCacheCarry, started := s.bit b F.entLcCacheStarted, pending := s.rf b F.entLcPend
    pos := s.rf b F.entLcPos }

/-- A lane context written to its registers; ENT_LC_CACHE [10] says that low holds a decoder's code. -/
def State.setLane (s : State) (ch : ChannelId) (l : Nat) (isCode : Bool) (x : Lane) : State :=
  let b := ch.laneBase l
  let s := ((s.sf b F.entLcLow x.low).sf b F.entLcRange x.range).sf b F.entLcCacheCache x.cache
  let s := ((s.flag b F.entLcCacheCarry x.carry).flag b F.entLcCacheStarted x.started).flag b F.entLcCacheIsCode isCode
  (s.sf b F.entLcPend x.pending).sf b F.entLcPos x.pos

/-- The lanes of each segment that a channel holds, in ascending bit of ENT_CH_LANES. -/
def State.lanesOf (s : State) (ch : ChannelId) : List Nat := (List.range 8).filter (fun l => bitN (s.rf ch.base F.entChLanes) l)

/-- DIR: the channel decodes. -/
def State.decodes (s : State) (ch : ChannelId) : Bool := s.bit ch.base F.entChCtrlDir

/-- The session of a channel. -/
def State.chSession (s : State) (ch : ChannelId) : Nat := s.rf ch.base F.entChCtrlSession

/-- The address of an offset that a channel names: it lies in its session's window on its die (R358). -/
def State.chAddr (s : State) (ch : ChannelId) (off : Nat) : Nat := s.windowAddr (s.chSession ch) ch.die off

/-- The address of byte i of a lane. -/
def State.laneByte (s : State) (ch : ChannelId) (l i : Nat) : Nat := s.chAddr ch (s.rf (ch.laneBase l) F.entLcOffset + i)

/-- A bit of a channel in ENT_ERR (R106), and the error event that an error of it raises (R103). -/
def State.entBit (s : State) (ch : ChannelId) (f : Fld) : State := (s.raise ch.unitBase f).sf ch.unitBase F.entErrChannel ch.chan
def State.entErr (s : State) (ch : ChannelId) (f : Fld) : State := (s.entBit ch f).errEvent ch.die (0x300 + f.hi)

/-- An error that ends the session (R103). -/
def State.entFail (s : State) (ch : ChannelId) (f : Fld) (status : Nat) : State :=
  (s.entErr ch f).endSession (s.chSession ch) status

/-- BAD_FEED, also for an access that passes the session's window (R103, R359). -/
def State.badFeedEnd (s : State) (ch : ChannelId) : State := s.entFail ch F.entErrBadFeed St.entBadFeed

/-- The window of a channel's session reaches over a range of offsets (R359). -/
def State.chInside (s : State) (ch : ChannelId) (off len : Nat) : Bool := s.inWindow (s.chSession ch) ch.die off len

/-- The bytes of a lane between two positions lie inside the window of its session (R358, R359). -/
def State.laneInside (s : State) (ch : ChannelId) (l pos len : Nat) : Bool :=
  len == 0 || s.chInside ch (s.rf (ch.laneBase l) F.entLcOffset + pos) len

/-- Poison that a channel reads (R103, R286). -/
def State.entPoison (s : State) (ch : ChannelId) : State :=
  (s.poisonEvent ch.die).entFail ch F.entErrPoisonIn St.poisonConsumed

/-! ### Feed records (R99, R101) -/

def recTag (r : Nat) : Nat := fieldN r 63 56
def recKind (r : Nat) : Nat := fieldN r 55 53
def recPost (r : Nat) : Bool := bitN r 52
def recSym (r : Nat) : Int := signedN 8 (fieldN r 47 40)
def recTable (r : Nat) : Nat := fieldN r 38 32
def recB (r : Nat) : Nat := fieldN r 31 16
def recA (r : Nat) : Nat := fieldN r 15 0
def recDesc (r : Nat) : Nat := fieldN r 23 0

/-- The unit and the channel are enabled, and no result waits to be written. -/
def State.chReady (s : State) (ch : ChannelId) : Bool :=
  s.bit ch.unitBase F.entCtrlEnable && s.bit ch.base F.entChCtrlEnable && (s.chan ch).result.isNone

/-- The wait for the next record on FEED_READY: satisfied before, or now (R101). -/
def State.feedWait (s : State) (ch : ChannelId) : Option State :=
  if (s.chan ch).fed then some s else s.take ch.die (s.rf ch.base F.entChSemFeedReady) 1

/-- A record has been finished with: its slot is free (R101). -/
def State.feedFree (s : State) (ch : ChannelId) : State := s.post (srcChannel ch) ch.die (s.rf ch.base F.entChSemFeedFree) 1

/-- RES_READY is posted by the number of results written since the previous post (R101). -/
def State.resReady (s : State) (ch : ChannelId) : State :=
  let x := s.chan ch
  (s.setChan ch { x with unposted := 0 }).post (srcChannel ch) ch.die (s.rf ch.base F.entChSemResReady) x.unposted

/-- Events of R103 that make a record BAD_FEED. -/
def badFeedRecord (decode isOpen : Bool) (r : Nat) : Bool :=
  decide (5 ≤ recKind r) || (recKind r == 1 && (decode || recB r == 0 || decide (65536 < recA r + recB r)))
    || (recKind r == 3) == isOpen

/-- A channel takes its next record when that is of a kind, or of none: a record of a reserved kind is refused by whichever command
meets it. Its checks (R103) come before its work, which also says when its slot is free. The first record after the channel's enable has no
previous tag to be held against (notes/assumptions/59.md). -/
def State.takeRecord (s : State) (ch : ChannelId) (kind : Nat) (work : State → Nat → State) : State :=
  if !s.chReady ch then s
  else
    match s.feedWait ch with
    | none => s
    | some t =>
      let x := t.chan ch
      let off := t.rf ch.base F.entChFeedBase + 8 * x.feedPos
      let a := t.chAddr ch off
      let r := t.le a 8
      let isOpen := t.bit ch.base F.entChStatusOpen
      if !t.chInside ch off 8 then t.badFeedEnd ch
      else if recKind r ≠ kind ∧ recKind r < 5 then s
      else if t.anyPoison a 8 then t.entPoison ch
      else if badFeedRecord (t.decodes ch) isOpen r then t.badFeedEnd ch
      else
        let last := t.rf ch.base F.entChStatusTag
        if x.tagged ∧ recTag r ≠ last ∧ recTag r ≠ (last + 1) % 256 then t.entFail ch F.entErrFeedOrder St.entFeedOrder
        else
          let t := (t.touchRx a 8).setChan ch { x with fed := false, tagged := true, feedPos := (x.feedPos + 1) % max 1 (t.rf ch.base F.entChFeedSize) }
          work (t.sf ch.base F.entChStatusTag (recTag r)) r

/-! ### Symbols -/

/-- The CDF of a side table (R91). -/
def State.sideCdf (s : State) (ch : ChannelId) (table k : Nat) : Nat :=
  if k = 0 then 0
  else if 63 ≤ k then 65536
  else
    let o := 0x4000 + table * 0x80 + 2 * k
    fieldN (s.rd (ch.unitBase + o / 4 * 4)).toNat (o % 4 * 8 + 15) (o % 4 * 8)

/-- The lane that takes symbol j of a channel's segment: the (j mod popcount)-th lane of its mask (R106). -/
def State.laneOf (s : State) (ch : ChannelId) : Nat :=
  let ls := s.lanesOf ch
  ls.getD ((s.chan ch).taken % max 1 ls.length) 0

/-- Bytes that a lane puts, written behind those it has; none when they would pass its capacity (R103). -/
def State.putBytesOf (s : State) (ch : ChannelId) (l pos : Nat) (bs : List Byte) : Option State :=
  if s.rf (ch.laneBase l) F.entLcLen < pos + bs.length then none else some (s.store (s.laneByte ch l pos) bs false)

/-- A symbol is counted on its lane, its unit and its segment. -/
def State.countSymbol (s : State) (ch : ChannelId) (l : Nat) : State :=
  let s := (s.sf (ch.laneBase l) F.entLcSyms (s.rf (ch.laneBase l) F.entLcSyms + 1)).bump ch.unitBase F.entSymcnt 1
  s.setChan ch { s.chan ch with taken := (s.chan ch).taken + 1 }

/-- A lane that R82 and R85 give no next value: its range is below 2^16, or the symbol's frequency is not above 0. -/
def degenerate (x : Lane) (f : Nat) : Bool := decide (x.range < 65536) || f == 0

/-- The lane then holds free values (notes/assumptions/23.md). -/
def State.freeLane (s : State) (x : Lane) : Lane × State :=
  let v := s.free
  ({ x with low := v.1.toNat % 2 ^ 32, range := v.1.toNat / 2 ^ 32 }, v.2)

/-- A symbol encoded with c_lo and f (R82, R92). -/
def State.encodeSymbol (s : State) (ch : ChannelId) (cLo f : Nat) : State :=
  let l := s.laneOf ch
  let x := s.lane ch l
  if degenerate x f then
    let v := s.freeLane x
    ((v.2.setLane ch l false v.1).countSymbol ch l).feedFree ch
  else
    let r := x.encode cLo f
    if !s.laneInside ch l x.pos r.2.length then s.badFeedEnd ch
    else
    match s.putBytesOf ch l x.pos r.2 with
    | none => s.entFail ch F.entErrLaneOverflow St.entLaneOverflow
    | some s => ((s.setLane ch l false { r.1 with pos := x.pos + r.2.length }).countSymbol ch l).feedFree ch

/-- The bytes of a lane as R85's next_byte reads them. -/
def State.laneRead (s : State) (ch : ChannelId) (l : Nat) : Nat → Byte := fun i =>
  if i < s.rf (ch.laneBase l) F.entLcLen then s.byte (s.laneByte ch l i) else 0

/-- Is a byte that a lane reads between two positions poisoned? -/
def State.lanePoison (s : State) (ch : ChannelId) (l a b : Nat) : Bool :=
  let b := min b (s.rf (ch.laneBase l) F.entLcLen)
  s.anyPoison (s.laneByte ch l a) (b - a)

/-- A symbol decoded from an alphabet of n symbols with CDF c, whose codes start at -bias (R85, R87); the code waits to be written. -/
def State.decodeSymbol (s : State) (ch : ChannelId) (r : Nat) (c : Nat → Nat) (n bias : Nat) : State :=
  let l := s.laneOf ch
  let x := s.lane ch l
  let d := x.decode (s.laneRead ch l) c n
  let result := fun (s : State) (k : Nat) (clamped : Bool) =>
    let y := (s.countSymbol ch l).chan ch
    (s.countSymbol ch l).setChan ch { y with result := some (BitVec.ofInt 8 ((k : Int) - bias)), postAfter := recPost r,
                                             clamped := y.clamped || clamped }
  if degenerate x (c (d.2.1 + 1) - c d.2.1) then
    let v := s.freeLane x
    result (v.2.setLane ch l true v.1) d.2.1 false
  else if !s.laneInside ch l x.pos (min d.1.pos (s.rf (ch.laneBase l) F.entLcLen) - x.pos) then s.badFeedEnd ch
  else if s.lanePoison ch l x.pos d.1.pos then s.entPoison ch
  else result (s.setLane ch l true d.1) d.2.1 d.2.2

/-- c_lo and f of a symbol index in an alphabet of n symbols; outside it they are free values (notes/assumptions/23.md). -/
def State.cdfPair (s : State) (c : Nat → Nat) (n : Nat) (k : Int) : Nat × Nat × State :=
  if 0 ≤ k ∧ k < n then (c k.toNat, c (k.toNat + 1) - c k.toNat, s)
  else
    let v := s.free
    let lo := v.1.toNat % 65536
    (lo, 1 + v.1.toNat / 65536 % (65536 - lo), v.2)

/-- The sessions of the enabled channels of the unit that a channel belongs to. -/
def State.unitSessions (s : State) (ch : ChannelId) : List Nat :=
  (((List.finRange 4).map (fun k => { ch with chan := k })).filter (fun k => s.bit k.base F.entChCtrlEnable)).map s.chSession |>.eraseDups

/-- A parity error of a lane context or a side table (R107, R444): ENT_PARITY against the unit, and R71 for the encode streams that
use it. The record is worked on with what the unit holds. -/
def State.unitParity (s : State) (ch : ChannelId) (parity : Bool) : State :=
  if parity then
    let ns := s.unitSessions ch
    let noref := ns.any (fun n => (s.ses n).kind == .encode)
    ns.foldl State.forceNoref (s.report { kind := Card.entParity, die := ch.die, punit := ch.die.val + 32 * ch.unit.val, unitOk := true,
                                          session := s.chSession ch, noref := noref })
  else s

/-- LATENT (R82, R85, R88, R90): a latent code with the synthesised CDF; each clamp of the mean or scale counts. -/
def State.latentRecord (s : State) (ch : ChannelId) (r : Nat) : State :=
  let m := clampMuSigma (signedN 16 (recA r)) (recB r)
  let s := s.saturate (s.chSession ch) m.2.2
  let c := latentCdf m.1 m.2.1
  if s.decodes ch then s.decodeSymbol ch r c 255 127
  else
    let p := s.cdfPair c 255 (recSym r + 127)
    p.2.2.encodeSymbol ch p.1 p.2.1

def execLatent (ch : ChannelId) (parity : Bool) (s : State) : Result :=
  onDie ch.die s (fun s => s.takeRecord ch 0 (fun s r => (s.unitParity ch parity).latentRecord ch r))

/-- LATENT_CDF (R99): c_lo in A and f in B, in an encode channel only. -/
def execLatentCdf (ch : ChannelId) (parity : Bool) (s : State) : Result :=
  onDie ch.die s (fun s => s.takeRecord ch 1 (fun s r => (s.unitParity ch parity).encodeSymbol ch (recA r) (recB r)))

/-- SIDE (R91): a side code with a stored table; a code beyond ±31 is clamped, and counts (R87; notes/assumptions/60.md). -/
def State.sideRecord (s : State) (ch : ChannelId) (r : Nat) : State :=
  let c := s.sideCdf ch (recTable r)
  let s := s.setChan ch { s.chan ch with side := true }
  if s.decodes ch then s.decodeSymbol ch r c 63 31
  else
    let k := clampI (-31) 31 (recSym r)
    let p := s.cdfPair c 63 (k.1 + 31)
    (p.2.2.saturate (s.chSession ch) (b2n k.2)).encodeSymbol ch p.1 p.2.1

def execSide (ch : ChannelId) (parity : Bool) (s : State) : Result :=
  onDie ch.die s (fun s => s.takeRecord ch 2 (fun s r => (s.unitParity ch parity).sideRecord ch r))

/-! ### Segments -/

/-- A lane starts its segment: offset and length from its descriptor, the state of R82 or of R85. -/
def State.startLane (s : State) (ch : ChannelId) (table l : Nat) : State :=
  let a := s.chAddr ch (table + 8 * l)
  let b := ch.laneBase l
  let s := ((s.sf b F.entLcOffset (s.le a 4 % 2 ^ 24)).sf b F.entLcLen (s.le (a + 4) 4 % 2 ^ 24)).sf b F.entLcSyms 0
  if s.decodes ch then s.setLane ch l true (({} : Lane).startDecode (s.laneRead ch l)) else s.setLane ch l false {}

/-- A lane descriptor that is in order: its bytes lie in the session's window from a multiple of 64 (R100, R359). -/
def State.goodLane (s : State) (ch : ChannelId) (table l : Nat) : Bool :=
  let a := s.chAddr ch (table + 8 * l)
  let off := s.le a 4 % 2 ^ 24
  off % 64 == 0 && s.chInside ch off (s.le (a + 4) 4 % 2 ^ 24)

/-- SEGMENT_START (R80, R99, R100): the segment opens on the lanes that the channel holds; with POST set, results not yet posted are posted (R101).
A table or a lane that does not begin at a multiple of 64 is BAD_FEED (notes/assumptions/39.md). -/
def State.segmentStart (s : State) (ch : ChannelId) (r : Nat) : State :=
  let table := recDesc r
  if table % 64 ≠ 0 ∨ s.chInside ch table 64 = false then s.badFeedEnd ch
  else if s.anyPoison (s.chAddr ch table) 64 then s.entPoison ch
  else if !(s.lanesOf ch).all (s.goodLane ch table) then s.badFeedEnd ch
  else
    let s := (s.lanesOf ch).foldl (fun s l => s.startLane ch table l) s
    if s.decodes ch && (s.lanesOf ch).any (fun l => s.lanePoison ch l 0 4) then s.entPoison ch
    else
      let s := s.setChan ch { s.chan ch with taken := 0, desc := table, clamped := false, side := false }
      let s := (s.sf ch.base F.entChStatusOpen 1).feedFree ch
      if recPost r then s.resReady ch else s

def execSegmentStart (ch : ChannelId) (s : State) : Result :=
  onDie ch.die s (fun s => s.takeRecord ch 3 (fun s r => s.segmentStart ch r))

/-- An encode lane at the end of its segment: flushed, trimmed, its byte count written into its descriptor; none when it overflows
(R83, R100). -/
def State.endLane (s : State) (ch : ChannelId) (l : Nat) : Option State :=
  let x := s.lane ch l
  let r := if s.rf (ch.laneBase l) F.entLcSyms = 0 then (x, []) else x.flush
  match s.putBytesOf ch l x.pos r.2 with
  | none => none
  | some s =>
    let n := x.pos + r.2.length
    let count := (trimZeros (s.bytes (s.laneByte ch l 0) n)).length
    let s := s.store (s.chAddr ch ((s.chan ch).desc + 8 * l) + 4) (natLe 4 count) false
    some (s.setLane ch l false { r.1 with pos := n })

/-- The cases of R86 in some lanes: bytes never read, and a last byte of 0x00. -/
def State.surplus (s : State) (ch : ChannelId) (l : Nat) : Bool :=
  decide (s.rf (ch.laneBase l) F.entLcPos < s.rf (ch.laneBase l) F.entLcLen)
def State.trailing (s : State) (ch : ChannelId) (l : Nat) : Bool :=
  let n := s.rf (ch.laneBase l) F.entLcLen
  decide (0 < n) && s.byte (s.laneByte ch l (n - 1)) == 0

/-- The slice of a decoder's picture whose segment a channel has decoded: the one whose lanes are the bytes that the channel's lanes hold
(notes/assumptions/24.md). -/
def State.sliceHeldOn (s : State) (ch : ChannelId) (p : DecPicture) : Option Slice :=
  p.held.find? (fun x => (s.lanesOf ch).all (fun l => x.lanes.getD l [] == s.bytes (s.laneByte ch l 0) (s.rf (ch.laneBase l) F.entLcLen)))

/-- The picture with a segment marked as damaged, and whether that is new: a side segment makes the whole picture not received (R86). -/
def State.markDamage (s : State) (ch : ChannelId) (p : DecPicture) : DecPicture × Bool :=
  match (if (s.chan ch).side then none else s.sliceHeldOn ch p) with
  | some x =>
    if p.damaged.contains (x.index, x.edition) then (p, false) else ({ p with damaged := p.damaged ++ [(x.index, x.edition)] }, true)
  | none => ({ p with lost := true }, !p.lost)

/-- A damaged segment: a channel counts it in ENT_CH_DAMAGE; its slice counts as not received, and the stream counts the segment once, whatever
number of channels found a case (R75, R86). -/
def State.damageSegment (s : State) (ch : ChannelId) : State :=
  let n := s.chSession ch
  let ses := s.ses n
  let t := s.bump ch.base F.entChDamage 1
  let put := fun (d : Decoder) (new : Bool) =>
    t.setSes n { ses with dec := d, counters := { ses.counters with damaged := hold32 ses.counters.damaged (b2n new) } }
  if ses.kind ≠ .decode then t
  else
    match ses.dec.current, ses.dec.closing with
    | some p, _ => let m := s.markDamage ch p; put { ses.dec with current := some m.1 } m.2
    | none, some x => let m := s.markDamage ch x.1; put { ses.dec with closing := some (m.1, x.2) } m.2
    | none, none => t

/-- The lanes of a decode channel checked at the end of their segment: every case found sets its bit, and the channel raises one error event
(R86), with the code of the first of them (notes/assumptions/57.md). -/
def State.checkLanes (s : State) (ch : ChannelId) : State :=
  let ls := s.lanesOf ch
  let a := ls.any (s.surplus ch)
  let b := ls.any (s.trailing ch)
  let c := (s.chan ch).clamped
  if a || b || c then
    let s := if a then s.entBit ch F.entErrLaneSurplus else s
    let s := if b then s.entBit ch F.entErrTrailingZero else s
    let s := if c then s.entBit ch F.entErrTargetClamp else s
    let first := if a then F.entErrLaneSurplus.hi else if b then F.entErrTrailingZero.hi else F.entErrTargetClamp.hi
    (s.errEvent ch.die (0x300 + first)).damageSegment ch
  else s

/-- The side lanes that an encode channel has coded are the open picture's from now on (R54, R117). -/
def State.keepSide (s : State) (ch : ChannelId) : State :=
  let n := s.chSession ch
  let ses := s.ses n
  match ses.kind, ses.enc.current with
  | .encode, some p =>
    if (s.chan ch).side then
      let side := (s.lanesOf ch).foldl (fun t l =>
        let len := s.le (s.chAddr ch ((s.chan ch).desc + 8 * l) + 4) 4 % 2 ^ 24
        Sparse.put (fun _ => none) t l (some (s.bytes (s.laneByte ch l 0) len))) p.side
      s.setSes n { ses with enc := { ses.enc with current := some { p with side := side } } }
    else s
  | _, _ => s

/-- SEGMENT_END (R83, R86, R101): the bytes of the lanes and their places in the descriptor table lie in the session's window (R359); lanes flushed or checked, results not yet posted are posted, the segment closes. -/
def State.segmentEnd (s : State) (ch : ChannelId) : State :=
  let done := if s.decodes ch then some (s.checkLanes ch)
    else ((s.lanesOf ch).foldl (fun (a : Option State) l => a.bind (fun s => s.endLane ch l)) (some s)).map (fun s => s.keepSide ch)
  if !(s.lanesOf ch).all (fun l => s.laneInside ch l 0 (s.rf (ch.laneBase l) F.entLcLen))
      || (!s.decodes ch && !(s.lanesOf ch).all (fun l => s.chInside ch ((s.chan ch).desc + 8 * l + 4) 4)) then s.badFeedEnd ch
  else
  match done with
  | none => s.entFail ch F.entErrLaneOverflow St.entLaneOverflow
  | some s => ((s.sf ch.base F.entChStatusOpen 0).feedFree ch).resReady ch

def execSegmentEnd (ch : ChannelId) (s : State) : Result :=
  onDie ch.die s (fun s => s.takeRecord ch 4 (fun s _ => s.segmentEnd ch))

/-! ### Results -/

/-- A decoded code written to the result ring once RES_FREE has been waited on; its record is then finished with, and RES_READY posted
when the record has POST set (R101). -/
def State.resultWrite (s : State) (ch : ChannelId) : State :=
  let x := s.chan ch
  match x.result with
  | none => s
  | some b =>
    match (if x.freed then some s else s.take ch.die (s.rf ch.base F.entChSemResFree) 1) with
    | none => s
    | some s =>
      if !s.chInside ch (s.rf ch.base F.entChResBase + x.resPos) 1 then s.badFeedEnd ch
      else
      let s := s.store (s.chAddr ch (s.rf ch.base F.entChResBase + x.resPos)) [b] false
      let s := s.setChan ch { x with result := none, freed := false, unposted := x.unposted + 1,
                                     resPos := (x.resPos + 1) % max 1 (s.rf ch.base F.entChResSize) }
      let s := s.feedFree ch
      if x.postAfter then s.resReady ch else s

def execEntResultWrite (ch : ChannelId) (s : State) : Result :=
  onDie ch.die s (fun s => if s.bit ch.unitBase F.entCtrlEnable && s.bit ch.base F.entChCtrlEnable then s.resultWrite ch else s)

/-! ### Registers -/

/-- Records of the discarded segment that stand in the feed ring are consumed as free slots (R104); the tag of the last of them is the one before
the next record's. -/
def State.dropRecords (s : State) (ch : ChannelId) : Nat → State
  | 0 => s
  | fuel + 1 =>
    let x := s.chan ch
    let off := s.rf ch.base F.entChFeedBase + 8 * x.feedPos
    let r := s.le (s.chAddr ch off) 8
    match s.feedWait ch with
    | none => s
    | some t =>
      if !s.chInside ch off 8 then s.badFeedEnd ch
      else if recKind r = 3 then s
      else
        let t := t.setChan ch { x with fed := false, tagged := true, feedPos := (x.feedPos + 1) % max 1 (t.rf ch.base F.entChFeedSize) }
        ((t.sf ch.base F.entChStatusTag (recTag r)).feedFree ch).dropRecords ch fuel

/-- ENT_CH_CTRL.ABORT (R104): the open segment is discarded, its lanes return to their initial state, whether the channel is enabled or not; with no
segment open it does nothing (notes/assumptions/87.md). -/
def State.chAbort (s : State) (ch : ChannelId) : State :=
  if s.bit ch.base F.entChStatusOpen then
    let pend := (s.chan ch).result.isSome
    let s := (s.sf ch.base F.entChStatusOpen 0).resetLanes ch
    let s := s.setChan ch { s.chan ch with result := none, taken := 0, clamped := false }
    let s := if pend then s.feedFree ch else s
    s.dropRecords ch (s.rf ch.base F.entChFeedSize)
  else s

def execEntChAbort (ch : ChannelId) (s : State) : Result :=
  onDie ch.die s (fun s => s.chAbort ch)

/-- A power of two in a range. -/
def powerIn (lo hi n : Nat) : Bool := decide (lo ≤ n ∧ n ≤ hi) && n == 2 ^ Nat.log2 n

/-- A channel that R107 lets start: ring sizes, rings inside the session's window (R359), and at least one lane. -/
def State.goodChannel (s : State) (ch : ChannelId) : Bool :=
  let f := s.rf ch.base F.entChFeedSize
  let r := s.rf ch.base F.entChResSize
  powerIn 16 32768 f && powerIn 64 1048576 r && s.rf ch.base F.entChLanes != 0
    && s.chInside ch (s.rf ch.base F.entChFeedBase) (8 * f) && s.chInside ch (s.rf ch.base F.entChResBase) r

/-- ENT_CH_CTRL.ENABLE set to 1 (R107). The channel starts at position 0 of both rings with nothing counted; a segment that stood open goes on
with its lane contexts, its descriptor table, its symbols taken and its marks (notes/assumptions/59.md). -/
def State.chEnable (s : State) (ch : ChannelId) : State :=
  if s.bit ch.base F.entChCtrlEnable then s
  else if s.goodChannel ch then
    let x := s.chan ch
    (s.sf ch.base F.entChCtrlEnable 1).setChan ch (if s.bit ch.base F.entChStatusOpen then
      { taken := x.taken, result := x.result, postAfter := x.postAfter, desc := x.desc, clamped := x.clamped, side := x.side } else {})
  else s.badFeedEnd ch

def execEntChEnable (ch : ChannelId) (s : State) : Result := onDie ch.die s (fun s => s.chEnable ch)

/-- A write to a lane context, ignored while its channel is enabled (R103). -/
def State.laneWrite (s : State) (ch : ChannelId) (l : Nat) (r : LaneReg) (v : W32) : State :=
  if s.bit ch.base F.entChCtrlEnable then s.entErr ch F.entErrCtxWriteWhileEnabled
  else
    let b := ch.laneBase l
    match r with
    | .low => s.sf b F.entLcLow v.toNat
    | .range => s.sf b F.entLcRange v.toNat
    | .cache => ((s.sf b F.entLcCacheCache (getF v 7 0)).sf b F.entLcCacheCarry (getF v 8 8)).sf b F.entLcCacheStarted (getF v 9 9)
    | .pend => s.sf b F.entLcPend (getF v 23 0)
    | .pos => s.sf b F.entLcPos (getF v 23 0)
    | .offset => s.sf b F.entLcOffset (getF v 23 0)
    | .len => s.sf b F.entLcLen (getF v 23 0)
    | .syms => s.sf b F.entLcSyms v.toNat

def execLaneContextWrite (ch : ChannelId) (lane : Fin 8) (r : LaneReg) (v : W32) (s : State) : Result :=
  onDie ch.die s (fun s => s.laneWrite ch lane r v)

/-- A write to side-table memory, ignored while any channel of the unit is enabled (R103); entries 0 and 63 are not stored (R106). -/
def State.sideWrite (s : State) (d : Die) (u : Fin 8) (table k : Nat) (v : BitVec 16) : State :=
  let chans := (List.finRange 4).map (fun c => ({ die := d, unit := u, chan := c } : ChannelId))
  let b := key d (entOff u)
  if chans.any (fun ch => s.bit ch.base F.entChCtrlEnable) then
    (s.raise b F.entErrTableWriteWhileActive).errEvent d (0x300 + F.entErrTableWriteWhileActive.hi)
  else if k = 0 ∨ 63 ≤ k then s
  else
    let o := 0x4000 + table * 0x80 + 2 * k
    let w := b + o / 4 * 4
    s.wr w (setF (s.rd w) (o % 4 * 8 + 15) (o % 4 * 8) v.toNat)

def execSideTableWrite (d : Die) (unit : Fin 8) (table : Fin 128) (k : Fin 64) (v : BitVec 16) (s : State) : Result :=
  onDie d s (fun s => s.sideWrite d unit table k v)

end Sys2Proof.Machine
end

