-- ==== Sys2Proof/Machine/ObjNames.lean ====
section
/-!
DEFINITION. The names and CoE types of the dictionary's objects (R492, R498, R499), as the SDO information service gives them (R486): by the base of
an index and its sub-index.
-/

namespace Sys2Proof.Machine

/-- The name of an object in the tables of R498 and R499. -/
def objName (base sub : Nat) : String :=
  match base, sub with
  | 0x1000, _ => "Device type"
  | 0x1008, _ => "Device name"
  | 0x1009, _ => "Hardware version"
  | 0x100A, _ => "Software version"
  | 0x1018, 1 => "Vendor ID"
  | 0x1018, 2 => "Product code"
  | 0x1018, 3 => "Revision"
  | 0x1018, 4 => "Serial number"
  | 0x1A00, _ => "TxPDO mapping"
  | 0x1C00, _ => "SM types"
  | 0x1C12, _ => "RxPDO assign"
  | 0x1C13, 1 => "TxPDO assign"
  | 0x1C33, 1 => "SM3 sync type"
  | 0x2000, 1 => "GRADE"
  | 0x2000, 2 => "STEPPING"
  | 0x2000, 3 => "FW_VERSION"
  | 0x2000, 4 => "LIB_VERSION"
  | 0x2000, 5 => "CHART_GENERATION"
  | 0x2001, _ => "SEATING_CHART"
  | 0x2002, 1 => "DEVICE_INDEX"
  | 0x2002, 2 => "GROUP_ID"
  | 0x2003, 1 => "STATE"
  | 0x2003, 2 => "HEARTBEAT"
  | 0x2010, _ => "LOGIN"
  | 0x2011, _ => "LEVEL"
  | 0x2012, _ => "LOGOUT"
  | 0x2013, _ => "WRONG_KEYS"
  | 0x2014, _ => "LOCK_REMAINING"
  | 0x2100, 1 => "SESSIONS_OPEN"
  | 0x2100, 2 => "LIVE_STREAMS"
  | 0x2100, 3 => "JOBS_DROPPED"
  | 0x2100, 4 => "PARTITIONS"
  | 0x2100, 5 => "MAX_LOAD"
  | 0x2110, 1 => "DIES"
  | 0x2110, 2 => "STATE"
  | 0x2110, 3 => "LOAD"
  | 0x2110, 4 => "LIVE_DEMAND"
  | 0x2110, 5 => "SESSIONS"
  | 0x2130, 1 => "TEST_DIES"
  | 0x2130, 2 => "TEST_ACTION"
  | 0x3000, 1 => "SESSION"
  | 0x3000, 2 => "KIND"
  | 0x3000, 3 => "HOMEROOM"
  | 0x3000, 4 => "PERIOD"
  | 0x3000, 5 => "DEADLINE"
  | 0x3000, 6 => "Q"
  | 0x3000, 7 => "EMISSION"
  | 0x3000, 8 => "STATE"
  | 0x3001, 1 => "PICTURES"
  | 0x3001, 2 => "DROPPED"
  | 0x3001, 3 => "LOST"
  | 0x3001, 4 => "CRC_ERR"
  | 0x3001, 5 => "UNKNOWN"
  | 0x3001, 6 => "LATE"
  | 0x3001, 7 => "DUPLICATE"
  | 0x3001, 8 => "DAMAGED"
  | 0x3001, 9 => "FORCED_NOREF"
  | 0x3001, 10 => "REEDITIONS"
  | 0x3001, 11 => "CAPPED_TILES"
  | 0x3001, 12 => "SATURATION"
  | 0x3002, 1 => "FIRST_SLICE_US"
  | 0x3002, 2 => "PICTURE_US"
  | 0x3002, 3 => "WORST_FIRST_US"
  | 0x3002, 4 => "LAST_SEQ"
  | 0x3003, 1 => "REFRESH"
  | 0x3003, 2 => "NEXT_Q"
  | 0x3003, 3 => "NEXT_CAP_PIC"
  | 0x3003, 4 => "NEXT_CAP_PER"
  | 0x3003, 5 => "NEXT_REFRESH"
  | 0x3003, 6 => "STOP"
  | 0x4000, 1 => "DRAINED"
  | 0x4000, 2 => "BELOW_GRADE"
  | 0x4000, 3 => "OVERRIDE"
  | 0x4000, 4 => "NEWEST_SLOT"
  | 0x4000, 5 => "CARDS_HELD"
  | 0x4001, _ => "CARD_SLOT"
  | 0x4002, _ => "CARD"
  | 0x4010, _ => "DRAIN_RECORD"
  | 0x4011, _ => "CLEAR_DRAIN_RECORD"
  | 0x4012, _ => "DRAIN_NOW"
  | 0x4020, 1 => "SAMPLE_LOG2"
  | 0x4020, 2 => "SUSPECT_N"
  | 0x4020, 3 => "SUSPECT_WIN"
  | 0x4020, 4 => "WDIG_N"
  | 0x4030, 1 => "MISMATCHES"
  | 0x4030, 2 => "VOTES"
  | 0x4030, 3 => "PROC_STATE"
  | 0x5000, 1 => "POWER"
  | 0x5000, 2 => "EMERGENCY"
  | 0x5000, 3 => "HOTTEST"
  | 0x5000, 4 => "THROTTLED"
  | 0x5010, 1 => "TJ"
  | 0x5010, 2 => "CLK_MIN"
  | 0x5010, 3 => "CLK_MAX"
  | 0x5010, 4 => "VCORE_MIN"
  | 0x5010, 5 => "THROTTLE"
  | 0x6000, 1 => "LIB_STATUS"
  | 0x6000, 2 => "EXAMS_DONE"
  | 0x6000, 3 => "BAND_MISSED"
  | 0x6001, 1 => "EXAM_PERIOD"
  | 0x6001, 2 => "EXAM_WAIT"
  | 0x6001, 3 => "EXAM_PAUSE"
  | 0x6010, _ => "LIB_STAGE"
  | 0x6011, _ => "LIB_STAGED_LEN"
  | 0x6012, 1 => "LIB_INSTALL"
  | 0x6012, 2 => "LIB_FORWARD"
  | 0x6020, 1 => "EXAM_STATE"
  | 0x6020, 2 => "RECESS_SLOT"
  | _, _ => ""

/-- The CoE type of an object of some length (R492). -/
def coeType (base sub len : Nat) : CoeType :=
  match base, sub with
  | 0x1008, _ | 0x1009, _ | 0x100A, _ => .visibleString
  | 0x2010, _ => .octetString
  | 0x2001, _ | 0x4002, _ | 0x4010, _ | 0x6010, _ => .domain
  | 0x4000, 1 | 0x4000, 2 | 0x4000, 3 | 0x5000, 2 | 0x5010, 5 | 0x6001, 3 | 0x6012, 2 => .boolean
  | 0x5000, 3 | 0x5010, 1 => .integer16
  | _, _ => match len with | 1 => .unsigned8 | 2 => .unsigned16 | 8 => .unsigned64 | _ => .unsigned32

end Sys2Proof.Machine
end

