-- ==== Sys2Proof/Machine/Semaphores.lean ====
section
/-!
DEFINITION. Semaphores (R217 to R222, R271, R291): posts arriving, waits satisfied, wait limits, and the semaphore registers.
-/

namespace Sys2Proof.Machine

/-- OWNED of a semaphore, and its owning session (R291). -/
def State.semOwned (s : State) (d i : Nat) : Bool := bitN (s.rd (semCfgKey d i)).toNat 12
def State.semOwner (s : State) (d i : Nat) : Nat := getF (s.rd (semCfgKey d i)) 11 0

/-- An error of a semaphore in SEM_ERR (R291). -/
def State.semErr (s : State) (d i : Nat) (f : Fld) : State := (s.raise (key d 0) f).sf (key d 0) F.semErrSem i

/-- A post applied (R217, R221, R291): discarded on a semaphore that nobody owns; one that would pass 0xFFFF_FFFF leaves the value
there and ends the session, with the DETAIL of the instruction that made it (R338). A count of 0 does nothing. -/
def State.semAdd (s : State) (d i n : Nat) (detail : Nat := 0) : State :=
  if n = 0 then s
  else
    let s := s.bump (key d 0) F.semPosts 1
    if !s.semOwned d i then s.semErr d i F.semErrUnownedPost
    else if 2 ^ 32 ≤ s.sem d i + n then
      ((s.setSem d i (2 ^ 32 - 1)).semErr d i F.semErrSemOverflow).endSession (s.semOwner d i) St.exeSemOverflow detail
    else s.setSem d i (s.sem d i + n)

/-- The cluster of an engine that makes posts, by its source number. -/
def engineAt (src : Nat) : Option ClusterId := clusterOfNo src

/-- The cluster of a fetch queue that makes posts, by its source number. -/
def fetchAt (src : Nat) : Option ClusterId := if 4000 ≤ src ∧ src < 300000 then clusterOfNo ((src - 4000) / 64) else none

/-- A post arrives at its semaphore. Posts of one maker to one semaphore arrive in the order they were made (R218), so only the first
of them can be the next; an engine whose post overflows shows SEM_OVERFLOW and the instruction that made it (R221, R229). -/
def State.postArrive (s : State) (i : Nat) : State :=
  match s.posts[i]? with
  | none => s
  | some p =>
    if (s.posts.take i).any (fun q => q.src == p.src && q.die == p.die && q.sem == p.sem) then s
    else
      let s := { s with posts := s.posts.eraseIdx i }
      let overflow := s.semOwned p.die p.sem && decide (2 ^ 32 ≤ s.sem p.die p.sem + p.count)
      let s := match engineAt p.src with
        | some c => if overflow then s.exeErr c F.exeErrSemOverflow p.index p.opcode else s
        | none => s
      s.semAdd p.die p.sem p.count (match (engineAt p.src).orElse (fun _ => fetchAt p.src) with | some c => s.exeDetail c p.index | none => 0)

def execSemPostArrive (i : Nat) (s : State) : Result := onPackage s (fun s => s.postArrive i)

/-- A write to a semaphore's post port (R291). -/
def execSemPost (d : Die) (sem : SemNo) (v : W32) (s : State) : Result :=
  onDie d s (fun s => s.semAdd d sem v.toNat)

/-- A write to a semaphore's value: only while no cluster of the owning session is RUNNING or WAITING (R291). -/
def State.semWrite (s : State) (d i : Nat) (v : W32) : State :=
  let n := s.semOwner d i
  let runs := (s.clustersOfSession n).any (fun c => s.rf c.base F.exeSession == n
    && (s.exe c == Ex.running || s.exe c == Ex.waiting))
  if s.semOwned d i && runs then s.semErr d i F.semErrSemWriteWhileBusy else s.setSem d i v.toNat

def execSemValWrite (d : Die) (sem : SemNo) (v : W32) (s : State) : Result :=
  onDie d s (fun s => s.semWrite d sem v)

/-! ### Waits -/

/-- An engine that WAITS goes on once its wait can take its count (R217, R224). -/
def State.engineWait (s : State) (c : ClusterId) : State :=
  if s.exe c = Ex.waiting then
    match s.nextWait c with
    | none => s.setExe c Ex.running
    | some w =>
      match s.passWait c w with
      | none => s
      | some s => s.setExe c Ex.running
  else s

/-- A channel's wait for its next record, or for room for its result, takes its count (R101). -/
def State.channelWait (s : State) (ch : ChannelId) : State :=
  let x := s.chan ch
  if !s.bit ch.unitBase F.entCtrlEnable || !s.bit ch.base F.entChCtrlEnable then s
  else if x.result.isSome then
    if x.freed then s
    else match s.take ch.die (s.rf ch.base F.entChSemResFree) 1 with
      | some s => s.setChan ch { x with freed := true }
      | none => s
  else if x.fed then s
  else match s.take ch.die (s.rf ch.base F.entChSemFeedReady) 1 with
    | some s => s.setChan ch { x with fed := true }
    | none => s

def Waiter.home : Waiter → Die
  | .engine c => c.die
  | .fetch c _ => c.die
  | .channel ch => ch.die

/-- A blocked wait finds the value at least its count, subtracts it and lets its waiter proceed (R217). -/
def execSemWaitSatisfied (w : Waiter) (s : State) : Result :=
  onDie (Waiter.home w) s (fun s =>
    match w with
    | .engine c => s.engineWait c
    | .fetch c q => if s.fqState c q = Fq.creditWait then s.rowStart c q else s
    | .channel ch => s.channelWait ch)

/-- The EFEED or ERES at the front of the finish pipe that waits on FREE_SEM for its next record, with the value below 1 (R223). -/
def State.feedBlocked (s : State) (c : ClusterId) : Option InFlight :=
  match (s.cl c).finPipe with
  | f :: _ =>
    let w := f.word.toNat
    if iClass w = 6 ∧ f.done < iCount w ∧ s.sem c.die (parseFeed (s.bytes (c.store + iRec w) 64)).free = 0 then some f else none
  | [] => none

/-- A wait of an engine that stays blocked longer than EXE_WAIT_LIMIT (R221, R229): with the value below its count it ends the session. It may be the
wait of its next instruction, or that of an EFEED or ERES in the finish pipe for a free slot. -/
def State.engineTimeout (s : State) (c : ClusterId) : State :=
  let own := if s.exe c = Ex.waiting then s.nextWait c else none
  match own.filter (fun w => decide (s.sem c.die w.2.1 < w.2.2)), (if s.engineBusy c && s.exe c != Ex.paused then s.feedBlocked c else none) with
  | some _, _ => s.exeFail c F.exeErrWaitTimeout St.exeWaitTimeout (s.cl c).issue (iOp (s.listWord c (s.cl c).issue))
  | none, some f => s.exeFail c F.exeErrWaitTimeout St.exeWaitTimeout f.index (iOp f.word.toNat)
  | none, none => s

/-- A wait on FREE_SEM that exceeds the limit has the same outcome, and shows in FET_ERR (R271). -/
def State.fetchTimeout (s : State) (c : ClusterId) (q : Nat) : State :=
  let d := parseDesc (s.fq c q).desc
  if s.fqState c q = Fq.creditWait ∧ s.sem c.die d.freeSem < d.lines then
    ((s.fetErr c q F.fetErrWaitTimeout).raise c.base F.exeErrWaitTimeout).endSession (s.fqSession c q) St.exeWaitTimeout (s.exeDetail c 0)
  else s

/-- A wait stays blocked past the session's wait limit. A channel's wait has none (notes/assumptions/25.md). -/
def execWaitTimeout (w : Waiter) (s : State) : Result :=
  onDie (Waiter.home w) s (fun s =>
    match w with
    | .engine c => s.engineTimeout c
    | .fetch c q => s.fetchTimeout c q
    | .channel _ => s)

end Sys2Proof.Machine
end

