-- ==== Sys2Proof/Machine/Keys.lean ====
section
/-!
DEFINITION. Verification keys (R533, R535) and what they verify; the place of things in the board's flash (R478).
-/

namespace Sys2Proof.Machine

/-! ### Key slots: set 0 firmware, set 1 exam -/

/-- Key slots of a set revoked on this part since it was shipped, as fuses blown. -/
def State.blown (s : State) (set : Fin 2) : BitVec 4 := if set = 0 then s.sec.revokedFw else s.sec.revokedExam

def slotProgrammed (set : Fin 2) (k : Fin 4) : Bool := (Config.keySlot set k).isSome
def State.slotRevoked (s : State) (set : Fin 2) (k : Fin 4) : Bool := Config.keyRevoked set k || (s.blown set).getLsbD k.val

/-- The active slot of a set: the lowest programmed one whose revoke fuse is intact (R533). -/
def State.activeSlot (s : State) (set : Fin 2) : Option (Fin 4) :=
  (List.finRange 4).find? (fun k => slotProgrammed set k && !s.slotRevoked set k)

/-- The bytes of a slot's public key; empty when it is not programmed. -/
def slotKey (set : Fin 2) (k : Fin 4) : List Byte := match Config.keySlot set k with | some v => v.toList | none => []

/-- The bytes of a signature (R529). -/
def sigBytes : Nat := 29792

/-- Does a signed text, whose signature is its last bytes, verify under a slot's key? -/
def signedBy (set : Fin 2) (k : Fin 4) (b : List Byte) : Bool :=
  Config.slhVerify (slotKey set k) (b.take (b.length - sigBytes)) (b.drop (b.length - sigBytes))

/-- Does a signed text verify under the active key of a set (R533)? -/
def State.verifies (s : State) (set : Fin 2) (b : List Byte) : Bool :=
  match s.activeSlot set with
  | some k => signedBy set k b
  | none => false

/-! ### Flash (R478) -/

/-- The bank-select record, the drain record and the card archive. -/
def selectBase : Nat := 0x380_0000
def drainBase : Nat := 0x381_0000
def archiveBase : Nat := 0x382_0000
def archiveCards : Nat := 63488

/-- A range of the flash erased: its bytes read 0xFF again. -/
def State.flashErase (s : State) (a n : Nat) : State :=
  { s with flash := s.flash.filter (fun e => !(decide (a ≤ e.1) && decide (e.1 < a + n))) }

/-- A record written into a sector of its own. -/
def State.flashRecord (s : State) (a : Nat) (b : List Byte) : State := (s.flashErase a 0x1_0000).flashPokes a b

/-- The active bank of the bank-select record, if it names one: byte 0, with LIB_VERSION in bytes 4 to 7 (notes/assumptions/29.md). -/
def State.selectedBank (s : State) : Option Nat :=
  let b := (s.flashByte selectBase).toNat
  if b ≤ 1 then some b else none

/-- The bank-select record rewritten. -/
def State.selectBank (s : State) (bank version : Nat) : State :=
  s.flashRecord selectBase (natLe 4 bank ++ natLe 4 version)

/-- Does the flash hold a drain record (R464)? Its first bytes are a report card, whose KIND is never 0xFF. -/
def State.hasDrainRecord (s : State) : Bool := s.flashByte (drainBase + 30) != 0xFF

/-- The clusters that the drain record lists, as PUNIT (R465). -/
def State.drainPunits (s : State) : List Nat :=
  ((List.range 16).map (fun k => leNat (s.flashBytes (drainBase + 64 + 2 * k) 2))).filter (fun p => p != 0xFFFF)

end Sys2Proof.Machine
end

