-- ==== Sys2Proof/Machine/Scheduler.lean ====
section
/-!
DEFINITION. The scheduler cores: which job a session may start now (R330), what the start of a job reads and checks (R46, R112, R286,
R320), what it writes to its clusters (R222, R224, R226, R265), the halt of a cluster (R229) and the load of a partition (R349).
-/

namespace Sys2Proof.Machine

/-! ### Order of dispatch (R330) -/

/-- The clusters that a session's lists run on, free for a new job: no list in work and not in recess (R476). -/
def State.clustersFree (s : State) (n : Nat) : Bool :=
  (s.clustersOfSession n).all (fun c => !s.engineBusy c && !(s.die c.die).recess.mem (c.region * 17 + c.slot))

/-- Do the lists of two sessions share a cluster? -/
def State.overlap (s : State) (n m : Nat) : Bool := (s.clustersOfSession n).any (fun c => (s.clustersOfSession m).contains c)

/-- Does a job of the session run, and has it not yielded its clusters? -/
def State.holdsClusters (s : State) (n : Nat) : Bool := (s.runningJob n).isSome && (s.ses n).yields.isEmpty

/-- A session is ready to start its next job: it is open, no job of it runs and none of a session that shares clusters with it holds them,
and its clusters are free. -/
def State.ready (s : State) (n : Nat) : Bool :=
  let ses := s.ses n
  ses.kind != .none && ses.state == .open_ && !ses.jobs.isEmpty && (s.runningJob n).isNone
    && s.clustersFree n && s.sessions.all (fun e => e.1 == n || !s.overlap n e.1 || !s.holdsClusters e.1)

/-- The job of a session that has yielded its clusters may go on: they are free again (R330). -/
def State.resumable (s : State) (n : Nat) : Bool :=
  let ses := s.ses n
  ses.kind != .none && !ses.yields.isEmpty && ses.state != .paused && s.clustersFree n
    && s.sessions.all (fun e => e.1 == n || !s.overlap n e.1 || !s.holdsClusters e.1)

/-- The time until a bell, in 10 ns: the periods to it, less what has passed since the latest bell; a bell of BELL_HOST is taken to keep the
period. -/
def State.timeTo (s : State) (ses : Session) (due bell : Nat) : Nat :=
  (due - bell) * ses.period * 100 - ((s.stamp ses.homeroom) - ses.bellStamp).toNat

/-- Where a session's next job stands in the order: live jobs by the time to the bell at which they are due, then the others by queue
priority, highest first, and by submission. -/
def State.rank (s : State) (n : Nat) : List Nat :=
  let ses := s.ses n
  match ses.jobs.head? with
  | none => [2]
  | some j =>
    match ses.live, j.due, ses.bell with
    | true, some due, some bell => [0, s.timeTo ses due bell, j.order]
    | true, _, _ => [0, 0, j.order]
    | _, _, _ => [1, 7 - (s.que j.queue).priority, j.order]

/-- The order of ranks, first difference first. -/
def rankBefore : List Nat → List Nat → Bool
  | a :: as, b :: bs => decide (a < b) || (a == b && rankBefore as bs)
  | _, _ => false

/-- No other session that is ready or may go on and shares clusters comes first. -/
def State.comesFirst (s : State) (n : Nat) : Bool :=
  s.sessions.all (fun e => e.1 == n || !(s.ready e.1 || s.resumable e.1) || !s.overlap n e.1 || !rankBefore (s.rank e.1) (s.rank n))

/-! ### What a job reads -/

/-- The rows of a plane: `rows` rows of `len` bytes at a pitch, and whether one of their lines is poisoned. -/
def State.readRows (s : State) (n : Nat) (b : Buffer) (len rows format : Nat) : List Byte × Bool × State :=
  (List.range rows).foldl (fun acc r =>
    let x := acc.2.2.virtRead (s.ses n).homeroom n (b.addr + r * b.pitch) len
    (acc.1 ++ maskRow format x.1, acc.2.1 || x.2.1, x.2.2)) ([], false, s)

/-- The input bytes of a picture or frame as R320 has them: the rows of each plane in order, ignored bits as 0. -/
def State.readPicture (s : State) (n : Nat) (p : StreamParams) (bs : List Buffer) : List Byte × Bool × State :=
  (bs.zip (planesOf p)).foldl (fun acc x =>
    let r := acc.2.2.readRows n x.1 (x.2.1 * sampleBytes p.format) x.2.2 p.format
    (acc.1 ++ r.1, acc.2.1 || r.2.1, r.2.2)) ([], false, s)

/-- A range cut at the boundaries of lines. -/
def linePieces : Nat → Nat → Nat → List (Nat × Nat)
  | 0, _, _ => []
  | fuel + 1, va, n =>
    if n = 0 then []
    else
      let k := min n (64 - va % 64)
      (va, k) :: linePieces fuel (va + k) (n - k)

/-- The stream bytes of a submission up to its first poisoned line, and whether there is one (R286). -/
def State.readStream (s : State) (n : Nat) (bs : List Buffer) : List Byte × Bool × State :=
  (bs.flatMap (fun b => linePieces (b.len / 64 + 2) b.addr b.len)).foldl (fun acc p =>
    if acc.2.1 then acc
    else
      let x := acc.2.2.virtRead (s.ses n).homeroom n p.1 p.2
      (if x.2.1 then acc.1 else acc.1 ++ x.1, x.2.1, x.2.2)) ([], false, s)

/-- The job with its input, and the decoder's stream bytes put behind those it holds. -/
def State.readJob (s : State) (n : Nat) (j : Job) : State × Job :=
  let ses := s.ses n
  match ses.kind with
  | .encode =>
    let r := s.readPicture n ses.enc.params j.ins
    (r.2.2, { j with input := r.1, tainted := r.2.1 })
  | .decode =>
    let r := s.readStream n j.ins
    let x := r.2.2.ses n
    (r.2.2.setSes n { x with dec := { x.dec with inbuf := x.dec.inbuf ++ r.1, cut := r.2.1, finals := 0 } }, j)
  | _ =>
    let r := s.jobInput n j
    (r.2.2, { j with input := r.1, tainted := r.2.1 })

/-! ### What a job's start writes -/

/-- The wait limit of a session in µs (R222). -/
def waitLimit (ses : Session) : Nat := if ses.live then max 100_000 (ses.period * (ses.deadline + 1)) else 100_000

/-- EXE_LIST_SEM of a list: STREAMED with the semaphores of its refill descriptor (R224). -/
def State.listSems (s : State) (c : ClusterId) (img : Image) (l : ListPlace) : State :=
  match img.descs.find? (fun d => l.streamed && d.1 == l.lclus && isRefill l.line l.sizeLog2 d.2) with
  | some d =>
    let x := parseDesc d.2
    ((s.sf c.base F.exeListSemReady x.readySem).sf c.base F.exeListSemFree x.freeSem).sf c.base F.exeListSemStreamed 1
  | none => ((s.sf c.base F.exeListSemReady 0).sf c.base F.exeListSemFree 0).sf c.base F.exeListSemStreamed 0

/-- The descriptors that an image arms on a cluster at the start of each job (R226); a queue that is still busy ignores the arm (R266). -/
def State.armImage (s : State) (n : Nat) (c : ClusterId) (lclus : BitVec 16) : State :=
  ((s.ses n).image.descs.filter (fun d => d.1 == lclus)).foldl (fun s d =>
    let q := (parseDesc d.2).queue % 64
    (if s.fqBusy c q then s else s.setFq c q { s.fq c q with desc := d.2, armer := none }).armQueue c q n) s

/-- What the scheduler core writes to a cluster before a list runs on it: the ring and its semaphores, the length, the wait limit and the
order of a session, PAUSE_REQ when a PAUSE waits (R310), and a resident list in its ring (R222, R224, R226). -/
def State.placeList (s : State) (n : Nat) (c : ClusterId) (l : ListPlace) : State :=
  let img := (s.ses n).image
  let s := s.takeCluster n c l.lclus
  let s := (s.sf c.base F.exeListBase (64 * l.line)).sf c.base F.exeListSize (2 ^ l.sizeLog2)
  let s := ((s.listSems c img l).sf c.base F.exeListLen l.len).sf c.base F.exeWaitLimit (waitLimit (s.ses n))
  let s := (s.flag c.base F.exeCtrlOrdered (s.ses n).ordered).flag c.base F.exeCtrlPauseReq (s.ses n).pauseTo.isSome
  if l.streamed then s else s.store (c.store + 64 * l.line) l.words false

/-- One list started: its registers and ring, its descriptors armed, and the engine at index 0 (R203). -/
def State.startJobList (s : State) (n : Nat) (l : ListPlace) : State :=
  match s.physOf l.lclus.toNat with
  | none => s
  | some c => ((s.placeList n c l).startList c).armImage n c l.lclus

/-- The job of a session starts. -/
def State.startJob (s : State) (n : Nat) (j : Job) : State :=
  let ses := s.ses n
  let s := s.setSes n { ses with histAtJob := ses.hist, jobs := { j with phase := .running } :: ses.jobs.drop 1 }
  let s := if ses.kind = .encode then s.beginPicture n j.input else s
  let s := (s.ses n).image.lists.foldl (fun s l => if (s.ses n).kind = .none then s else s.startJobList n l) s
  if ses.image.lists.isEmpty then s.finishJob n else if ses.kind = .decode then s.decodeIdle n else s

/-- The discarded work of an encoder's picture starts again, without references (R71): its engines and queues stop, its open segments are aborted
(R104), its semaphores return to INIT (R275), the step counters and the scale history to what they were as the job started, and its lists start
from index 0. -/
def State.restartWork (s : State) (n : Nat) : State :=
  let s := (s.clustersOfSession n).foldl (fun s c =>
    if s.rf c.base F.exeSession = n then (s.quitCluster c).setStepCopy c (s.cl c).jobStep else s) s
  let s := ((s.channelsOfSession n).foldl State.chAbort s).initSems n
  let ses := (s.ses n).dropHist
  let cur := ses.enc.current.map (fun p => { p with restart := false, side := [], recode := none })
  let s := s.setSes n { ses with enc := { ses.enc with current := cur }, yields := [], yielding := false }
  ses.image.lists.foldl (fun s l => if (s.ses n).kind = .none then s else s.startJobList n l) s

/-- Is the work of a session's open picture to start again (R71)? -/
def State.mustRestart (s : State) (n : Nat) : Bool :=
  (match (s.ses n).enc.current with | some p => p.restart | none => false) && (s.runningJob n).isSome && (s.ses n).state == .open_

/-- May it start again now: nobody else holds its clusters? -/
def State.mayRestart (s : State) (n : Nat) : Bool :=
  s.mustRestart n && !s.heldByOthers n && s.sessions.all (fun e => e.1 == n || !s.overlap n e.1 || !s.holdsClusters e.1)

/-- The next job of a session is taken up: a withdrawn one is dropped with REASON 3 (R303, R354), one whose layout R46 refuses is
answered and is no job of the sequence, any other reads its input and starts. -/
def State.dispatchJob (s : State) (n : Nat) : State :=
  let ses := s.ses n
  match ses.jobs with
  | [] => s
  | j :: _ =>
    if badLayout ses j then s.refuseLayout n j
    else if j.withdrawn then (s.dropRunning n j 3).afterJob n
    else
      let r := s.readJob n j
      r.1.startJob n r.2

/-! ### Jobs that yield their clusters to a live one (R330) -/

/-- The sessions whose running jobs hold clusters of a session. -/
def State.holders (s : State) (n : Nat) : List Nat :=
  (s.sessions.map (·.1)).filter (fun m => m != n && s.overlap n m && s.holdsClusters m)

/-- A live job is ready but for clusters that jobs which are not live hold. -/
def State.claims (s : State) (n : Nat) : Bool :=
  let ses := s.ses n
  ses.kind != .none && ses.live && ses.state == .open_ && !ses.jobs.isEmpty && (s.runningJob n).isNone
    && (s.clustersOfSession n).all (fun c => !(s.die c.die).recess.mem (c.region * 17 + c.slot))
    && !(s.holders n).isEmpty && (s.holders n).all (fun m => !(s.ses m).live)

/-- One cluster of a job that yields: its engine is IDLE, its fetch queues are idle, and the session keeps what they held. -/
def State.yieldCluster (s : State) (m : Nat) (l : BitVec 16) : State :=
  match s.physOf l.toNat with
  | none => s
  | some c =>
    let mine := (List.range 64).filter (fun q => s.fqBusy c q && s.rf (c.fetchBase q) F.fetQCtrlSession == m)
    let y : Yielded := { lclus := l, cluster := s.cl c, ended := s.exe c == Ex.ended
                         store := s.bytesIn c.store storeSize, poison := s.poisonIn c.store storeSize
                         fetch := mine.map (fun q => (q, { s.fq c q with inflight := [] }, s.regsIn (c.fetchBase q) 0x10)) }
    let s := mine.foldl (fun s q => s.abortQueue c q) s
    let s := (s.setCl c { s.cl c with unitPipe := [], finPipe := [], waitDone := false, owed := [], tables := [], blocks := [] }).setExe c Ex.idle
    s.setSes m { s.ses m with yields := (s.ses m).yields ++ [y] }

/-- A job is asked to yield: its engines stop at their next pause point; once they stand there, its queues at a delivery row and its checks
done (R310), it yields its clusters. A job whose lists have all ended only waits to be posted. -/
def State.yieldJob (s : State) (m : Nat) : State :=
  let s := (s.clustersOfSession m).foldl (fun s c =>
    if s.rf c.base F.exeSession = m ∧ (s.exe c = Ex.running ∨ s.exe c = Ex.waiting) then s.sf c.base F.exeCtrlPauseReq 1 else s) s
  let s := s.setSes m { s.ses m with yielding := true }
  if !s.enginesStill m || s.listsEnded m then s
  else
    let s := s.pauseQueues m
    let editing := match (s.ses m).enc.current with | some p => p.recode.isSome | none => false
    if s.queuesStill m && s.checksDone m && !editing then (s.ses m).image.lists.foldl (fun s l => s.yieldCluster m l.lclus) (s.pauseOff m)
    else s

/-- Engines that stand at a pause point for nobody any more run again, and parked queues go on from their cursors. -/
def State.goOn (s : State) (n : Nat) : State :=
  let s := (s.pauseOff n).setSes n { s.ses n with yielding := false }
  (s.clustersOfSession n).foldl (fun s c =>
    if s.rf c.base F.exeSession ≠ n then s
    else
      let s := if s.exe c = Ex.paused then s.setExe c Ex.running else s
      (List.range 64).foldl (fun s q =>
        if s.fqState c q = Fq.parkedPause ∧ s.rf (c.fetchBase q) F.fetQCtrlSession = n then
          s.sf (c.fetchBase q) F.fetQStatusState Fq.active
        else if s.rf (c.fetchBase q) F.fetQCtrlSession = n then s.setFq c q { s.fq c q with pausing := false }
        else s) s) s

/-- One cluster of a job that goes on: the list's registers, the store as it was, the engine at its pause point and the queues parked at their cursors. -/
def State.takeBack (s : State) (n : Nat) (y : Yielded) : State :=
  match s.physOf y.lclus.toNat, (s.ses n).image.lists.find? (fun l => l.lclus == y.lclus) with
  | some c, some l =>
    let s := (s.placeList n c l).putBytes c.store storeSize y.store y.poison
    let s := (s.putCluster n c y.cluster).setExe c (if y.ended then Ex.ended else Ex.paused)
    y.fetch.foldl (fun s f =>
      let s := (s.setFq c f.1 { f.2.1 with fault := none, pausing := false }).putRegs (c.fetchBase f.1) 0x10 f.2.2
      let s := s.sf (c.fetchBase f.1) F.fetQCtrlSession n
      if s.fqBusy c f.1 then s.sf (c.fetchBase f.1) F.fetQStatusState Fq.parkedPause else s) (s.setPc c)
  | _, _ => s

/-- A job that has yielded goes on from its pause point, or a PAUSE that waits takes effect there. -/
def State.continueJob (s : State) (n : Nat) : State :=
  let ys := (s.ses n).yields
  let s := ys.foldl (fun s y => s.takeBack n y) (s.setSes n { s.ses n with yields := [], yielding := false })
  if (s.ses n).pauseTo.isSome then s.tryPause n else s.goOn n

/-- Does a live job still claim the clusters of a session? -/
def State.claimed (s : State) (n : Nat) : Bool := s.sessions.any (fun e => s.claims e.1 && (s.holders e.1).contains n)

/-- The turn of a session: it starts a discarded picture's work again (R71), starts its next job, makes others yield to it, or goes on with the job that has yielded (R330). -/
def State.jobTurn (s : State) (n : Nat) : State :=
  if s.mayRestart n then s.restartWork n
  else if s.ready n && s.comesFirst n then s.dispatchJob n
  else if s.claims n then
    let s := (s.holders n).foldl State.yieldJob s
    if s.ready n && s.comesFirst n then s.dispatchJob n else s
  else if s.resumable n && s.comesFirst n then s.continueJob n
  else if (s.ses n).yielding && (s.ses n).yields.isEmpty && (s.ses n).state == .open_ && (s.ses n).pauseTo.isNone && !s.claimed n then s.goOn n
  else s

/-- JOB_DISPATCH: while the homeroom's scheduler core runs, a session takes its turn. -/
def execJobDispatch (n : SessionNo) (s : State) : Result :=
  onPackage s (fun s => if s.procRuns (s.ses n).homeroom scheduler then s.jobTurn n else s)

/-- HALT: the engine stops and its cluster's queues are aborted (R288); the job that ran on it is not completed: it is dropped as a withdrawn one is (R229, R302, R303). -/
def State.haltAndDrop (s : State) (c : ClusterId) : State :=
  let n := s.rf c.base F.exeSession
  let busy := s.engineBusy c
  let s := s.haltCluster c
  match busy, s.runningJob n with
  | true, some j => (s.dropRunning n j 3).afterJob n
  | _, _ => s

def execHalt (c : ClusterId) (s : State) : Result := onDie c.die s (fun s => s.haltAndDrop c)

/-! ### Load (R349) -/

/-- LOAD_UPDATE: the greater of two fractions over the last 100 ms, in 0.1 %: cluster cycles in RUNNING or WAITING over active-cluster
cycles, and GDDR7 bytes over the maximum of the trained devices, which a partition without such devices leaves out. -/
def execLoadUpdate (d : Die) (busy active gddrUsed gddrMax : Nat) (s : State) : Result :=
  onPackage s (fun s =>
    let a := if active = 0 then 0 else 1000 * busy / active
    let b := if gddrMax = 0 then 0 else 1000 * gddrUsed / gddrMax
    s.modPart d (fun p => { p with load := max a b }))

end Sys2Proof.Machine
end

