-- ==== Sys2Proof/Machine/Health.lean ====
section
/-!
DEFINITION. The health block: sampled duplicates and the vote (R446 to R455), drain requests and records (R463 to R465), the card archive
(R460), weight digests (R466, R467), exams (R474 to R477) and the exam library (R479 to R481).
-/

namespace Sys2Proof.Machine

/-! ### Who checks (R447) -/

/-- The physical clusters that may check or replay a tile-step, in order: its logical cluster in each usable region other than its own,
from the region that the draw of R446 gives on. -/
def State.checkers (s : State) (c : ClusterId) (t : Tile) : List ClusterId :=
  let skey := BitVec.ofNat 64 (s.rf die12 F.hltSkeyLo + s.rf die12 F.hltSkeyHi * 2 ^ 32)
  let l := s.lclusOfCluster c
  let y := perm { x0 := BitVec.ofNat 32 (l + t.number % 65536 * 65536), x1 := t.step.setWidth 32, x2 := (t.step >>> 32).setWidth 32,
                  x3 := BitVec.ofNat 32 t.session } skey
  let regions := (List.range 7).map (fun k => (c.region.val + 1 + (y.x1.toNat + k) % 7) % 8)
  (regions.filter (s.regionOk c.die)).filterMap (fun r => s.physOf (lclusOf c.die r (fieldN l 11 8)))

/-- Can a cluster replay: one FLAGGED by a drain cannot (R482). -/
def State.replayer (s : State) (c : Option ClusterId) (r : Replay) : Replay :=
  match c with
  | none => .none
  | some c => if s.slotState c.die c.region c.slot = 5 then .none else r

/-! ### Report cards against clusters -/

/-- A report card against a cluster with what R71 asks of the encode streams it worked for, and whether it is suspect now. -/
def State.blame (s : State) (i : CardInfo) (c : ClusterId) : State × Bool :=
  let r := s.fileCard { i with die := c.die, cluster := some c, noref := s.norefApplies c }
  (r.1.norefOf c, r.2)

/-- A card that drains the package when it makes its cluster suspect (R461, R463). -/
def State.blameDrain (s : State) (i : CardInfo) (c : ClusterId) : State :=
  let r := s.blame i c
  if r.2 then r.1.startDrain (r.1.newestCard c.die) [c] (fun n => r.1.usesCluster n c) else r.1

/-! ### Duplicates -/

/-- The tile-steps of a cluster's replay window, newest first. -/
def State.windowTile (s : State) (c : ClusterId) (t : Nat) : Option Tile := (s.cl c).window[t]?

/-- A tile-step of the replay window changed. -/
def State.setTile (s : State) (c : ClusterId) (t : Nat) (x : Tile) : State := s.setCl c { s.cl c with window := (s.cl c).window.set t x }

/-- DUPLICATE_COMPARE: the checking cluster of a sampled tile-step has run it; equal digests settle it, different ones wait for the vote
(R448, R449, R455). -/
def State.compareTile (s : State) (c : ClusterId) (t : Nat) (checker : W64) : State :=
  match s.windowTile c t with
  | none => s
  | some x =>
    if !x.sampled || x.compared || x.checker.isSome || (s.checkers c x).isEmpty then s
    else
      let b := key c.die 0
      let now := s.capture c x.session
      let s := (s.bump b F.hltChecks 1).event c.die healthCore 3
      if checker = x.digest then (s.setTile c t { x with compared := true }).finishJob x.session
      else
        ((s.bump b F.hltMismatch 1).event c.die healthCore 1).setTile c t
          { x with checker := some checker, moment := some (x.moment.getD now) }

def execDuplicateCompare (c : ClusterId) (t : Fin 2) (checker : W64) (s : State) : Result :=
  onDie c.die s (fun s => s.compareTile c t checker)

/-! ### The vote (R455) -/

/-- What the table decides, in the codes of VOTE (R459): o the original's digest, and the checker's where there was a duplicate. -/
def decideVote (trapped : Bool) (o : W64) (checker : Option W64) (a b : Replay) : Nat :=
  match a, b with
  | .digest x, .digest y =>
    if x ≠ y then 6
    else if trapped then 5
    else match checker with
      | none => 5
      | some c => if x = o then (if x = c then 4 else 2) else if x = c then 1 else 3
  | _, _ => 6

/-- The card kind of an event that a replay resolves (R458). -/
def trapCard : Trap → Nat
  | .accOverflow => Card.accOverflow
  | .divZero => Card.divZero
  | .parity .fetch => Card.parityFetch
  | .parity .unit => Card.parityUnit
  | .parity .finish => Card.parityFinish
  | .parity .instr => Card.parityInstr

/-- The status with which a session ends whose tile-step traps on every cluster (R143, R144); a parity error is none of these. -/
def trapStatus : Trap → Option Nat
  | .accOverflow => some St.exeAccOverflow
  | .divZero => some St.exeDivZero
  | .parity _ => none

/-- The codes of a picture that a replaced result may have changed are coded again, from the lowest slice whose codes the tile-step affected;
a slice that has not left is coded with them (R119, R451). Under checked emission no slice has left before its checks (R123). -/
def State.recode (s : State) (n : Nat) (c : ClusterId) (x : Tile) : State :=
  let ses := s.ses n
  let first := Config.sliceOf (sliceB ses.image.digest 0 32) (s.lclusOfCluster c) x.start
  match ses.enc.current with
  | some p =>
    if x.dropped ∨ p.slices.length ≤ first ∨ ses.enc.params.emission then s
    else s.setEnc n { ses.enc with current := some { p with recode := some (match p.recode with | some k => min k first | none => first) } }
  | none => s

/-- The statistics of the open picture taken again from its codes as they are now: the history uses final editions only (R69, R120;
notes/assumptions/53.md). -/
def State.retakeStats (s : State) (n : Nat) : State :=
  let ses := s.ses n
  let s := s.setSes n { ses.dropHist with stats := ses.stats }
  ses.stats.foldl (fun s e => match clusterOfNo e.1 with | some c => s.takeStat n c e.2.toNat | none => s) s

/-- An undecided vote: a card against every cluster that took part, each suspect, and a drain that ends the session of the step too
(R455, R461, R463). -/
def State.undecided (s : State) (i : CardInfo) (cs : List ClusterId) (owner : Nat) : State :=
  let r := cs.foldl (fun (a : State × List ClusterId × List Byte) c =>
    let x := a.1.blame i c
    (x.1, if x.2 then a.2.1 ++ [c] else a.2.1, if a.2.2.isEmpty then x.1.newestCard c.die else a.2.2)) (s, [], [])
  let t := cs.foldl (fun s c => s.raise (key c.die 0) F.hltErrUndecided) r.1
  t.startDrain r.2.2 r.2.1 (fun n => n == owner || r.2.1.any (t.usesCluster n))

/-! ### Results replaced (R451) -/

/-- The accumulators of a cluster whose running tile-step has been replayed elsewhere: the manual does not say how those of the replay come to it, so
each that is in use holds a free value (notes/assumptions/88.md). -/
def State.freeAccs (s : State) (c : ClusterId) : State :=
  let x := s.cl c
  let n := s.fresh
  let ints := x.accInt.zipIdx.foldl (fun t e => Sparse.put (fun _ => {}) t e.1.1 { value := (Config.freeValue (n + e.2)).setWidth 48, poison := false }) []
  let m := n + x.accInt.length
  let floats := x.accFloat.zipIdx.foldl (fun t e => Sparse.put (fun _ => {}) t e.1.1 { value := (Config.freeValue (m + e.2)).setWidth 32, poison := false }) []
  { s.setCl c { x with accInt := ints, accFloat := floats } with fresh := m + x.accFloat.length }

/-- Is the running tile-step of a cluster that of a number? -/
def Cluster.runs (x : Cluster) (id : Nat) : Bool := x.tile.begun && x.tile.id == id

/-- The results of a tile-step come from a replay: when it is still running, what its own cluster computes further is not written. -/
def State.replaceTile (s : State) (c : ClusterId) (id : Nat) : State :=
  if (s.cl c).runs id then
    let s := s.freeAccs c
    s.setCl c ((s.cl c).mapTile id (fun t => { t with replaced := true }))
  else s

/-- One round of the search for readers: the tile-steps that read from some of these. -/
def State.readersOf (s : State) (ids : List Nat) : List Nat :=
  ids ++ ((s.clusters.flatMap (fun e => e.2.tiles)).filter (fun t =>
    !t.dropped && !ids.contains t.id && t.sources.any (fun k => ids.contains k))).map (·.id)

/-- The tile-steps that read a replaced result, and those that read theirs in turn, in the order of the original run (R451). -/
def State.readers (s : State) (ids : List Nat) : List Nat :=
  let n := (s.clusters.flatMap (fun e => e.2.tiles)).length
  (((List.range n).foldl (fun a _ => s.readersOf a) ids).filter (fun k => !ids.contains k)).foldr insertNat []

/-- A tile-step that read a replaced result has been replayed with its inputs as they are now: its result is the replay's, and a duplicate of it is
compared anew (notes/assumptions/15.md). -/
def State.replayReader (s : State) (id : Nat) (inputs results : List (Nat × Byte)) : State :=
  s.clusters.foldl (fun s e =>
    match clusterOfNo e.1 with
    | none => s
    | some c =>
      match (s.cl c).tiles.find? (fun t => t.id == id) with
      | some x =>
        let s := s.setCl c ((s.cl c).mapTile id (fun t => { t.patched inputs results with compared := false, checker := none }))
        ((s.replaceTile c id).retakeStats x.session).recode x.session c x
      | none => s) s

/-- Is another tile-step of the same session and step open to a vote (R482)? -/
def State.otherVote (s : State) (x : Tile) : Bool :=
  (s.clusters.flatMap (fun e => e.2.tiles)).any (fun t =>
    t.id != x.id && t.session == x.session && t.step == x.step && (t.trap.isSome || t.checker.isSome))

/-- After the last vote of a step, the tile-steps that read a replaced result are replayed once, in order; for each the bytes that its replay changes
are given (R451, R482). -/
def State.replayReaders (s : State) (x : Tile) (result : List (List (Nat × Byte))) : State :=
  if s.redo.isEmpty || s.otherVote x then s
  else
    let s' := { s with redo := [] }
    (s.readers s.redo).zipIdx.foldl (fun s r =>
      let mine := result.getD (r.2 + 1) []
      (mine.foldl (fun s p => s.poke p.1 p.2) s).replayReader r.1 (result.take (r.2 + 1)).flatten mine) s'

/-- The result of a tile-step replaced by that of an agreed replay; work that has been dropped meanwhile is left alone (R346, R482). -/
def State.replaceResult (s : State) (c : ClusterId) (x : Tile) (bytes : List (Nat × Byte)) : State :=
  if x.dropped then s
  else
    let s := ((bytes.foldl (fun s p => s.poke p.1 p.2) s).replaceTile c x.id)
    ({ s with redo := s.redo ++ [x.id] }).retakeStats x.session

/-- The outcome of a vote on a tile-step whose cards name its instruction; the bytes that the agreed replay changes are given (R451). -/
def State.voteOutcome (s : State) (c : ClusterId) (x : Tile) (v : Nat) (parts : List ClusterId) (bytes : List (Nat × Byte)) : State :=
  let n := x.session
  let instr := x.trap.map (fun _ => (x.instr, x.opcode.toNat))
  let info := fun (kind : Nat) => ({ kind := kind, die := c.die.val, instr := instr, session := n, vote := v, moment := x.moment } : CardInfo)
  let replace := fun (s : State) => s.replaceResult c x bytes
  let checker := parts.getD 1 c
  match v with
  | 1 => ((replace s).recode n c x).blameDrain (info Card.wrongResult) c
  | 2 => s.blameDrain (info Card.checkWrong) checker
  | 3 => (((replace s).recode n c x).blameDrain (info Card.wrongResult) c).blameDrain (info Card.checkWrong) checker
  | 4 => s.blameDrain (info Card.checkWrong) checker
  | 5 => (replace s).blameDrain (info (match x.trap with | some t => trapCard t | none => Card.wrongResult)) c
  | _ => s.undecided { info Card.undecided with suspect := true } parts n

/-- A replay that resolves an event of R143, R144 or R445 settles a mismatch of the same tile-step too (R145): a checker whose digest is not the
agreed one has its card. -/
def State.settleChecker (s : State) (x : Tile) (v : Nat) (a : Replay) (checker : Option ClusterId) : State :=
  match x.checker, a, checker with
  | some k, .digest y, some c =>
    if v = 5 ∧ k ≠ y then s.blameDrain { kind := Card.checkWrong, die := c.die.val, session := x.session, vote := v, moment := x.moment } c else s
  | _, _, _ => s

/-- A vote decided on a tile-step x of a cluster, which `put` stores back when it is settled: two further clusters have run it, after that of a
duplicate when there was one (R145, R447). -/
def State.settleVote (s : State) (c : ClusterId) (x : Tile) (put : State → Tile → State) (a b : Replay)
    (result : List (List (Nat × Byte))) : State :=
  let cs := s.checkers c x
  let skip := if x.checker.isSome then 1 else 0
  let a := s.replayer cs[skip]? a
  let b := s.replayer cs[skip + 1]? b
  let s := (s.bump (key c.die 0) F.hltVotes 1).event c.die healthCore 2
  let s := put s { x with trap := none, checker := none, compared := true }
  match x.trap.bind trapStatus, a, b with
  | some st, .trapped, .trapped => s.endSession x.session st (s.exeDetail c x.instr)
  | _, _, _ =>
    let parts := c :: cs.take (skip + 2)
    let v := decideVote x.trap.isSome x.digest x.checker a b
    let s := (s.voteOutcome c x v parts (result.getD 0 [])).settleChecker x v a parts[1]?
    (s.replayReaders x result).finishJob x.session

/-- VOTE_DECIDE: the two further runs of a tile-step decide it, and no duplicate of it is compared after them: the running tile-step after an event of R143, R144 or R445, or one of
the replay window after such an event or a mismatch. -/
def State.voteTile (s : State) (c : ClusterId) (t : Nat) (a b : Replay) (result : List (List (Nat × Byte))) : State :=
  match s.windowTile c t with
  | some x =>
    if x.trap.isSome || x.checker.isSome then s.settleVote c x (fun s x => s.setTile c t x) a b result
    else if (s.cl c).tile.trap.isSome then
      s.settleVote c (s.cl c).tile (fun s x => s.setCl c { s.cl c with tile := x }) a b result
    else s
  | none =>
    if (s.cl c).tile.trap.isSome then
      s.settleVote c (s.cl c).tile (fun s x => s.setCl c { s.cl c with tile := x }) a b result
    else s

def execVoteDecide (c : ClusterId) (t : Fin 2) (a b : Replay) (result : List (List (Nat × Byte))) (s : State) : Result :=
  onDie c.die s (fun s => s.voteTile c t a b result)

/-! ### Drain requests and records -/

/-- DRAIN_NOW (R463): a card DRAIN_REQUESTED, and the drain. -/
def State.drainRequest (s : State) : State :=
  let i : CardInfo := { kind := Card.drainRequested, die := 12 }
  let s := s.report i
  s.startDrain (s.newestCard 12) [] (fun _ => false)

def execDrainNow (by_ : Agent) (s : State) : Result :=
  onDie 12 s (fun s => if by_ = .host ∨ by_ = .sessionCore then s.drainRequest else s)

/-- The drain record is erased (R465). -/
def State.eraseDrainRecord (s : State) : State := s.flashErase drainBase 0x1_0000

/-- CLEAR_RECORD: accepted from the session core only; a write of the host sets CFG_REFUSED (R465, R483). -/
def execClearRecord (by_ : Agent) (s : State) : Result :=
  onDie 12 s (fun s => if by_ = .sessionCore then s.eraseDrainRecord else s.raise die12 F.hltErrCfgRefused)

/-- The drain record written to flash: the card that caused the drain and the PUNIT of each FLAGGED cluster, at most 16 (R463, R465). -/
def execDrainRecordWrite (s : State) : Result :=
  onDie 12 s (fun s =>
    match s.pkg.drain with
    | none => s
    | some d =>
      if d.written then s
      else
        let units := (d.flagged.take 16).flatMap (fun c => natLe 2 (punitOf c.die c.region c.slot 0))
        let s := s.flashRecord drainBase (d.card ++ units)
        { s with pkg := { s.pkg with drain := some { d with written := true } } })

/-- CARD_ARCHIVE: the health core of a die copies its oldest card that die 12 has not taken, and die 12 appends it to the archive in
flash and sends its emergency message (R460, R504). A card that the flash does not take stays where it is, and FLASH_WRITE_FAIL shows it (R483;
notes/assumptions/89.md). -/
def execCardArchive (w : ArchiveWrite) (s : State) : Result :=
  onDie w.die s (fun s =>
    let d := w.die
    let x := s.die d
    if x.unsent = 0 || !s.procRuns d healthCore || !s.procRuns 12 healthCore then s
    else if !w.ok then s.raise die12 F.hltErrFlashWriteFail
    else
      let card := x.cards.getD (x.cards.length - x.unsent) []
      let a := archiveBase + 64 * (s.pkg.archived % archiveCards)
      let s := ((s.setDie d { x with unsent := x.unsent - 1 }).flashErase a 64).flashPokes a card
      let s := { s with pkg := { s.pkg with archived := s.pkg.archived + 1 } }
      s.emergencyMsg (0xFF00 + leAt card 30 1) (leAt card 32 2))

/-! ### Weight digests (R466, R467) -/

/-- The lowest die of a mask. -/
def lowestDie (m : BitVec 25) : Nat := (diesOf m).headD 0

/-- Does a die hold a copy of bytes at device-virtual addresses of a session: does some of them lie in its memory? -/
def State.holdsCopy (s : State) (n d va len : Nat) : Bool :=
  (piecesOf va len).any (fun p => match s.walk d n p.1 false with | .ok phys _ => s.dieOfAddr phys == some d | _ => false)

/-- A session's step has come HLT_WDIG_N further since a step (R466). -/
def State.wdigDue (s : State) (n last : Nat) : Bool := decide (last + s.rf die12 F.hltWdig ≤ (s.sessionStep n).toNat)

/-- The principal die of a device sends the recorded digests of a session that spans devices to the others, every HLT_WDIG_N steps (R468). -/
def State.sendDigests (s : State) (n : Nat) : State :=
  let ses := s.ses n
  if !s.spans n || !s.wdigDue n ses.wdigSent then s
  else
    let s := s.setSes n { ses with wdigSent := (s.sessionStep n).toNat }
    (s.oneEach (s.sessionLinks n)).foldl (fun s l =>
      (managementPieces 32 ses.image.loadDigests).foldl (fun s p => s.sendPacket l (linkDie l) 3 (32 * p.length) (.digests l n p)) s) s

/-- A die recomputes the digest over its copy of a weight section, as it is held in memory, every HLT_WDIG_N steps (R466); one that is not the load
digest has its card, and the package drains, with every session of the same weights that reads them from the die (R463, R467). -/
def State.checkWeights (s : State) (n d k : Nat) : State :=
  let ses := s.ses n
  match ses.image.weights[k]? with
  | none => s
  | some w =>
    let r := Config.weightTarget w
    let last := Sparse.get (fun _ => 0) ses.wdigAt (65536 * d + k)
    if !s.wdigDue n last || !s.holdsCopy n d r.1 r.2 then s
    else
      let s := s.setSes n { ses with wdigAt := Sparse.put (fun _ => 0) ses.wdigAt (65536 * d + k) (s.sessionStep n).toNat }
      let x := s.virtRead d n r.1 r.2
      let s := x.2.2.absorb d r.2
      if digest32 x.1 = digest32 (weightPart w) then s
      else
        let s := (s.report { kind := Card.weightCopy, die := d, punit := d, session := n }).raise (key d 0) F.hltErrWeightCopy
        s.startDrain (s.newestCard d) [] (fun m => (s.ses m).image.weightDigest == ses.image.weightDigest
          && (s.ses m).image.weights.any (fun w => s.holdsCopy m d (Config.weightTarget w).1 (Config.weightTarget w).2))

/-- WEIGHT_DIGEST_CHECK: what a die does with the weights of a session as its steps go on; die 12 sends the recorded digests too. -/
def execWeightDigestCheck (n : SessionNo) (d : Die) (k : Nat) (s : State) : Result :=
  onDie d s (fun s =>
    if (s.ses n).kind = .none then s
    else (if d.val = 12 then s.sendDigests n else s).checkWeights n d k)

/-! ### Exams (R474 to R477) -/

/-- A cluster's place among those of its die. -/
def examNo (c : ClusterId) : Nat := c.region * 17 + c.slot

/-- The junction temperature of a die in 1/8 °C (R520). -/
def State.junction (s : State) (d : Nat) : Int := signedN 16 (s.rf (key d 0) F.pwrTjTemp)

/-- The next bell of every live stream that uses a cluster is at least 10 ms away (R476). -/
def State.bellsFar (s : State) (c : ClusterId) : Bool :=
  s.openSessions.all (fun n =>
    let ses := s.ses n
    !ses.live || !s.usesCluster n c
      || (match ses.bell with | some b => decide (1_000_000 ≤ s.timeTo ses (b + 1) b) | none => true))

/-- An exam of a cluster is due: HLT_EXAM_PERIOD hours have passed since its last, or a card of KIND 1 to 8 against it brings it forward (R462, R476). -/
def State.examDue (s : State) (c : ClusterId) : Bool :=
  let last := (s.cl c).lastExam.toNat
  decide (last + s.rf (key c.die 0) F.hltExamCfgPeriod * 360_000_000_000 ≤ (s.stamp c.die).toNat)
    || (s.recentCards c).any (fun t => decide (last ≤ t.toNat))

/-- A cluster is before another in the exam order of their die: those with cards first, then ascending region and slot (R462, R476). -/
def State.examBefore (s : State) (e c : ClusterId) : Bool :=
  let carded := fun (c : ClusterId) => !(s.recentCards c).isEmpty
  if carded e == carded c then decide (examNo e < examNo c) else carded e

/-- May a cluster enter RECESS in SERVICE: a seated one or a spare that is due, IDLE or ENDED, with no bell near (R476)? -/
def State.examReady (s : State) (c : ClusterId) : Bool :=
  (s.exe c == Ex.idle || s.exe c == Ex.ended) && decide (s.slotState c.die c.region c.slot ≤ 2) && s.regionOk c.die c.region
    && s.examDue c && s.bellsFar c

/-- The junction of a die lies in the upper band, or has stayed below it for HLT_EXAM_WAIT days (R475, R476). -/
def State.bandOk (s : State) (d : Nat) : Bool :=
  decide (s.junction d ≤ 760) && (decide (680 ≤ s.junction d)
    || decide ((s.die d).bandAt.toNat + s.rf (key d 0) F.hltExamCfgWait * 8_640_000_000_000 ≤ (s.stamp d).toNat))

/-- May an exam of a cluster start (R329, R475, R476)? In TEST: the next of its region in the list of the request. In SERVICE: the first in the
exam order of its die that may enter RECESS, with none of the die in RECESS, no PAUSE, and the band of R475 (notes/assumptions/38.md). -/
def State.mayExam (s : State) (c : ClusterId) : Bool :=
  let x := s.die c.die
  match s.partOf c.die with
  | none => false
  | some p =>
    let region := fun (k : Nat) => k / 17 == clusterNo c.die c.region 0 / 17
    s.procRuns c.die healthCore && match p.state with
    | .test => (s.exe c == Ex.idle || s.exe c == Ex.ended) && p.leaving.isNone && (p.exams.find? region) == some c.no
        && !x.recess.any (fun k => k / 17 == c.region.val)
    | .service => s.examReady c && x.recess.isEmpty && !s.bit (key c.die 0) F.hltExamCfgPause && s.bandOk c.die
        && !(clustersOf c.die).any (fun e => s.examBefore e c && s.examReady e)
    | _ => false

/-- EXAM_START: the cluster enters RECESS; below the band the wait of R476 has passed, and BAND_MISSED shows it. -/
def State.startExam (s : State) (c : ClusterId) : State :=
  if !s.mayExam c then s
  else
    let b := key c.die 0
    let cold := s.partState c.die == some .service && decide (s.junction c.die < 680)
    let s := if cold then s.raise b F.hltErrBandMissed else s
    let s := if cold then { s with ect := { s.ect with bandMissed := hold32 s.ect.bandMissed 1 } } else s
    let x := s.die c.die
    let seats := Sparse.put (fun _ => 0) x.seats (examNo c) (s.slotState c.die c.region c.slot)
    let s := ((s.setDie c.die { x with recess := NatSet.insert x.recess (examNo c), seats := seats, recessAt := x.stamp }).setSlot c 4).sf b F.hltExamStatusState 3
    s.setApplied c.die c.region (examSupply c.die c.region)

def execExamStart (c : ClusterId) (s : State) : Result := onDie c.die s (fun s => s.startExam c)

/-- The state that the slot of a cluster in RECESS had before: ACTIVE, SPARE, SUBSTITUTE, or in TEST one that no list runs on (R329, R473). -/
def State.seatState (s : State) (c : ClusterId) : Nat := Sparse.get (fun _ => 0) (s.die c.die).seats (examNo c)

/-- The cluster leaves RECESS, and its slot has the state again that it had before, unless a drain has flagged it meanwhile. -/
def State.leaveRecess (s : State) (c : ClusterId) : State :=
  let x := s.die c.die
  let seat := s.seatState c
  let s := s.setDie c.die { x with recess := NatSet.erase x.recess (examNo c), seats := Sparse.put (fun _ => 0) x.seats (examNo c) 0 }
  let s := if s.slotState c.die c.region c.slot = 4 then s.setSlot c seat else s
  let s := if (s.die c.die).recess.isEmpty then s.sf (key c.die 0) F.hltExamStatusState 0 else s
  let s := s.modPart c.die (fun p => { p with exams := p.exams.filter (fun k => k != c.no) })
  s.setCl c { s.cl c with lastExam := s.stamp c.die }

/-- Leave requests that waited for the exams in progress take effect after the last of them (R329). -/
def State.leaveIfDone (s : State) (d : Nat) : State :=
  match s.partOf d with
  | some p =>
    match p.leaving with
    | some dests => if s.inRecess p.dies then s else s.leaveNow p.dies dests
    | none => s
  | none => s

/-- EXAM_COMPLETE: a pass sets LAST_PASS; a failure has its card, and by R477 the drain of an ACTIVE or SUBSTITUTE cluster or the loss of a spare;
a slot in another state, which only TEST examines, stays as it is. While the health core restarts its exam is abandoned, to begin again once the core
runs (R441). The card carries the moment at which the exam failed (R459). -/
def State.completeExam (s : State) (c : ClusterId) (pass : Bool) : State :=
  if !(s.die c.die).recess.mem (examNo c) || !s.procRuns c.die healthCore then s
  else
    let b := key c.die 0
    let seat := s.seatState c
    let now := s.momentOf { kind := Card.examFail, die := c.die, cluster := some c }
    let s := (s.leaveRecess c).bump b F.hltExamDone 1
    let s := { s with ect := { s.ect with examsDone := hold32 s.ect.examsDone 1 } }
    let s :=
      if pass then s.setCl c { s.cl c with lastPass := s.stamp c.die }
      else
        let s := s.raise b F.hltErrExamFail
        let i : CardInfo := { kind := Card.examFail, die := c.die, cluster := some c, suspect := seat == 0 || seat == 2, moment := some now }
        let s := (s.fileCard i).1
        if seat = 1 then s.setSlot c 3
        else if seat = 0 ∨ seat = 2 then s.startDrain (s.newestCard c.die) [c] (fun n => s.usesCluster n c)
        else s
    (s.setApplied c.die c.region (s.vWanted c.die c.region)).leaveIfDone c.die

def execExamComplete (c : ClusterId) (pass : Bool) (s : State) : Result := onDie c.die s (fun s => s.completeExam c pass)

/-- Does an exam of a die wait for the band of R475 alone? -/
def State.examWaits (s : State) (d : Die) : Bool :=
  s.partState d == some .service && !s.bit (key d 0) F.hltExamCfgPause && !s.bandOk d && (clustersOf d).any s.examReady

/-- HLT_EXAM_STATUS (R475, R483): SETTLE in the 200 µs before and after the library's EXAM_TIME, WAIT_BAND while an exam that is due waits for the
band or one that was abandoned begins again; the rounds of a start show the same (R550). -/
def State.examStatus (s : State) (d : Nat) : Nat :=
  let start := s.startUpSlot.any (fun sl => decide (sl < 17))
  let w := if start then 3 else s.rf (key d 0) F.hltExamStatusState
  let t := if start then s.startUpTime % s.examRound else (s.stamp d).toNat - (s.die d).recessAt.toNat
  if w = 3 then (if t < 20000 ∨ 20000 + 100 * s.examTime ≤ t then 2 else 3)
  else if w = 0 ∧ (if h : d < 25 then s.examWaits ⟨d, h⟩ else false) then 1
  else w

/-! ### The exam library (R479 to R481) -/

/-! The codes of HLT_LIB_STATUS (R483). -/
namespace Lib
abbrev writing : Nat := 1
abbrev verifying : Nat := 2
abbrev done : Nat := 3
abbrev badHeader : Nat := 0x10
abbrev badPart : Nat := 0x11
abbrev tooLarge : Nat := 0x12
abbrev badSignature : Nat := 0x13
abbrev rollback : Nat := 0x14
abbrev flashFail : Nat := 0x15
abbrev hostReadFail : Nat := 0x16
abbrev badDigest : Nat := 0x17
abbrev noStepping : Nat := 0x18
end Lib

/-- A library is WRITING or VERIFYING. -/
def State.libBusy (s : State) : Bool :=
  let st := s.rf die12 F.hltLibStatusCode
  st == Lib.writing || st == Lib.verifying

/-- HLT_LIB_STATUS shows a code. -/
def State.libStatus (s : State) (code : Nat) : State := s.sf die12 F.hltLibStatusCode code

/-- The bank that is not active; bank 0 when none is. -/
def State.inactiveBank (s : State) : Nat := if s.selectedBank = some 0 then 1 else 0

/-- What a library's bytes fail first, in the order of R480; `supplied`: the length supplied; `floor`: the active bank's LIB_VERSION. -/
def State.libFailure (s : State) (b : List Byte) (supplied : Nat) (floor : Option Nat) : Option Nat :=
  let total := leAt b 12 4
  if b.take 4 ≠ [0x5A, 0x45, 0x4C, 0x01] ∨ leAt b 4 2 ≠ 1 ∨ leAt b 19 1 ≠ 0 ∨ leAt b 56 8 ≠ 0 then some Lib.badHeader
  else if leAt b 6 2 ≠ 0x25 then some Lib.badPart
  else if bankSize < total ∨ total ≠ supplied then some Lib.tooLarge
  else if !bitN (leAt b 18 1) (if Config.steppingS2 then 1 else 0) then some Lib.noStepping
  else if floor.any (fun v => decide (leAt b 8 4 ≤ v)) then some Lib.rollback
  else if digest32 ((b.take (total - sigBytes)).drop 64) ≠ sliceB b 24 32 then some Lib.badDigest
  else if !s.verifies 1 b then some Lib.badSignature
  else none

/-- A library's bytes are programmed into the inactive bank, to be read back and checked once all are written (notes/assumptions/89.md); a length above a bank is TOO_LARGE before a byte
is written. -/
def State.takeLibrary (s : State) (b : List Byte) : State :=
  if bankSize < b.length then s.libStatus Lib.tooLarge
  else
    let bank := s.inactiveBank
    let s := ((s.flashErase (bankBase bank) bankSize).flashPokes (bankBase bank) b).libStatus Lib.writing
    { s with pkg := { s.pkg with install := some { bank := bank, len := b.length, staged := false } } }

/-- A library that the host installs takes the place of staged bytes: LIB_STAGED_LEN is 0 again, and a download in progress is aborted
(R502). -/
def State.endStaging (s : State) : State :=
  let s := if s.ect.staging then s.send (.sdoAbort 0x0800_0022) else s
  { s with ect := { s.ect with stagedLen := 0, staging := false, transfer := none } }

/-- HLT_LIB_CTRL.GO on die 12: the library is read from the host; ignored while one is WRITING or VERIFYING. -/
def State.libGo (s : State) : State :=
  let len := s.rf die12 F.hltLibLen
  let src := s.rf die12 F.hltLibSrcLo + s.rf die12 F.hltLibSrcHi * 2 ^ 32
  if s.libBusy then s
  else if bankSize < len then s.endStaging.libStatus Lib.tooLarge
  else
    let s := s.endStaging
    let r := s.hostRead 12 src len
    let s := s.askHost 12 src len
    if r.2 then s.libStatus Lib.hostReadFail else s.takeLibrary r.1

def execHltLibGo (s : State) : Result := onDie 12 s State.libGo

/-- The library phase ends: the patterns of a bank are on every die, and the exams begin at the supply of R475 (R549, R550). -/
def State.libraryReady (s : State) (bank : Nat) : State :=
  let s := (s.sf die12 F.fwcStartStatusNoLibrary 0).setSupplies examSupply
  { (s.sf die12 F.fwcStartStatusPhase 6) with pkg := { s.pkg with library := some bank, examsAt := s.stamp 12 } }

/-- LIB_INSTALL_COMPLETE: the read-back and the checks of R480 end; only then is the bank-select record rewritten, a start that waits for a library
goes on (R549), and FORWARD sends the
library to the other devices of the system group (R481). -/
def State.libComplete (s : State) (flashOk : Bool) : State :=
  match s.pkg.install with
  | none => s
  | some i =>
    let b := s.flashBytes (bankBase i.bank) i.len
    let floor := s.selectedBank.map (fun k => leNat (s.flashBytes (bankBase k + 8) 4))
    let s := { s with pkg := { s.pkg with install := none } }
    if !flashOk then s.libStatus Lib.flashFail
    else
      let f := s.libFailure b i.len floor
      let s := s.absorb 12 (if digestReached Lib.badDigest Lib.badSignature f then i.len - sigBytes - 64 else 0)
      match f with
      | some code => s.libStatus code
      | none =>
        let v := leAt b 8 4
        let s := ((s.selectBank i.bank v).sf die12 F.hltLibVersion v).libStatus Lib.done
        let s := if s.phase = 5 ∧ s.bit die12 F.fwcStartStatusNoLibrary then s.libraryReady i.bank else { s with pkg := { s.pkg with library := s.pkg.library.map (fun _ => i.bank) } }
        if s.bit die12 F.hltLibCtrlForward then
          (s.oneEach ((List.range 40).filter (fun l => s.linkUp l && (s.lnk l).role == 1))).foldl (fun s l =>
            (managementPieces 1 b).foldl (fun s p => s.sendPacket l 12 3 p.length (.library l p)) s) s
        else s

def execLibInstallComplete (flashOk : Bool) (s : State) : Result := onDie 12 s (fun s => s.libComplete flashOk)

end Sys2Proof.Machine
end

