-- ==== Sys2Proof/Machine/Links.lean ====
section
/-!
DEFINITION. Mboholt links (R389 to R417): flits with their correction, acknowledgements, credits and retry; training and roles; loss of a
link and the routes to the host; link channels; management packets.
-/

namespace Sys2Proof.Machine

/-- VC credits of a link that comes up (R395). -/
def fullCredits : List Nat := [64, 128, 256, 64]

/-! ### Routes to the host (R403 to R405) -/

/-- What a die holds for want of a route goes over it: its host writes, in order, and its reads that no link has carried (R403, R404). -/
def State.sendHeld (s : State) (d : Nat) : State :=
  match s.route d with
  | none => s
  | some l =>
    let ws := (s.die d).hostHeld
    let s := s.setDie d { s.die d with hostHeld := [] }
    let s := ws.foldl (fun s w => s.sendWrite l w) s
    s.fetch.foldl (fun s e =>
      match clusterOfNo (e.1 / 64) with
      | none => s
      | some c =>
        if c.die.val = d ∧ e.2.inflight.any (fun r => r.asked.isNone && (s.hostSource r).isSome) then
          let t := e.2.inflight.foldl (fun (a : State × List Request) r =>
            let b := if r.asked.isNone then a.1.askFor c r else (a.1, r)
            (b.1, a.2 ++ [b.2])) (s, [])
          t.1.setFqN e.1 { e.2 with inflight := t.2 }
        else s) s

/-- What waited for a route goes: for every die that has one, what it holds; then the queues fetch and write again, and transfers go on. -/
def State.routesUp (s : State) : State :=
  let s := allDies.foldl (fun s d => if s.anyHostLink d then s.setDie d { s.die d with noRoute := false } else s) s
  let s := (allDies.foldl State.sendHeld s).releaseHeld
  ((s.queues.map (·.1)).foldl State.fetchAll s).flushAll

/-- A die switches from its primary link to its secondary: every read not answered and every write not acknowledged, which it holds since the
primary went down, is sent again there, the writes in order (R404). -/
def State.switchRoute (s : State) (d : Nat) : State :=
  let b := key d 0
  let p := s.rf b F.lnkHroutePrimary
  ((s.raise b F.lnkHrouteUsingSecondary).raise (lnkBase p) F.lnkErrHostFailover).sendHeld d

/-- A die whose primary host link went down switches to its secondary; without one it has lost the host (R403, R404). -/
def State.failover (s : State) (l d : Nat) : State :=
  let b := key d 0
  let q := s.rf b F.lnkHrouteSecondary
  let onPrimary := !s.bit b F.lnkHrouteUsingSecondary && s.bit b F.lnkHroutePrimaryValid && s.rf b F.lnkHroutePrimary == l
  let onSecondary := s.bit b F.lnkHrouteUsingSecondary && q == l
  if onPrimary && s.bit b F.lnkHrouteSecondaryValid && s.hostLinkUp q then s.switchRoute d
  else if onPrimary || onSecondary then s.raise b F.lnkDieErrHostLost
  else s

/-- A die without a route takes a link that comes up when that is the secondary of its primary that is down (R403, R404). -/
def State.takeSecondary (s : State) (l d : Nat) : State :=
  let b := key d 0
  if (s.route d).isNone && !s.bit b F.lnkHrouteUsingSecondary && s.bit b F.lnkHroutePrimaryValid && s.bit b F.lnkHrouteSecondaryValid
      && s.rf b F.lnkHrouteSecondary == l && s.hostLinkUp l then s.switchRoute d
  else s

/-- WRITE_REFUSED in FET_ERR of the engine whose queue made a write that is lost (R568). -/
def State.refuseFetch (s : State) (queue : Option Nat) : State :=
  match queue with
  | some k => (match clusterOfNo (k / 64) with | some c => s.fetchRefused c (k % 64) | none => s)
  | none => s

/-- HOST_ROUTE_TIMEOUT: a die without a host link up for 10 µs: its host reads are poisoned, its host writes discarded, and the sessions that
wrote them end (R405). -/
def State.routeTimeout (s : State) (d : Nat) : State :=
  if s.anyHostLink d then s
  else
    let x := s.die d
    let lost := (x.hostHeld ++ s.hostw.filter (fun w => w.die == d)).filter (fun w => w.ses != noSessionMark)
    let s := s.setDie d { x with noRoute := true, hostHeld := x.hostHeld.filter (fun w => w.ses == noSessionMark) }
    let s := { s with hostw := s.hostw.filter (fun w => !(w.die == d && w.ses != noSessionMark)) }
    let s := lost.foldl (fun s w => s.refuseFetch w.queue) s
    ((lost.map (·.ses)).eraseDups).foldl (fun s n => s.endSession n St.fetDstFault) s

def execHostRouteTimeout (d : Die) (s : State) : Result := onDie d s (fun s => s.routeTimeout d)

/-- USING_SECONDARY cleared: the die returns to its primary link (R404). -/
def State.clearSecondary (s : State) (d : Nat) : State :=
  let b := key d 0
  let s := s.sf b F.lnkHrouteUsingSecondary 0
  if (s.route d).isNone then s.raise b F.lnkDieErrHostLost else s.routesUp

def execUsingSecondaryClear (d : Die) (s : State) : Result :=
  onDie d s (fun s => if s.bit (key d 0) F.lnkHrouteUsingSecondary then s.clearSecondary d else s)

/-! ### Down and up -/

/-- What becomes of the packets that wait at a link as it goes down: host writes are held by their dies, channel credits wait for the link, and an
abort or management packet stays (notes/assumptions/83.md); the partner asks for the others again. -/
def State.dropWaiting (s : State) (l : Nat) : State :=
  let ps := (s.lnk l).waiting
  let s := s.setLnk l { s.lnk l with waiting := ps.filter (fun p => match p.reply with
    | .chanAbort _ _ _ => true | .digests _ _ _ => true | .library _ _ => true | _ => false) }
  ps.foldl (fun s p => match p.reply with
    | .hostWrite w => s.setDie w.die { s.die w.die with hostHeld := (s.die w.die).hostHeld ++ [w] }
    | .chanCredit _ ch k =>
      let x := s.lnk l
      let c := Sparse.get (fun _ => {}) x.rx ch
      if c.lines = 0 then s else s.setLnk l { x with rx := Sparse.put (fun _ => {}) x.rx ch { c with owed := c.owed + k } }
    | _ => s) s

/-- The host traffic of a link that goes down: writes not acknowledged are held again by their dies, in order, and reads not answered have no link
(R404). -/
def State.takeBackWrites (s : State) (l : Nat) : State :=
  let back := (s.hostw.filter (fun w => w.link == l)).map (fun w => { w with again := true })
  let s := { s with hostw := s.hostw.filter (fun w => w.link != l)
                    fetch := s.fetch.map (fun e => (e.1, { e.2 with inflight := e.2.inflight.map (fun r =>
                      if r.asked = some l then { r with asked := none } else r) })) }
  back.foldl (fun s w => s.setDie w.die { s.die w.die with hostHeld := (s.die w.die).hostHeld ++ [w] }) s

/-- A link taken down (R398): it trains again when AUTO_RETRAIN is 1, and not while it is expelled (R468). -/
def State.linkDown (s : State) (l : Nat) : State :=
  if !s.linkUp l then s
  else
    let b := lnkBase l
    let x := s.lnk l
    let s := ((s.raise b F.lnkErrLinkDown).bump b F.lnkDowns 1).sf b F.lnkStatusLanes 0
    let s := s.sf b F.lnkStatusState (if s.bit b F.lnkCfgAutoRetrain && !x.expelled then 1 else 0)
    let s := s.setLnk l { x with replay := [], credits := [0, 0, 0, 0], owed := [0, 0, 0, 0], nakSent := false }
    let s := (s.takeBackWrites l).dropWaiting l
    (allDies.foldl (fun s d => s.failover l d) s).releaseHeld

/-- A channel as its link comes up: a transmit channel sends again what is not credited, a receive channel discards what it holds and
returns the credits that waited (R413). -/
def resumeChannel (receive : Bool) (x : LinkChannel) : LinkChannel :=
  if receive then { x with skip := x.written - (x.freed - x.owed), owed := 0 }
  else
    let again := (List.range (x.sent - x.credited)).foldl (fun t i =>
      Sparse.put (fun _ => 0) t (x.base / 64 + (x.credited + i) % max 1 x.lines) allCovered) x.covered
    { x with sent := x.credited, covered := again }

/-- A link that comes up, on all 8 lanes or degraded on 4, with full credits; packets that stayed go first. -/
def State.linkUpWith (s : State) (l lanes : Nat) : State :=
  let b := lnkBase l
  let x := s.lnk l
  let owed := x.rx.map (fun c => (c.1, c.2.owed))
  let s := (s.sf b F.lnkStatusState (if lanes = 8 then 2 else 3)).sf b F.lnkStatusLanes lanes
  let s := s.setLnk l { tx := x.tx.map (fun c => (c.1, resumeChannel false c.2)), rx := x.rx.map (fun c => (c.1, resumeChannel true c.2)),
                        keepHalf := decide (lanes = 4), role := s.rf b F.lnkCfgRole, credits := fullCredits, waiting := x.waiting }
  let s := s.pump l
  let s := owed.foldl (fun s c => if c.2 = 0 then s else s.sendPacket l (linkDie l) 1 0 (.chanCredit l c.1 c.2)) s
  (allDies.foldl (fun s d => s.takeSecondary l d) s).routesUp

/-- Partner, identity and round trip as training found them (R391, R416). -/
def State.showPartner (s : State) (t : Training) : State :=
  let b := lnkBase t.link
  let put := fun (s : State) (kind link device port group adapter : Nat) =>
    let s := ((s.sf b F.lnkStatusPartner kind).sf b F.lnkStatusLink link).sf b F.lnkStatusDevice device
    ((s.sf b F.lnkStatusPort port).sf b F.lnkPartnerGroup group).sf b F.lnkPartnerAdapter adapter
  let s := match t.partner with
    | .none => put s 0 0 0 0 0 0
    | .cq25 g d l => put s 1 l d 0 g.toNat 0
    | .mha4 a p => put s 2 0 0 p 0 a.toNat
  s.sf b F.lnkRtt (min t.rttNs 0xFFFF)

/-- Host links that are up, other than link l. -/
def State.otherHostLinks (s : State) (l : Nat) : List Nat := (List.range 40).filter (fun k => k != l && s.hostLinkUp k)

/-- A link that training brings up only by its role: a host link to an MHA-4, unless it is the fifth or the second of its die (R400); a
group link to a CQ25 of the same group (R407). -/
def State.roleUp (s : State) (t : Training) (lanes : Nat) : State :=
  let l := t.link.val
  let b := lnkBase l
  let down := s.sf b F.lnkStatusState 0
  match s.rf b F.lnkCfgRole, t.partner with
  | 2, .mha4 _ _ =>
    let others := s.otherHostLinks l
    if 4 ≤ others.length ∨ others.any (fun k => linkDie k == linkDie l) then (s.raise b F.lnkErrRoleRefused).sf b F.lnkStatusState 4
    else s.linkUpWith l lanes
  | 2, _ => (s.raise b F.lnkErrRoleRefused).sf b F.lnkStatusState 4
  | 1, .cq25 g _ _ =>
    if g.toNat = s.rf (key (linkDie l) 0) F.lnkGroupGroup then s.linkUpWith l lanes else down.raise b F.lnkErrGroupMismatch
  | _, _ => down

/-- The end of a link's training (R390, R391, R398): each end has sent its identity word. A link of an expelled device stays down until RETRAIN, and
one of a die without its reference clock until a package reset (R468, R513). -/
def State.trainLink (s : State) (t : Training) : State :=
  let l := t.link.val
  let b := lnkBase l
  let g := key (linkDie l) 0
  let s := (s.send (.identity l (BitVec.ofNat 16 (s.rf g F.lnkGroupGroup)) (s.rf g F.lnkGroupDevice))).showPartner t
  let lanes := if t.lowOk && t.highOk && !(s.lnk l).keepHalf then 8 else if t.lowOk || t.highOk then 4 else 0
  let down := s.sf b F.lnkStatusState 0
  if lanes = 0 ∨ t.partner = .none ∨ (s.lnk l).expelled ∨ s.bit g F.pwrStatusRefclkLost then down
  else if 400 < t.rttNs then down.raise b F.lnkErrRttTooLong
  else s.roleUp t lanes

/-- LINK_TRAIN_DONE: a link that trains comes up, comes up degraded or stays down. -/
def execLinkTrainDone (t : Training) (s : State) : Result :=
  onDie (linkDie t.link) s (fun s => if s.rf (lnkBase t.link) F.lnkStatusState = 1 then s.trainLink t else s)

/-- RETRAIN: takes the link down and trains it, on 8 lanes again and after an expulsion too (R398, R416, R468). -/
def State.retrainLink (s : State) (l : Nat) : State :=
  let s := s.linkDown l
  let s := s.setLnk l { s.lnk l with expelled := false, keepHalf := false }
  if s.bit (key (linkDie l) 0) F.pwrStatusRefclkLost then s else s.sf (lnkBase l) F.lnkStatusState 1

def execRetrain (l : LinkNo) (s : State) : Result := onDie (linkDie l) s (fun s => s.retrainLink l)

/-- The partner sends no flit for 1 µs (R398). -/
def execLinkSilenceTimeout (l : LinkNo) (s : State) : Result := onDie (linkDie l) s (fun s => s.linkDown l)

/-- A lane of an 8-lane link loses lock: the link comes up degraded after its next training (R398). -/
def execLaneLockLoss (l : LinkNo) (s : State) : Result :=
  onDie (linkDie l) s (fun s =>
    if s.rf (lnkBase l) F.lnkStatusState = 2 then (s.setLnk l { s.lnk l with keepHalf := true }).linkDown l else s)

/-! ### Flits (R392 to R396) -/

/-- The acknowledgement in a header frees the replay buffer up to it. -/
def ackFlits (x : Link) (ack : Nat) : Link :=
  let n := (ack + 1 + 4096 - (x.txSeq - BitVec.ofNat 12 x.unacked).toNat) % 4096
  if x.unacked < n then x else { x with replay := x.replay.drop n }

/-- Credits returned in a header. -/
def addCredits (x : Link) (c : List Nat) : Link :=
  { x with credits := (List.range 4).map (fun i => min (x.credits.getD i 0 + c.getD i 0) (fullCredits.getD i 0)) }

/-- A NAK: every flit after ACK is sent again, in order; when one has been sent 8 times the link is taken down (R396, R398). -/
def State.nakFlits (s : State) (l : Nat) : State :=
  let b := lnkBase l
  let x := s.lnk l
  let s := (s.raise b F.lnkErrRetry).bump b F.lnkRetries 1
  if x.replay.any (fun f => decide (8 ≤ f.sends)) then s.linkDown l
  else
    let s := s.setLnk l { x with replay := x.replay.map (fun f => { f with sends := f.sends + 1 }) }
    x.replay.foldl (fun s f => s.send (.flit l f.bytes)) s

/-- A flit that cannot be used is discarded and answered with NAK, in a flit of its own when the replay buffer has room; later ones are discarded until
the one asked for comes. -/
def State.refuseFlit (s : State) (l : Nat) (always : Bool) : State :=
  let x := s.lnk l
  if (x.nakSent && !always) || decide (256 ≤ x.unacked) then s else (s.setLnk l { x with nakSent := true }).sendIdle l true

/-- A flit in sequence: its header's acknowledgement, credits and NAK act, and its buffer is freed at once; its credit goes back in a flit of its own
(notes/assumptions/31.md). -/
def State.acceptFlit (s : State) (l : Nat) (h : Nat) : State :=
  let idle := bitN h 25
  let x := addCredits (ackFlits (s.lnk l) (fieldN h 23 12)) [fieldN h 39 32, fieldN h 47 40, fieldN h 55 48, fieldN h 63 56]
  let vc := fieldN h 27 26
  let owed := if idle then x.owed else x.owed.set vc (min (x.owed.getD vc 0 + 1) 255)
  let s := s.setLnk l { x with rxSeq := BitVec.ofNat 12 (fieldN h 11 0), nakSent := false, owed := owed }
  let s := if bitN h 24 then s.nakFlits l else s
  let s := if idle then s else (s.bump (lnkBase l) F.lnkRxBytes 224)
  let s := if !idle && s.linkUp l then s.sendIdle l false else s
  (s.pump l).releaseHeld

/-- FLIT_RECEIVE: a flit is corrected and checked, and accepted or NAKed. -/
def State.flitIn (s : State) (l : Nat) (flit : List Byte) : State :=
  let b := lnkBase l
  if !s.linkUp l then s
  else
    match fecDecode flit with
    | none => s.refuseFlit l true
    | some (f, fixed) =>
      let s := if fixed then (s.raise b F.lnkErrFecCorrected).bump b F.lnkFecCe 1 else s
      let h := leNat (f.take 8)
      if (crc64 (f.take 232)).toNat ≠ beNat (sliceB f 232 8) then (s.raise b F.lnkErrCrcFail).refuseFlit l true
      else if fieldN h 11 0 ≠ ((s.lnk l).rxSeq + 1).toNat then s.refuseFlit l false
      else s.acceptFlit l h

def execFlitReceive (l : LinkNo) (flit : List Byte) (s : State) : Result := onDie (linkDie l) s (fun s => s.flitIn l flit)

/-! ### Packets between a host and the device -/

/-- READ_DATA: what host memory holds at an address, line by line with poison; an answer with an error delivers 0x00 with poison (R394,
R405). -/
def State.hostData (s : State) (addr : Nat) (data : List Byte) (poison : List Bool) (error : Bool) : State :=
  ((chunksOf (data.length / 64 + 1) 64 data).zip (List.range (data.length / 64 + 1))).foldl (fun s x =>
    let bad := error || poison.getD x.2 false
    s.store (hostAddr (addr + 64 * x.2)) (if error then List.replicate x.1.length 0 else x.1) bad) s

def execReadData (l : LinkNo) (addr : Nat) (data : List Byte) (poison : List Bool) (error : Bool) (s : State) : Result :=
  onDie (linkDie l) s (fun s => if s.hostLinkUp l then s.hostData addr data poison error else s)

/-- Host writes acknowledged over a link, oldest first. -/
def ackWrites (l : Nat) : Nat → List HostWrite → List HostWrite
  | _, [] => []
  | k, w :: rest => if w.link = l ∧ 0 < k then ackWrites l (k - 1) rest else w :: ackWrites l k rest

/-- Credits of a link channel: each frees a line of the transmit ring and posts its semaphore by 1 (R410). -/
def State.creditChannel (s : State) (l ch k : Nat) : State :=
  let x := s.lnk l
  let c := Sparse.get (fun _ => {}) x.tx ch
  let k := min k (c.sent - c.credited)
  let n := s.crf l false ch F.lnkChCtrlSession
  let s := s.setLnk l { x with tx := Sparse.put (fun _ => {}) x.tx ch { c with credited := c.credited + k } }
  let s := (List.range k).foldl (fun s _ => s.postFor (s.crf l false ch F.lnkChCtrlSession) (linkDie l) (srcLink l) (s.crf l false ch F.lnkChSemDie) (s.crf l false ch F.lnkChSemSem) 1) s
  s.tryPause n

/-- ACK: acknowledges host writes, which releases the completions that they cover (R402), or returns link-channel credits. -/
def execAck (l : LinkNo) (writes : Nat) (chan : Option (Fin 32 × Nat)) (s : State) : Result :=
  onDie (linkDie l) s (fun s =>
    if !s.linkUp l then s
    else
      let s := { s with hostw := ackWrites l writes s.hostw }
      let s := match chan with
        | some c => if s.crf l false c.1 F.lnkChStatusActive = 1 then s.creditChannel l c.1 c.2 else s
        | none => s
      s.flushAll)

/-! ### Link channels (R410 to R415) -/

/-- A group link that is up (R407). -/
def State.groupLinkUp (s : State) (l : Nat) : Bool := s.linkUp l && (s.lnk l).role == 1

/-- CHAN: a line is written into the receive ring; one that it holds already is discarded (R413). -/
def State.lineIn (s : State) (l ch : Nat) (line : List Byte) : State :=
  let x := s.lnk l
  let c := Sparse.get (fun _ => {}) x.rx ch
  let put := fun (s : State) (c : LinkChannel) => s.setLnk l { s.lnk l with rx := Sparse.put (fun _ => {}) (s.lnk l).rx ch c }
  if !s.groupLinkUp l || s.crf l true ch F.lnkChStatusActive != 1 then s
  else if 0 < c.skip then put s { c with skip := c.skip - 1 }
  else if c.full.mem (c.written % max 1 c.lines) then s
  else
    let at_ := c.base + 64 * (c.written % max 1 c.lines)
    let k := s.crf l true ch F.lnkChSemPostLines
    let posts := decide (k ≤ c.unposted + 1)
    let s := s.store at_ (sliceB line 0 64) false
    let s := put s { c with written := c.written + 1, unposted := if posts then 0 else c.unposted + 1
                            full := NatSet.insert c.full (c.written % max 1 c.lines)
                            covered := Sparse.put (fun _ => 0) c.covered (at_ / 64) 0 }
    if posts then s.postFor (s.crf l true ch F.lnkChCtrlSession) (linkDie l) (srcLink l) (s.crf l true ch F.lnkChSemDie) (s.crf l true ch F.lnkChSemSem) 1 else s

def execChan (l : LinkNo) (ch : Fin 32) (line : List Byte) (s : State) : Result := onDie (linkDie l) s (fun s => s.lineIn l ch line)

/-- CHAN_LINE_SEND: a transmit channel sends the next line of its ring once all of it has been written; a poisoned line ends the session
(R410, R412). -/
def State.lineOut (s : State) (l ch : Nat) : State :=
  let x := s.lnk l
  let c := Sparse.get (fun _ => {}) x.tx ch
  let a := c.base + 64 * (c.sent % max 1 c.lines)
  if !s.groupLinkUp l || s.crf l false ch F.lnkChStatusActive != 1 || decide (c.lines ≤ c.sent - c.credited)
      || Sparse.get (fun _ => 0) c.covered (a / 64) != allCovered then s
  else if s.poisoned a then (s.poisonEvent (linkDie l)).poisonEnd (s.crf l false ch F.lnkChCtrlSession)
  else
    let c := { c with sent := c.sent + 1, covered := Sparse.put (fun _ => 0) c.covered (a / 64) 0 }
    let s := s.setLnk l { x with tx := Sparse.put (fun _ => {}) x.tx ch c }
    s.sendPacket l (linkDie l) 2 64 (.line l ch (s.bytes a 64))

def execChanLineSend (l : LinkNo) (ch : Fin 32) (s : State) : Result := onDie (linkDie l) s (fun s => s.lineOut l ch)

/-- May a channel be enabled, as far as its registers say (R415): its ring a power of two from 16 to 65,536 lines, inside the window of its session,
and PEER the channel of the same number (R410)? -/
def State.goodLinkChannel (s : State) (l : Nat) (r : Bool) (ch : Nat) : Bool :=
  let size := s.crf l r ch F.lnkChSize
  let ring := s.crf l r ch F.lnkChRing
  let n := s.crf l r ch F.lnkChCtrlSession
  decide (16 ≤ size ∧ size ≤ 65536) && size == 2 ^ Nat.log2 size && ring % 64 == 0 && (s.ses n).kind != .none
    && s.inWindow n (linkDie l) ring (64 * size) && s.crf l r ch F.lnkChPeer == ch

/-- The channel that LNK_CH_SEL selects. -/
def State.selChannel (s : State) (l : Nat) : Bool × Nat := (s.bit (lnkBase l) F.lnkChSelReceive, s.rf (lnkBase l) F.lnkChSelChan)

/-- A channel enabled: ACTIVE from ring position 0, or BAD_CHANNEL (R415). Whether the partner's channel is enabled stands in the partner: a free value
says it (notes/assumptions/84.md). -/
def State.enableChannel (s : State) (l : Nat) : State :=
  let k := s.selChannel l
  if s.crf l k.1 k.2 F.lnkChCtrlEnable = 1 then s
  else if !s.goodLinkChannel l k.1 k.2 then s.raise (lnkBase l) F.lnkErrBadChannel
  else
    let v := s.free
    let s := v.2
    if !v.1.getLsbD 0 then s.raise (lnkBase l) F.lnkErrBadChannel
    else
    let n := s.crf l k.1 k.2 F.lnkChCtrlSession
    let c : LinkChannel := { base := s.windowAddr n (linkDie l) (s.crf l k.1 k.2 F.lnkChRing), lines := s.crf l k.1 k.2 F.lnkChSize }
    let x := s.lnk l
    let s := s.setLnk l (if k.1 then { x with rx := Sparse.put (fun _ => {}) x.rx k.2 c } else { x with tx := Sparse.put (fun _ => {}) x.tx k.2 c })
    ((s.csf l k.1 k.2 F.lnkChCtrlEnable 1).csf l k.1 k.2 F.lnkChStatusActive 1).csf l k.1 k.2 F.lnkChStatusAborted 0

def execLnkChEnable (l : LinkNo) (s : State) : Result := onDie (linkDie l) s (fun s => s.enableChannel l)

/-- LNK_CH_CTRL.ABORT: the channel pair is aborted, and the sessions at both ends end (R412). -/
def State.abortSelected (s : State) (l : Nat) : State :=
  let k := s.selChannel l
  if s.crf l k.1 k.2 F.lnkChCtrlEnable = 1 then
    let n := s.crf l k.1 k.2 F.lnkChCtrlSession
    (s.abortLinkChannel l k.1 k.2 St.poisonConsumed).endSession n St.poisonConsumed
  else s

def execLnkChAbort (l : LinkNo) (s : State) : Result := onDie (linkDie l) s (fun s => s.abortSelected l)

/-- Every channel pair of a link aborted: the sessions end with FET_DST_FAULT (R413). -/
def State.abortLink (s : State) (l : Nat) : State :=
  [false, true].foldl (fun s r => (List.range 32).foldl (fun s ch =>
    if s.crf l r ch F.lnkChCtrlEnable = 1 then
      let n := s.crf l r ch F.lnkChCtrlSession
      (s.abortLinkChannel l r ch St.fetDstFault).endSession n St.fetDstFault
    else s) s) s

/-- The partner has aborted a channel pair: the session that holds this end ends with the same status (R412). -/
def State.abortedBy (s : State) (l ch status : Nat) : State :=
  [false, true].foldl (fun s r =>
    if s.crf l r ch F.lnkChCtrlEnable = 1 then
      let n := s.crf l r ch F.lnkChCtrlSession
      (s.abortLinkChannel l r ch status).endSession n status
    else s) s

/-- LNK_HOLD_EXPIRY: a group link has stayed down for LNK_HOLD (R413). -/
def execLnkHoldExpiry (l : LinkNo) (s : State) : Result :=
  onDie (linkDie l) s (fun s => if (s.lnk l).role = 1 ∧ !s.linkUp l then s.abortLink l else s)

/-! ### Management packets (R468, R481) -/

/-- The devices with which a session shares link channels: the device indices of those group links. -/
def State.replicaDevices (s : State) (n : Nat) : List Nat :=
  ((s.sessionLinks n).map (fun l => s.rf (lnkBase l) F.lnkStatusDevice)).eraseDups

/-- The value that more than half of a list holds. -/
def majority (xs : List (List (List Byte))) : Option (List (List Byte)) :=
  xs.find? (fun x => decide (xs.length < 2 * (xs.filter (fun y => y == x)).length))

/-- The group links to a device go down and stay down until RETRAIN, and their channels are aborted at once (R468). -/
def State.expel (s : State) (device : Nat) : State :=
  (List.range 40).foldl (fun s l =>
    if (s.lnk l).role = 1 ∧ s.rf (lnkBase l) F.lnkStatusPartner = 1 ∧ s.rf (lnkBase l) F.lnkStatusDevice = device then
      ((s.setLnk l { s.lnk l with expelled := true }).linkDown l).abortLink l
    else s) s

/-- The digests of all devices of a session compared (R468): the one odd device is expelled by the others, and without a majority the
session ends. -/
def State.compareReplicas (s : State) (n : Nat) : State :=
  let ses := s.ses n
  let own := ses.image.loadDigests
  let all := own :: ses.replicas.map (·.2)
  let s := s.setSes n { ses with replicas := [] }
  let card := fun (s : State) (kind : Nat) => s.report { kind := kind, die := 12, session := n }
  match majority all with
  | none => (card s Card.replicaSplit).endSession n St.fetDstFault
  | some m =>
    let odd := ses.replicas.filter (fun e => e.2 != m)
    match odd with
    | [e] => if 3 ≤ all.length ∧ own = m then (card s Card.replicaExpelled).expel e.1 else s
    | _ => s

/-- Weight digests of a device for a session: compared once every device of the session has sent its own. -/
def State.takeDigests (s : State) (device n : Nat) (values : List (List Byte)) : State :=
  let ses := s.ses n
  if ses.kind = .none ∨ !(s.replicaDevices n).contains device then s
  else
    let r := Sparse.put (fun _ => []) ses.replicas device values
    let s := s.setSes n { ses with replicas := r }
    if (s.replicaDevices n).all (fun d => r.any (fun e => e.1 == d)) then s.compareReplicas n else s

/-- MGMT: weight digests of another device, or a library that another device forwards, installed as if the host had written GO. -/
def execMgmt (l : LinkNo) (m : Management) (s : State) : Result :=
  onDie (linkDie l) s (fun s =>
    if !s.linkUp l then s
    else
      match m with
      | .digests device n values => s.takeDigests device n values
      | .abort ch status => s.abortedBy l ch status
      | .library b =>
        let st := s.rf die12 F.hltLibStatusCode
        if st = Lib.writing ∨ st = Lib.verifying then s else s.endStaging.takeLibrary b)

end Sys2Proof.Machine
end

