-- ==== Sys2Proof/Machine/Firmware.lean ====
section
/-!
DEFINITION. The firmware processors: the package and its checks (R420, R421), the load at start (R422, R423), restarts and failures (R426
to R431, R435), and the activation of an update (R437, R438).
-/

namespace Sys2Proof.Machine

/-! Codes of FWC_BOOT_STATUS and FWC_ACT_STATUS (R442). -/
namespace Fw
abbrev busy : Nat := 1
abbrev ok : Nat := 2
abbrev badHeader : Nat := 0x10
abbrev badPart : Nat := 0x11
abbrev tooLarge : Nat := 0x12
abbrev badSignature : Nat := 0x13
abbrev badDigest : Nat := 0x14
abbrev dieTimeout : Nat := 0x15
abbrev procFail : Nat := 0x16
abbrev loading : Nat := 1
abbrev waitEmergency : Nat := 2
abbrev committing : Nat := 3
abbrev done : Nat := 4
abbrev emergencyTimeout : Nat := 0x17
abbrev rolledBack : Nat := 0x18
abbrev hostReadFail : Nat := 0x19
abbrev aborted : Nat := 0x1A
abbrev actBusy : Nat := 0x1B
end Fw

/-! Causes of a restart (R426). -/
namespace Cause
abbrev watchdog : Nat := 1
abbrev protection : Nat := 2
abbrev memoryUe : Nat := 3
abbrev illegal : Nat := 4
abbrev host : Nat := 5
abbrev activation : Nat := 6
end Cause

/-! ### Processors -/

/-- Has a die this processor: the session core is on die 12 alone (R418)? -/
def hasProc (d p : Nat) : Bool := decide (p < 3) || (p == 3 && d == 12)

/-- Every processor of the package. -/
def allProcs : List (Nat × Nat) := allDies.flatMap (fun d => ((List.range 4).filter (hasProc d)).map (fun p => (d, p)))

/-- The state of a processor (R442). -/
def State.proc (s : State) (d p : Nat) : Nat := s.rf (procBase d p) F.fwcProcStatusState
def State.setProc (s : State) (d p st : Nat) : State := s.sf (procBase d p) F.fwcProcStatusState st

/-- FAULT_N falls; only a package reset releases it (R560). NO_LIBRARY, which holds it low as long as it stands, is shown by its bit. -/
def State.fault (s : State) : State := { s with pkg := { s.pkg with faultN := false } }

/-! ### The package (R420, R421) -/

/-- A section entry of a package: type, offset, length and digest. -/
structure FwSection where
  type   : Nat
  off    : Nat
  len    : Nat
  digest : List Byte
  zero   : Bool
  deriving DecidableEq, Repr

def fwSection (b : List Byte) (k : Nat) : FwSection :=
  let e := sliceB b (32 + 48 * k) 48
  { type := leAt e 0 1, off := leAt e 4 4, len := leAt e 8 4, digest := sliceB e 16 32, zero := leAt e 1 3 == 0 && leAt e 12 4 == 0 }

def fwSections (b : List Byte) : List FwSection := (List.range (leAt b 6 2)).map (fwSection b)

/-- FW_VERSION of a package. -/
def fwVersionOf (b : List Byte) : Nat := leAt b 8 4

/-- What a package fails first (R423). A section table that R421 refuses otherwise than by a size is BAD_HEADER
(notes/assumptions/32.md). -/
def State.fwFailure (s : State) (b : List Byte) (len : Nat) : Option Nat :=
  let xs := fwSections b
  let total := leAt b 12 4
  if b.take 4 ≠ [0x5A, 0x46, 0x57, 0x01] ∨ leAt b 4 2 ≠ 1 ∨ (sliceB b 18 14).any (fun x => x != 0) ∨ xs.any (fun x => !x.zero) then
    some Fw.badHeader
  else if leAt b 16 2 ≠ 0x25 then some Fw.badPart
  else if 14 * 2 ^ 20 < len ∨ xs.any (fun x => decide (x.type ≤ 4 ∧ 0x4_0000 < x.len)) ∨ 0x18_0000 < (xs.map (·.len)).sum then
    some Fw.tooLarge
  else if total ≠ len ∨ xs.length = 0 ∨ 8 < xs.length ∨ [1, 2, 3, 4, 5].any (fun t => (xs.filter (fun x => x.type == t)).length != 1)
      ∨ xs.length ≠ 5 ∨ xs.any (fun x => decide (x.off < 32 + 48 * xs.length ∨ len < x.off + x.len + sigBytes)) then some Fw.badHeader
  else if !s.verifies 0 b then some Fw.badSignature
  else if xs.any (fun x => digest32 (sliceB b x.off x.len) != x.digest) then some Fw.badDigest
  else none

/-! ### The load at start (R422, R423) -/

/-- FWC_BOOT_STATUS shows a code and the die that it names. -/
def State.bootStatus (s : State) (code d : Nat) : State := (s.sf die12 F.fwcBootStatusCode code).sf die12 F.fwcBootStatusDie d

/-- A load fails: no processor of any die runs, and FAULT_N falls (R423, R560). -/
def State.bootFail (s : State) (code d : Nat) : State :=
  let s := allProcs.foldl (fun s x => s.setProc x.1 x.2 Ps.stopped) s
  (s.bootStatus code d).fault

/-- FW_VERSION as every die shows it (R442). -/
def State.showVersion (s : State) (v : Nat) : State := allDies.foldl (fun s d => s.sf (key d 0) F.fwcFwVersion v) s

/-- The sections of a package absorbed by the data engine of every die, which checks their digests (R530): they are reached when the checks
before them pass. -/
def State.absorbPackage (s : State) (b : List Byte) (failure : Option Nat) : State :=
  if digestReached Fw.badDigest Fw.badDigest failure then
    allDies.foldl (fun s d => s.absorb d ((fwSections b).map (·.len)).sum) s
  else s

/-- The section that a restart copies into a processor's code memory, with its digest recomputed: of the active shadow bank, or of the new one from
the commit on (R427, R437). -/
def State.codeSection (s : State) (p : Nat) : List Byte :=
  let new := s.rf die12 F.fwcActStatusCode == Fw.committing
  let b := if (s.fw.active = 0) = (new = false) then s.fw.shadow0 else s.fw.shadow1
  match (fwSections b).find? (fun x => x.type == p + 1) with
  | some x => sliceB b x.off x.len
  | none => []

/-- A processor's memories as a start or restart leaves them: its section in code memory, data memory cleared, no region set yet (R419, R427, R432). -/
def State.loadProc (s : State) (d p : Nat) (code : List Byte) : State :=
  let x := s.die d
  s.setDie d { x with procs := Sparse.put (fun _ => {}) x.procs p { code := code } }

/-- FWC_BOOT_CTRL.GO of die 12: the package in its die buffer is checked and goes to every die; the processors start. Taken in phases 3
and 4; a GO after the load has succeeded does nothing. -/
def State.bootGo (s : State) : State :=
  let st := s.rf die12 F.fwcBootStatusCode
  if st = Fw.busy then s.raise die12 F.fwcBootStatusGoWhileBusy
  else if st = Fw.ok ∨ !(s.phase == 3 || s.phase == 4) then s
  else
    let s := s.sf die12 F.fwcStartStatusPhase 4
    let len := s.rf die12 F.fwcBootLen
    let b := s.bytes (dbufAddr 12 0) len
    let f := s.fwFailure b len
    let s := s.absorbPackage b f
    match f with
    | some code => s.bootFail code (if code = Fw.badDigest then 12 else 0)
    | none =>
      let s := { s with fw := { s.fw with shadow0 := b, shadow1 := [], active := 0 } }
      allProcs.foldl (fun s x => (s.setProc x.1 x.2 Ps.starting).loadProc x.1 x.2 (s.codeSection x.2)) (s.bootStatus Fw.busy 0)

def execFwcBootGo (s : State) : Result := onDie 12 s State.bootGo

/-- Every processor of the package runs, but for those that have failed. -/
def State.allReady (s : State) : Bool := allProcs.all (fun x => s.proc x.1 x.2 == Ps.running || s.proc x.1 x.2 == Ps.failed)

/-- The events that a processor's queue held are taken, oldest first (R430). -/
def State.takeEvents (s : State) (d p : Nat) : State :=
  let x := s.die d
  let held := Sparse.get (fun _ => []) x.events p
  held.foldl (fun s e => if p = healthCore then s.countEvent d e else s) (s.setDie d { x with events := Sparse.put (fun _ => []) x.events p [] })

/-- PROC_READY: a processor that starts runs; once all do, the load is OK and the library phase begins (R422, R548). After a partition reset
it takes the events that its queue held (R430, R555). -/
def State.procIsReady (s : State) (d p : Nat) : State :=
  if s.proc d p ≠ Ps.starting then s
  else
    let s := ((s.setProc d p Ps.running).loadProc d p (s.codeSection p)).takeEvents d p
    let s := if p = sessionCore then { s with ect := { s.ect with coreRan := true } } else s
    if s.rf die12 F.fwcBootStatusCode = Fw.busy ∧ s.allReady then
      ((s.bootStatus Fw.ok 0).showVersion (fwVersionOf s.fw.shadow0)).sf die12 F.fwcStartStatusPhase 5
    else s

def execProcReady (d : Die) (p : ProcNo) (s : State) : Result := onDie d s (fun s => s.procIsReady d p)

/-! ### An activation's end -/

/-- FWC_ACT_STATUS shows a code. -/
def State.actStatus (s : State) (code : Nat) : State := s.sf die12 F.fwcActStatusCode code

/-- DIE_TIMEOUT: a die does not report within 50 ms of a load: the load, or an activation that loads, fails (R423, R437). -/
def execDieTimeout (d : Die) (s : State) : Result :=
  onDie 12 s (fun s =>
    if s.rf die12 F.fwcBootStatusCode = Fw.busy then s.bootFail Fw.dieTimeout d
    else if s.rf die12 F.fwcActStatusCode = Fw.loading then s.actStatus Fw.dieTimeout
    else s)

/-! ### Restarts (R426 to R431) -/

/-- 10 s in the units of a stamp. -/
def tenSeconds : Nat := 1_000_000_000

/-- Restarts of a processor within the last 10 s (R431). -/
def State.recentRestarts (s : State) (d p : Nat) : List W64 :=
  (Sparse.get (fun _ => []) (s.die d).restarts p).filter (fun t => decide ((s.stamp d).toNat ≤ t.toNat + tenSeconds))

/-- The queues that a processor owns stall while it restarts (R352). -/
def State.stallQueues (s : State) (d p : Nat) : State :=
  let stall := fun (s : State) (q : Nat) => if s.qState q = Qs.active then s.sf (s.qBase q) F.fwcQStatusState Qs.stalled else s
  if p = sessionCore then stall s 0
  else if p = scheduler then
    (s.queues.map (·.1)).foldl (fun s q => if q ≠ 0 ∧ (s.que q).homeroom = d then stall s q else s) s
  else s

/-- The partition of a die that has failed loses it: its sessions end, its other dies are reset and form one partition for each connected
set, in RECOVERY (R431, R555). -/
def State.losePartition (s : State) (d : Nat) : State :=
  let all := s.affected (dieBit d)
  let s := s.openSessions.foldl (fun s n => if (s.ses n).dies &&& all != 0 then s.endSession n St.partitionReset else s) s
  let s := (s.deleteQueues all).answerLeaves (dieBit d)
  let s := (diesOf (all &&& ~~~ dieBit d)).foldl State.resetDie s
  { s with parts := s.parts.filter (fun p => p.dies &&& all == 0)
                    ++ (components (all &&& ~~~ dieBit d)).map (fun c => { dies := c, state := .recovery, waiting := c }) }

/-- A processor that fails: FAILED, FAULT_N, a report card, and its die leaves every partition (R431); with the
session core the EtherCAT slave goes to SAFE-OP (R489). -/
def State.failProc (s : State) (d p : Nat) : State :=
  let s := (s.setProc d p Ps.failed).fault
  let s := if s.rf die12 F.fwcActStatusCode = Fw.committing then { s with fw := { s.fw with commitRestart := true } } else s
  let s := if p = sessionCore then
      { s with ect := { s.ect with state := .safeOp, alStatus := 0x0001, coreFailed := true } }
    else s
  let s := s.report { kind := Card.procFailed, die := d, punit := d }
  let once := if s.chart.failedDies.getLsbD d then 0 else 1
  let s := { s with chart := { s.chart with failedDies := s.chart.failedDies ||| dieBit d, generation := s.chart.generation + once } }
  s.losePartition d

/-- What a restart of a processor records: cause and program counter, and an ERROR record on its behalf (R426, R435, R442). -/
def State.noteRestart (s : State) (d p cause pc : Nat) : State :=
  let b := procBase d p
  let s := ((s.sf b F.fwcProcCause cause).sf b F.fwcProcPc pc).bump b F.fwcProcRestarts 1
  let x := s.die d
  let s := s.setDie d { x with restarts := Sparse.put (fun _ => []) x.restarts p (x.stamp :: s.recentRestarts d p) }
  let s := s.logAlways d p 0 noSessionMark 1 cause
  if s.rf die12 F.fwcActStatusCode = Fw.committing ∧ cause ≠ Cause.activation then { s with fw := { s.fw with commitRestart := true } } else s

/-- A processor restarts (R426, R427): during the boot load that fails it (R441); the fourth restart within 10 s fails the processor
(R431); one during a restart counts, and the restart goes on from its start. -/
def State.restartProc (s : State) (d p cause pc : Nat) : State :=
  let st := s.proc d p
  if !hasProc d p || st == Ps.stopped || st == Ps.failed then s
  else if s.rf die12 F.fwcBootStatusCode = Fw.busy then (s.noteRestart d p cause pc).bootFail Fw.procFail d
  else
    let many := decide (3 ≤ (s.recentRestarts d p).length)
    let s := s.noteRestart d p cause pc
    if many then (s.stallQueues d p).failProc d p else ((s.setProc d p Ps.restarting).loadProc d p (s.codeSection p)).stallQueues d p

def execWatchdog (d : Die) (p : ProcNo) (pc : W32) (s : State) : Result :=
  onDie d s (fun s => s.restartProc d p Cause.watchdog pc.toNat)

/-- Does a region of a processor permit every access to an address (R432)? -/
def State.permits (s : State) (d p addr : Nat) : Bool :=
  (Sparse.get (fun _ => {}) (s.die d).procs p : ProcMem).regions.any (fun r =>
    decide (r.base ≤ addr) && decide (addr < r.base + r.size) && r.read && r.write && r.exec)

/-- PROTECTION: an access that no region permits is not made, and FWC_PROC_MPU records its address (R432). -/
def execProtection (d : Die) (p : ProcNo) (pc addr : W32) (s : State) : Result :=
  onDie d s (fun s =>
    let st := s.proc d p
    if !hasProc d p || st == Ps.stopped || st == Ps.failed || s.permits d p addr.toNat then s
    else (s.sf (procBase d p) F.fwcProcMpu addr.toNat).restartProc d p Cause.protection pc.toNat)

def execMemoryUe (d : Die) (p : ProcNo) (pc : W32) (s : State) : Result :=
  onDie d s (fun s => s.restartProc d p Cause.memoryUe pc.toNat)

def execIllegal (d : Die) (p : ProcNo) (pc : W32) (s : State) : Result :=
  onDie d s (fun s => s.restartProc d p Cause.illegal pc.toNat)

/-- FWC_PROC_CTRL.RESTART: ignored with RESTART_WHILE_RESTARTING while the processor restarts (R441). -/
def State.hostRestart (s : State) (d p pc : Nat) : State :=
  if hasProc d p && s.proc d p == Ps.restarting then s.raise (procBase d p) F.fwcProcStatusRestartWhileRestarting
  else s.restartProc d p Cause.host pc

def execRestart (d : Die) (p : ProcNo) (pc : W32) (s : State) : Result := onDie d s (fun s => s.hostRestart d p pc.toNat)

/-- Once every processor runs after the commit, the new version shows, and the 100 ms in which none may restart begin (R437). -/
def State.showCommitted (s : State) : State :=
  if s.rf die12 F.fwcActStatusCode = Fw.committing ∧ s.allReady then
    let s := s.showVersion (fwVersionOf (if s.fw.active = 0 then s.fw.shadow1 else s.fw.shadow0))
    { s with fw := { s.fw with readyStamp := some (s.fw.readyStamp.getD (s.stamp 12)) } }
  else s

/-- PROC_RESTART_DONE: the processor runs again; its queues go on, drops left to it are carried out, and it takes its events (R352, R353,
R427 to R430, R435). -/
def State.restartDone (s : State) (d p : Nat) : State :=
  if s.proc d p ≠ Ps.restarting then s
  else
    let s := (s.setProc d p Ps.running).log d p 2 noSessionMark 2 0
    let s := s.takeEvents d p
    let s := if p = healthCore then s.setDie d { s.die d with recessAt := s.stamp d } else s
    let s := if p = scheduler then s.openSessions.foldl (fun s n =>
        if (s.ses n).homeroom = d then s.catchUp n else s) s else s
    let s := if p = sessionCore then s.unstall 0
      else if p = scheduler then
        (s.queues.map (·.1)).foldl (fun s q => if q ≠ 0 ∧ (s.que q).homeroom = d then s.unstall q else s) s
      else s
    s.showCommitted

/-! ### Activating an update (R437, R438) -/

/-- An emergency is present on some die (R438). -/
def State.emergencyNow (s : State) : Bool := allDies.any (fun d => s.bit (key d 0) F.pwrStatusEmergency)

/-- An emergency that is present now: an activation that waits shows it (R438). -/
def State.noteEmergency (s : State) : State :=
  let now := s.stamp 12
  let s := { s with fw := { s.fw with lastEmergency := some now } }
  let st := s.rf die12 F.fwcActStatusCode
  if st = Fw.loading ∨ st = Fw.waitEmergency then
    { (s.actStatus Fw.waitEmergency) with fw := { s.fw with firstEmergency := some (s.fw.firstEmergency.getD now) } }
  else s

/-- Every processor of every die restarts with cause ACTIVATION (R437); where its program counter stood is open (notes/assumptions/39.md). -/
def State.restartAll (s : State) : State :=
  allProcs.foldl (fun s x => s.free.2.restartProc x.1 x.2 Cause.activation (s.free.1.toNat % 2 ^ 32)) s

/-- The old firmware runs on: every processor restarts from the old bank (R437). -/
def State.rollBack (s : State) : State :=
  let s := (s.actStatus Fw.rolledBack).restartAll
  s.showVersion (fwVersionOf (if s.fw.active = 0 then s.fw.shadow0 else s.fw.shadow1))

/-- PROC_FAIL: a processor does not report ready within 2 ms: a load fails (R423), an activation after its commit rolls back (R437). -/
def execProcFail (d : Die) (p : ProcNo) (s : State) : Result :=
  onDie 12 s (fun s =>
    if !hasProc d p then s
    else if s.rf die12 F.fwcBootStatusCode = Fw.busy ∧ s.proc d p = Ps.starting then s.bootFail Fw.procFail d
    else if s.rf die12 F.fwcActStatusCode = Fw.committing ∧ s.proc d p = Ps.restarting then s.rollBack
    else s)

/-- FWC_ACT_CTRL.GO on die 12: the package is read over the host route and checked, and every die writes it into its inactive bank; ignored
before a load has succeeded and while an activation is in progress. -/
def State.actGo (s : State) : State :=
  if s.rf die12 F.fwcBootStatusCode ≠ Fw.ok ∨ s.activating then s
  else if s.anySession then s.actStatus Fw.actBusy
  else
    let len := s.rf die12 F.fwcActLen
    let r := s.hostRead 12 (s.rf die12 F.fwcActSrcLo + s.rf die12 F.fwcActSrcHi * 2 ^ 32) len
    let s := s.askHost 12 (s.rf die12 F.fwcActSrcLo + s.rf die12 F.fwcActSrcHi * 2 ^ 32) len
    if r.2 then s.actStatus Fw.hostReadFail
    else
      let f := s.fwFailure r.1 len
      let s := s.absorbPackage r.1 f
      match f with
      | some code => s.actStatus code
      | none =>
        let fw := if s.fw.active = 0 then { s.fw with shadow1 := r.1 } else { s.fw with shadow0 := r.1 }
        let s := { (s.actStatus Fw.loading) with fw := { fw with firstEmergency := none, commitStamp := none, readyStamp := none, commitRestart := false } }
        if s.emergencyNow then s.noteEmergency else s

def execFwcActGo (s : State) : Result := onDie 12 s State.actGo

/-- FWC_ACT_CTRL.ABORT: ends an activation before its commit (R437). -/
def State.actAbort (s : State) : State :=
  let st := s.rf die12 F.fwcActStatusCode
  if st = Fw.loading ∨ st = Fw.waitEmergency then s.actStatus Fw.aborted else s

def execFwcActAbort (s : State) : Result := onDie 12 s State.actAbort

/-- 100 ms in the units of a stamp. -/
def hundredMs : Nat := 10_000_000

/-- ACT_COMMIT: no emergency on any die for the last 100 ms: every processor restarts from the new bank (R437, R438). -/
def State.actCommitNow (s : State) : State :=
  let st := s.rf die12 F.fwcActStatusCode
  let now := s.stamp 12
  let quiet := !s.emergencyNow && (match s.fw.lastEmergency with | some t => decide (t.toNat + hundredMs ≤ now.toNat) | none => true)
  if (st = Fw.loading ∨ st = Fw.waitEmergency) ∧ quiet then
    let s := { (s.actStatus Fw.committing) with fw := { s.fw with commitStamp := some now, readyStamp := none, commitRestart := false } }
    s.restartAll
  else s

def execActCommit (s : State) : Result := onDie 12 s State.actCommitNow

/-- EMERGENCY_TIMEOUT: 10 s after the first emergency of the activation, with no commit made (R438). -/
def execEmergencyTimeout (s : State) : Result :=
  onDie 12 s (fun s =>
    let st := s.rf die12 F.fwcActStatusCode
    match s.fw.firstEmergency with
    | some t =>
      if (st = Fw.loading ∨ st = Fw.waitEmergency) ∧ t.toNat + tenSeconds ≤ (s.stamp 12).toNat then s.actStatus Fw.emergencyTimeout else s
    | none => s)

/-- ACT_CONFIRM: the new bank is active 100 ms after every processor has reported ready when none has restarted since the commit; once one has, or has
failed, every processor rolls back (R437). -/
def State.actConfirmNow (s : State) : State :=
  if s.rf die12 F.fwcActStatusCode ≠ Fw.committing then s
  else if s.fw.commitRestart then s.rollBack
  else
    match s.fw.readyStamp with
    | none => s
    | some t =>
      if (s.stamp 12).toNat < t.toNat + hundredMs then s
      else { (s.actStatus Fw.done) with fw := { s.fw with active := 1 - s.fw.active } }

def execActConfirm (s : State) : Result := onDie 12 s State.actConfirmNow

end Sys2Proof.Machine
end

