-- ==== Sys2Proof/Machine/StartUp.lean ====
section
/-!
DEFINITION. Package reset and the phases of a start (R545 to R552), the admin queue (R564), and partition resets that the host requests
(R554, R555).
-/

namespace Sys2Proof.Machine

/-! ### Package reset (R545, R546) -/

/-- Memory that a package reset leaves alone: CXL expanders and host memory; SRAM is zeroed (R361), and GDDR7 contents are undefined after it,
which the model shows as memory with nothing listed (R371; notes/assumptions/2.md). -/
def survives (a : Nat) : Bool :=
  decide (0x1_0000_0000_0000 ≤ a ∧ a < 0x1_0400_0000_0000) || decide (0x4_0000_0000_0000 ≤ a ∧ a < 0x8_0000_0000_0000)

/-- Every block of every die reset: what stays is outside the package's volatile state, the latch of a thermal trip (R522), the commands that
wait, the TAPs (R559), what has been sent and the save records that the host keeps. -/
def State.wiped (s : State) : State :=
  { State.reset with
    mem := s.mem.filter (fun e => survives e.1)
    poison := s.poison.filter (fun l => survives (l * 64))
    flash := s.flash
    dies := (s.dies.filter (fun e => e.2.tripped)).map (fun e => (e.1, { tripped := true }))
    sec := { revokedFw := s.sec.revokedFw, revokedExam := s.sec.revokedExam }
    pkg := { archived := s.pkg.archived, thermtripN := s.pkg.thermtripN }
    jtag := s.jtag
    out := s.out
    saves := s.saves
    fresh := s.fresh
    pending := s.pending }

/-- The package in package reset. -/
def State.packageReset (s : State) (low key_ : Bool) : State :=
  let s := s.wiped
  { s with pkg := { s.pkg with resetLow := low, keyReset := key_ } }

/-- PACKAGE_RESET: VDD_AUX rises, or RESET_N is low for 1 µs. -/
def execPackageReset (s : State) : Result := .next (s.packageReset true false)

/-- FWC_PKG_RESET: the key value causes a package reset; other values are ignored. -/
def execFwcPkgReset (v : W32) (s : State) : Result :=
  onDie 12 s (fun s => if v = 0x5053_5421 then s.packageReset false true else s)

/-- The package leaves reset and enters the hardware phase; a drain record in flash shows DRAINED (R464), and HLT_LIB_VERSION shows the
version of the active bank. -/
def State.leaveReset (s : State) : State :=
  let v := if s.selectedBank.isSome then leNat (s.flashBytes (selectBase + 4) 4) else 0
  let d := s.hasDrainRecord
  let s := { s with pkg := { s.pkg with resetLow := false, keyReset := false, drained := d, drainedN := !d } }
  s.sf die12 F.hltLibVersion v

/-- RESET_N rises (R546). -/
def execResetNRise (s : State) : Result := .next (if s.pkg.powered && s.pkg.resetLow then s.leaveReset else s)

/-- 10 µs after a key write (R546). -/
def execPackageResetRelease (s : State) : Result :=
  .next (if s.pkg.powered && s.pkg.keyReset && !s.pkg.resetLow then s.leaveReset else s)

/-- VDD_AUX removed: the package is unpowered and holds nothing (R43); the trip latch is lost (R522), and VDD_AUX has to rise again. -/
def execVddAuxRemoved (s : State) : Result :=
  let s := s.wiped
  .next { s with dies := [], jtag := {}, pkg := { archived := s.pkg.archived, powered := false } }

/-! ### The phases (R548) -/

/-- The phase of FWC_START_STATUS changed. -/
def State.setPhase (s : State) (p : Nat) : State := s.sf die12 F.fwcStartStatusPhase p

/-- The end of the hardware phase: the identity check (R532), and SKEY drawn, as 0 when die 12's source has failed its health test (R537). -/
def State.hardwareDone (s : State) (identityOk : Bool) : State :=
  if s.phase ≠ 1 then s
  else
    let s := { s with sec := { s.sec with identityFault := !identityOk } }
    let r := s.free
    let v := if s.bit die12 F.secErrRngHealth then 0 else r.1.toNat
    ((r.2.sf die12 F.hltSkeyLo (v % 2 ^ 32)).sf die12 F.hltSkeyHi (v / 2 ^ 32)).setPhase 2

def execStartupHardwareDone (identityOk : Bool) (s : State) : Result := onPackage s (fun s => s.hardwareDone identityOk)

/-- The links that get the host role: those with an MHA-4 partner, in ascending number, on 4 distinct dies (R399). -/
def hostRoles (found : List Training) : List Nat :=
  let mha := (List.range 40).filter (fun l => found.any (fun t => t.link.val == l &&
    (match t.partner with | .mha4 _ _ => true | _ => false)))
  mha.foldl (fun ls l => if 4 ≤ ls.length ∨ ls.any (fun k => linkDie k == linkDie l) then ls else ls ++ [l]) []

/-- LINK_TRAINING_DONE: the roles are set, every link ends its training, and the package waits for firmware; without an MHA-4 it stays there
(R399, R548). -/
def State.linksTrained (s : State) (found : List Training) : State :=
  if s.phase ≠ 2 then s
  else
    let hosts := hostRoles found
    let s := hosts.foldl (fun s l => s.sf (lnkBase l) F.lnkCfgRole 2) s
    let s := (List.range 40).foldl (fun s l =>
      match found.find? (fun t => t.link.val == l) with
      | some t => s.trainLink t
      | none => s) s
    (if hosts.isEmpty then s.raise die12 F.fwcStartStatusNoHostLink else s).setPhase 3

def execLinkTrainingDone (found : List Training) (s : State) : Result := onPackage s (fun s => s.linksTrained found)

/-- A bank's library passes the checks of R480 at a start, where no version is a floor. -/
def State.bankPasses (s : State) (bank : Nat) : Bool :=
  let n := min (leNat (s.flashBytes (bankBase bank + 12) 4)) bankSize
  (s.libFailure (s.flashBytes (bankBase bank) n) n none).isNone

/-- The library of a bank absorbed by the data engine as it is checked (R530). -/
def State.absorbBank (s : State) (bank : Nat) : State :=
  let n := min (leNat (s.flashBytes (bankBase bank + 12) 4)) bankSize
  let b := s.flashBytes (bankBase bank) n
  s.absorb 12 (if digestReached Lib.badDigest Lib.badSignature (s.libFailure b n none) then n - sigBytes - 64 else 0)

/-- LIBRARY_SELECT: the active bank, or else the other one, is used; with neither the package waits (R549). A select record that names no
bank counts as bank 0 (notes/assumptions/33.md). -/
def State.selectLibrary (s : State) : State :=
  let active := s.selectedBank.getD 0
  if s.phase ≠ 5 then s
  else if s.bankPasses active then (s.absorbBank active).libraryReady active
  else if s.bankPasses (1 - active) then (((s.absorbBank active).absorbBank (1 - active)).raise die12 F.fwcStartStatusLibFallback).libraryReady (1 - active)
  else ((s.absorbBank active).absorbBank (1 - active)).raise die12 F.fwcStartStatusNoLibrary

def execLibrarySelect (s : State) : Result := onPackage s State.selectLibrary

/-- The clusters that a start examines: those of every enabled region (R550). -/
def examined : List ClusterId :=
  (List.finRange 25).flatMap (fun d => (clustersOf d).filter (fun c => !fused d c.region))

/-- One cluster's start-up exam: a pass is noted, a failure has its card (R550). -/
def State.startUpExam (s : State) (failed : List ClusterId) (c : ClusterId) : State :=
  let s := s.bump (key c.die 0) F.hltExamDone 1
  let s := { s with ect := { s.ect with examsDone := hold32 s.ect.examsDone 1 } }
  let s := s.setCl c { s.cl c with lastExam := s.stamp c.die }
  if failed.contains c then
    (s.raise (key c.die 0) F.hltErrExamFail).report { kind := Card.examFail, die := c.die, cluster := some c, startUp := true }
  else s.setCl c { s.cl c with lastPass := s.stamp c.die }

/-- STARTUP_EXAMS_DONE: the seventeen rounds have ended, which an emergency of a die delays (R550, R557); the chart waits for memory training
(R548). -/
def State.examsEnded (s : State) (failed : List ClusterId) : State :=
  if s.phase ≠ 6 || s.pkg.examsDone || s.emergencyNow then s
  else
    let s := (examined.foldl (fun s c => s.startUpExam failed c) s).setSupplies s.vWanted
    let s := { s with pkg := { s.pkg with examsDone := true, failedExam := failed } }
    if s.pkg.trained then s.setPhase 7 else s

def execStartupExamsDone (failed : List ClusterId) (s : State) : Result := onPackage s (fun s => s.examsEnded failed)

/-- What training shows of one die's devices: a device that fails, or whose density is not its partner's, is absent (R363, R387). -/
def State.showGddr (s : State) (t : GddrTraining) : State :=
  let d := t.die.val
  if !isPerimeter d then s
  else
    let differ := t.dev0.val ≠ 0 ∧ t.dev1.val ≠ 0 ∧ t.dev0 ≠ t.dev1
    let bad := fun (x : Fin 3) => decide (x.val = 0 ∨ differ)
    let absent := b2n (bad t.dev0) + 2 * b2n (bad t.dev1)
    let b := key d 0
    let s := (s.sf b F.memGdStatusTrained (3 - absent)).sf b F.memGdStatusAbsent absent
    s.sf b F.memGdCfgDensity (if absent = 0 then t.dev0.val else 0)

/-- What training shows of a CXL port (R372, R373, R375). -/
def State.showCxl (s : State) (port width gib : Nat) : State :=
  let b := key (corners.getD port 0) 0
  let up := width = 8 ∨ width = 16
  let s := (s.flag b F.memCxlStatusLinkUp up).sf b F.memCxlStatusWidth (if up then width else 0)
  (s.flag b F.memCxlStatusDevicePresent up).sf b F.memCxlStatusGib (if up then min gib 1024 else 0)

/-- GDDR7_TRAINING_DONE: after phase 4, once (R548); a perimeter die of which nothing is reported has no device. -/
def State.memoryTrained (s : State) (gddr : List GddrTraining) (cxl : List CxlTraining) : State :=
  if s.phase < 5 || s.pkg.trained then s
  else
    let s := perimeter.foldl (fun s d => s.sf (key d 0) F.memGdStatusAbsent 3) s
    let s := gddr.foldl (fun s t => if s.bit (key t.die 0) F.pwrStatusRefclkLost then s else s.showGddr t) s
    let s := cxl.foldl (fun s t => s.showCxl t.port t.width t.gib) s
    let s := { s with pkg := { s.pkg with trained := true } }
    if s.pkg.examsDone then s.setPhase 7 else s

def execGddr7TrainingDone (gddr : List GddrTraining) (cxl : List CxlTraining) (s : State) : Result :=
  onPackage s (fun s => s.memoryTrained gddr cxl)

/-! ### The seating chart (R472) -/

/-- The region word with every slot DISABLED. -/
def allDisabled : Nat := ((List.range 17).map (fun k => 3 * 2 ^ (3 * k))).sum

/-- The region word that R472 builds, and whether the region is LOST, from the slots that failed. -/
def buildRegion (bad : List Nat) : Nat × Bool :=
  let f := bad.filter (fun k => decide (k < 16))
  match f with
  | [] => (if bad.contains 16 then 3 * 2 ^ 48 else 1 * 2 ^ 48, false)
  | [k] => if bad.contains 16 then (allDisabled, true) else (3 * 2 ^ (3 * k) + 2 * 2 ^ 48 + 2 ^ 51 + k * 2 ^ 52, false)
  | _ => (allDisabled, true)

/-- The slots of a region that failed their exam, or that the drain record lists under OVERRIDE (R465). -/
def State.badSlots (s : State) (listed : List Nat) (d r : Nat) : List Nat :=
  (List.range 17).filter (fun sl => s.pkg.failedExam.any (fun c => c.die.val == d && c.region.val == r && c.slot.val == sl)
    || listed.any (fun p => p % 8192 == punitOf d r sl 0))

/-- A region's entry of the chart built. -/
def State.chartRegion (s : State) (listed : List Nat) (ch : Chart) (d r : Nat) : Chart :=
  let w := if fused d r then (allDisabled, false) else buildRegion (s.badSlots listed d r)
  { ch with regions := Sparse.put (fun _ => 0) ch.regions (8 * d + r) (BitVec.ofNat 64 w.1)
            lost := if w.2 then NatSet.insert ch.lost (8 * d + r) else ch.lost }

/-- The chart of this start. -/
def State.buildChart (s : State) (listed : List Nat) : Chart :=
  let ch := s.chart
  let ch := { ch with built := true, generation := ch.generation + 1, buildStamp := s.stamp 12 }
  let ch := allDies.foldl (fun ch d => (List.range 8).foldl (fun ch r => s.chartRegion listed ch d r) ch) ch
  perimeter.foldl (fun ch d =>
    { ch with gdAbsent := Sparse.put (fun _ => 0) ch.gdAbsent d (BitVec.ofNat 2 (s.rf (key d 0) F.memGdStatusAbsent)) }) ch

/-- CHART_BUILD: the chart, a partition for each connected set of dies not FAILED, and READY unless DRAINED; OVERRIDE admits sessions
although a drain record is held (R464, R472, R552). -/
def State.chartDone (s : State) : State :=
  if s.phase ≠ 7 then s
  else
    let over_ := s.bit die12 F.hltDrainCtrlOverride && s.hasDrainRecord
    let listed := if over_ then s.drainPunits else []
    let drained := s.pkg.drained && !over_ || s.pkg.drain.isSome
    let s := { s with chart := s.buildChart listed }
    let s := { s with
      pkg := { s.pkg with drained := drained, drainedN := !drained, ready := !drained }
      parts := (components (~~~ s.chart.failedDies)).map (fun m => { dies := m, state := .service }) }
    let s := s.flag die12 F.hltStatusOverride over_
    s.setPhase 8

def execChartBuild (s : State) : Result := onPackage s State.chartDone

/-! ### The admin queue (R564) -/

/-- FWC_ADMIN_CTRL.ENABLE: queue 0, owned by the session core, becomes ACTIVE on the rings of FWC_ADMIN_*; STALLED while that core
restarts (R352). -/
def State.adminEnable (s : State) : State :=
  if s.rf die12 F.fwcBootStatusCode ≠ Fw.ok ∨ s.qState 0 ≠ Qs.unused then s
  else
    let sq := s.rf die12 F.fwcAdminSqLo + s.rf die12 F.fwcAdminSqHi * 2 ^ 32
    let cq := s.rf die12 F.fwcAdminCqLo + s.rf die12 F.fwcAdminCqHi * 2 ^ 32
    let a := s.rf die12 F.fwcAdminSizeSq
    let b := s.rf die12 F.fwcAdminSizeCq
    if sq % 4096 ≠ 0 ∨ cq % 4096 ≠ 0 ∨ a < 4 ∨ 16 < a ∨ b < 4 ∨ 16 < b then s.raise die12 F.fwcAdminCtrlBadAdmin
    else
      let s := (s.clearQueueRegs (s.qBase 0)).setQue 0 { sq := sq, cq := cq, sqLog2 := a, cqLog2 := b, homeroom := 12 }
      ((s.sf (s.qBase 0) F.fwcQStatusState (s.firstQState 0)).sf (s.qBase 0) F.fwcQOwnerHomeroom 12).sf (s.qBase 0) F.fwcQOwnerCore 1

def execFwcAdminEnable (s : State) : Result := onDie 12 s State.adminEnable

/-! ### Partition resets (R554, R555) -/

/-- FWC_PART_STATUS.BUSY: a partition reset is in progress. -/
def State.partBusy (s : State) : Bool := s.parts.any (fun p => p.waiting != 0)

/-- FWC_PART_CTRL.RESET: before a partition is formed it is ignored (notes/assumptions/33.md); a partition that poison keeps in START-UP
stays there until a package reset (R556). -/
def State.partReset (s : State) : State :=
  let m := BitVec.ofNat 25 (s.rf die12 F.fwcPartDies)
  if s.phase ≠ 8 then s
  else if s.partBusy then s.raise die12 F.fwcPartStatusPartWhileBusy
  else if !connected m || m &&& s.chart.failedDies != 0 then s.raise die12 F.fwcPartStatusBadMask
  else
    let looped := s.parts.any (fun p => p.dies &&& m != 0 && decide (3 ≤ p.poisonResets))
    s.resetPartition m (if looped then 3 else 0)

def execFwcPartReset (s : State) : Result := onDie 12 s State.partReset

/-- The firmware cores of a die that a partition reset restarts all run. -/
def State.coresRun (s : State) (d : Nat) : Bool := [scheduler, serviceCore, healthCore].all (s.procRuns d)

/-- PARTITION_READY: every member core of a die's partition is ready: START-UP, and a RECOVERY that no drain caused, end in SERVICE, or in RECOVERY
while the package is DRAINED or DRAINING (R328, R555). -/
def State.partReady (s : State) (d : Nat) : State :=
  match s.partOf d with
  | none => s
  | some p =>
    if p.waiting = 0 || !(diesOf p.dies).all s.coresRun then s
    else
      s.modPart d (fun p =>
        if (p.state ≠ .startUp ∧ p.state ≠ .recovery) ∨ 3 ≤ p.poisonResets then { p with waiting := 0 }
        else if s.pkg.drained || s.pkg.drain.isSome then { p with waiting := 0, state := .recovery, poisonResets := 0 }
        else { p with waiting := 0, state := .service, poisonResets := 0 })

def execPartitionReady (d : Die) (s : State) : Result := onDie d s (fun s => s.partReady d)

end Sys2Proof.Machine
end

