-- ==== Sys2Proof/Machine/Memory.lean ====
section
/-!
DEFINITION. The service core's work on translation faults (R382 to R385), invalidations (R381), writes through the SRAM aperture (R360),
refresh and patrol of GDDR7 (R366, R367), and CXL ports that go down and come back (R375).
-/

namespace Sys2Proof.Machine

/-! ### Fault records (R382, R383) -/

/-- The 32 bytes of a fault record. -/
def faultBytes (d : Nat) (f : FaultRecord) (phase : Bool) : List Byte :=
  natLe 4 f.id.toNat ++ natLe 2 f.session ++ natLe 1 f.kind ++ natLe 1 (b2n f.write + 2 * b2n phase) ++ natLe 8 (f.va % 2 ^ 48)
    ++ natLe 1 f.level ++ natLe 1 d ++ natLe 2 f.lclus.toNat ++ natLe 2 f.queues.length ++ natLe 2 0 ++ natLe 8 f.entry.toNat

/-- Records of the fault ring of a die. -/
def State.faultSize (s : State) (d : Nat) : Nat := 2 ^ s.rf (key d 0) F.memFaultSize

/-- A fault record of a die changed. -/
def State.setFault (s : State) (d : Nat) (f : FaultRecord) : State :=
  let x := s.die d
  s.setDie d { x with faults := x.faults.map (fun g => if g.id = f.id then f else g) }

/-- A record written into the ring, or held with FAULT_RING_FULL when the ring is full (R385). -/
def State.writeFault (s : State) (d : Nat) (f : FaultRecord) : State :=
  let x := s.die d
  let size := s.faultSize d
  if size ≤ x.faultWritten - x.faultRead then s.raise (key d 0) F.memFaultErrFaultRingFull
  else
    let i := x.faultWritten % size
    let base := s.rf (key d 0) F.memFaultRingLo + s.rf (key d 0) F.memFaultRingHi * 2 ^ 32
    let s := s.setFault d { f with ring := true }
    let s := s.setDie d { s.die d with faultWritten := x.faultWritten + 1 }
    let s := s.sf (key d 0) F.memFaultTail ((x.faultWritten + 1) % size)
    (s.hostWrite d noSessionMark (base + 32 * i) (faultBytes d f (phaseOf x.faultWritten size))).1

/-- The records that are held, as far as there is room, oldest first. -/
def State.writeFaults (s : State) (d : Nat) : State :=
  ((s.die d).faults.filter (fun f => !f.ring)).foldl (fun s f => s.writeFault d f) s

/-- The service core walks the tables again for a parked queue (R382, R384). -/
def State.retryWalk (s : State) (c : ClusterId) (q : Nat) : Bool × State :=
  match (s.fq c q).fault with
  | none => (true, s)
  | some f =>
    let t := s.noteWalk c.die (s.fqSession c q) f.va f.write
    (match s.walk c.die (s.fqSession c q) f.va f.write with | .ok _ _ => true | .fault _ _ _ => false, t)

/-- The queues of a die that are parked on a session's page and that no open record names. -/
def State.parkedOn (s : State) (d n page : Nat) : List (ClusterId × Nat) :=
  let named := (s.die d).faults.flatMap (·.queues)
  s.fetch.filterMap (fun e =>
    match engineAt (e.1 / 64), e.2.fault with
    | some c, some f =>
      if c.die.val = d ∧ s.fqState c (e.1 % 64) = Fq.parkedFault ∧ s.fqSession c (e.1 % 64) = n ∧ f.va / 2 ^ 16 = page ∧ !named.contains e.1 then
        some (c, e.1 % 64)
      else none
    | _, _ => none)

/-- SERVICE_FAULT_REPORT: a second walk that succeeds resumes the queues parked on the fault; otherwise the queue joins the open record of
its session and page, or a new record is written. -/
def State.faultReport (s : State) (c : ClusterId) (q : Nat) : State :=
  let d := c.die.val
  let n := s.fqSession c q
  match (s.fq c q).fault with
  | none => s
  | some f =>
    if s.fqState c q ≠ Fq.parkedFault ∨ !s.procRuns d serviceCore ∨ (s.die d).faults.any (fun g => g.queues.contains (c.fetchNo q)) then s
    else
      let page := f.va / 2 ^ 16
      let r := s.retryWalk c q
      if r.1 then
        (s.parkedOn d n page).foldl (fun s p =>
          let w := s.retryWalk p.1 p.2
          if w.1 then w.2.resumeQueue p.1 p.2 else w.2) s
      else
        match (s.die d).faults.find? (fun g => g.session == n && g.va / 2 ^ 16 == page) with
        | some g => r.2.setFault d { g with queues := g.queues ++ [c.fetchNo q] }
        | none =>
          let x := r.2.die d
          let g : FaultRecord := { id := x.faultNext, session := n, kind := f.kind, write := f.write, va := f.va, level := f.level,
                                   lclus := BitVec.ofNat 16 (s.lclusOfCluster c), queues := [c.fetchNo q], entry := f.entry }
          (r.2.setDie d { x with faults := x.faults ++ [g], faultNext := x.faultNext + 1 }).writeFaults d

def execServiceFaultReport (c : ClusterId) (q : FetchNo) (s : State) : Result := onDie c.die s (fun s => s.faultReport c q)

/-- The queues of a record that is closed: each is resumed when it is not to give up and its walk succeeds, and given up otherwise. -/
def State.closeRecord (s : State) (d : Nat) (f : FaultRecord) (giveUp : Bool) : State :=
  let x := s.die d
  let s := s.setDie d { x with faults := x.faults.filter (fun g => g.id != f.id) }
  f.queues.foldl (fun s no =>
    match engineAt (no / 64) with
    | none => s
    | some c =>
      if s.fqState c (no % 64) ≠ Fq.parkedFault then s
      else if giveUp then s.giveUpQueue c (no % 64)
      else
        let w := s.retryWalk c (no % 64)
        if w.1 then w.2.resumeQueue c (no % 64) else w.2.giveUpQueue c (no % 64)) s

/-- An answer to an open record of a die: the service core acts on it, after its restart when it restarts (R384, R429). -/
def State.answerFault (s : State) (d : Nat) (f : FaultRecord) (giveUp : Bool) : State :=
  if s.rf (procBase d serviceCore) F.fwcProcStatusState = Ps.restarting then
    s.setDie d { s.die d with answers := (s.die d).answers ++ [(f.id, giveUp)] }
  else s.closeRecord d f giveUp

/-- The service core of a die runs again: it acts on the answers that came meanwhile, in order, each to a record that is still open (R429). -/
def State.answersDue (s : State) (d : Nat) : State :=
  (s.die d).answers.foldl (fun s a =>
    match (s.die d).faults.find? (fun f => f.id == a.1) with
    | some f => s.closeRecord d f a.2
    | none => s) (s.setDie d { s.die d with answers := [] })

/-- A write of MEM_FAULT_RESP: FAULT_ID names a record that has been written and is open, or STALE_RESP is set (R384). -/
def State.faultResp (s : State) (d : Nat) (v : W32) : State :=
  match (s.die d).faults.find? (fun f => f.ring && f.id.toNat % 65536 == getF v 15 0) with
  | none => s.raise (key d 0) F.memFaultErrStaleResp
  | some f => s.answerFault d f (getF v 16 16 == 1)

def execFaultResponse (d : Die) (v : W32) (s : State) : Result := onDie d s (fun s => s.faultResp d v)

def execFaultGiveUp (d : Die) (v : W32) (s : State) : Result := onDie d s (fun s => s.faultResp d v)

/-- FAULT_LIMIT_EXPIRY: MEM_FAULT_LIMIT has passed since the record was written (R384, R385). -/
def execFaultLimitExpiry (d : Die) (id : W32) (s : State) : Result :=
  onDie d s (fun s =>
    match (s.die d).faults.find? (fun f => f.ring && f.id == id) with
    | none => s
    | some f => s.answerFault d f true)

/-- MEM_FAULT_HEAD: the records up to the index written are consumed, and held records are written (R385). An index that the ring does not
have, or past the records written, changes nothing (notes/assumptions/34.md). -/
def State.faultHead (s : State) (d : Nat) (v : W32) : State :=
  let x := s.die d
  let size := s.faultSize d
  let i := getF v 11 0
  let held := x.faultWritten - x.faultRead
  let step := (i + size - x.faultRead % size) % size
  let step := if step = 0 ∧ held = size then size else step
  if size ≤ i ∨ held < step then s
  else ((s.setDie d { x with faultRead := x.faultRead + step }).sf (key d 0) F.memFaultHead i).writeFaults d

def execMemFaultHeadWrite (d : Die) (v : W32) (s : State) : Result := onDie d s (fun s => s.faultHead d v)

/-! ### Invalidations (R381) -/

/-- The requests in flight on a partition's dies that were translated through an entry that an invalidation drops (R381). -/
def State.markOld (s : State) (dies : BitVec 25) (i : Invalidation) : State :=
  { s with fetch := s.fetch.map (fun e =>
      match engineAt (e.1 / 64) with
      | some c => if dies.getLsbD c.die then
          (e.1, { e.2 with inflight := e.2.inflight.map (fun r =>
            if r.pages.any (i.covers (s.fqSession c (e.1 % 64))) then { r with old := true } else r) })
        else e
      | none => e) }

/-- The dies of the partition of a die, or the die alone. -/
def State.partDies (s : State) (d : Nat) : BitVec 25 := match s.partOf d with | some p => p.dies | none => dieBit d

/-- GO of MEM_INV_CTRL: the range of MEM_INV_LO, MEM_INV_HI and MEM_INV_LEN, or every translation of the session. -/
def State.invGo (s : State) (d : Nat) : State :=
  let b := key d 0
  let n := s.rf b F.memInvCtrlSession
  if s.bit b F.memInvStatusBusy then s.raise b F.memInvStatusInvWhileBusy
  else if (s.ses n).kind = .none ∨ (s.ses n).homeroom ≠ d then s.raise b F.memInvStatusInvBadSession
  else
    let i : Invalidation := { session := n, first := (s.rf b F.memInvLo + s.rf b F.memInvHi * 2 ^ 32) / 2 ^ 16,
                              pages := s.rf b F.memInvLen, all := s.bit b F.memInvCtrlAll }
    if !i.all ∧ i.pages = 0 then s
    else ((s.markOld (s.partDies d) i).setDie d { s.die d with invalid := some i }).sf b F.memInvStatusBusy 1

def execMemInvGo (d : Die) (s : State) : Result := onDie d s (fun s => s.invGo d)

/-- Is a request in flight that was translated through an entry that an invalidation drops, before that began? -/
def State.oldRequests (s : State) (dies : BitVec 25) (i : Invalidation) : Bool :=
  s.fetch.any (fun e =>
    match engineAt (e.1 / 64) with
    | none => false
    | some c => dies.getLsbD c.die && e.2.inflight.any (fun r => r.old && r.pages.any (i.covers (s.fqSession c (e.1 % 64)))))

/-- The entries that an invalidation does not take in. -/
def Invalidation.keep (i : Invalidation) (cs : List Translation) : List Translation := cs.filter (fun t => !i.covers t.session t.page)

/-- INVALIDATION_COMPLETE: every cache of the partition has dropped the range and every old request has finished. -/
def State.invDone (s : State) (d : Nat) : State :=
  match (s.die d).invalid with
  | none => s
  | some i =>
    let dies := s.partDies d
    if s.oldRequests dies i then s
    else
      let s := (diesOf dies).foldl (fun s e => s.setDie e { s.die e with cache := i.keep (s.die e).cache }) s
      let s := (s.clusters.map (·.1)).foldl (fun s k =>
        if dies.getLsbD (k / 136) then s.setClN k { s.clN k with cache := i.keep (s.clN k).cache } else s) s
      (s.setDie d { s.die d with invalid := none }).sf (key d 0) F.memInvStatusBusy 0

def execInvalidationComplete (d : Die) (s : State) : Result := onDie d s (fun s => s.invDone d)

/-! ### The SRAM aperture (R360) -/

/-- Is a granule of a die buffer held by a session's window (R358)? -/
def State.granuleOwned (s : State) (d off : Nat) : Bool :=
  (s.die d).windows.any (fun w => match w.2 with
    | some x => decide (x.2.1 ≤ off / 0x1_0000) && decide (off / 0x1_0000 < x.2.1 + x.2.2)
    | none => false)

/-- A write of the host or of firmware into SRAM, one aligned KiB at most: refused where a list may run or a window holds the granule; the
host's writes to the log ring are ignored (R435). -/
def State.apertureWrite (s : State) (byHost : Bool) (a : Nat) (data : List Byte) (poison : Bool) : State :=
  match s.target a with
  | .store d r sl _ =>
    let b := key d (clusterOff r sl)
    let st := s.rf b F.exeStatusState
    if st = Ex.idle ∨ st = Ex.ended ∨ st = Ex.halted then s.store a data poison else s.raise b F.clsErrStoreWriteWhileRunning
  | .dbuf d off =>
    if byHost && decide (0xF0_0000 ≤ off) then s
    else if s.granuleOwned d off then (s.raise (key d 0) F.memErrSramWriteOwned).noteAddr d a else s.store a data poison
  | _ => s

/-- An access of the host or of firmware to an address that does not exist is recorded by the die through which it entered (R365). -/
def State.badAddr (s : State) (entry a : Nat) : State := (s.raise (key entry 0) F.memGdErrBadAddr).noteAddr entry a

/-- SRAM_APERTURE_WRITE, of the host driver or of firmware alike. -/
def execSramApertureWrite (by_ : Agent) (entry : Die) (addr : Nat) (data : List Byte) (s : State) : Result :=
  onDie entry s (fun s =>
    match s.target addr with
    | .absent => s.badAddr entry addr
    | _ => s.apertureWrite (by_ == .host) addr data false)

/-! ### GDDR7 (R366, R367) -/

/-- GDDR7_REFRESH: a refresh window: the devices report their temperatures, and a patrol read may report a line of the slot. -/
def State.refreshWindow (s : State) (d : Nat) (t0 t1 : BitVec 8) (patrol : Option (Nat × ScrubResult)) : State :=
  if !s.gddrUp d then s
  else
    let b := key d 0
    let s := (s.sf b F.memGdTempDev0 t0.toNat).sf b F.memGdTempDev1 t1.toNat
    let s := s.flag b F.memGdStatusDoubled (decide (85 < t0.toNat ∨ 85 < t1.toNat))
    match patrol with
    | none => s
    | some p =>
      if !s.bit b F.memGdCfgPatrolEn || decide (s.gddrSize d ≤ 64 * p.1) then s
      else
        let a := ordinalOf d * 0x2_0000_0000 + 64 * p.1
        match p.2 with
        | .clean => s
        | .corrected => s.memEvent a noSessionMark .corrected
        | .uncorrectable => s.memEvent a noSessionMark .uncorrectable

def execGddr7Refresh (d : Die) (temp0 temp1 : BitVec 8) (patrol : Option (Nat × ScrubResult)) (s : State) : Result :=
  onDie d s (fun s => s.refreshWindow d temp0 temp1 patrol)

/-! ### CXL ports (R375) -/

/-- The key at which the registers of a port's die start. -/
def portBase (port : Nat) : Nat := key (corners.getD port 0) 0

/-- CXL_LINK_DOWN: the port's traffic fails from now on (R375). -/
def execCxlLinkDown (port : Fin 4) (s : State) : Result :=
  onDie (corners.getD port 0) s (fun s =>
    let b := portBase port
    if s.bit b F.memCxlStatusLinkUp then ((s.sf b F.memCxlStatusLinkUp 0).sf b F.memCxlStatusWidth 0).raise b F.memCxlErrLinkDown else s)

/-- CXL_RETRAIN_DONE: a port that went down is up again, on 16 or 8 lanes, or stays down. -/
def execCxlRetrainDone (port : Fin 4) (width : Nat) (s : State) : Result :=
  onDie (corners.getD port 0) s (fun s =>
    let b := portBase port
    if s.bit b F.memCxlStatusDevicePresent && !s.bit b F.memCxlStatusLinkUp && (width == 16 || width == 8) then
      (s.sf b F.memCxlStatusLinkUp 1).sf b F.memCxlStatusWidth width
    else s)

end Sys2Proof.Machine
end

