-- ==== Sys2Proof/Machine/Power.lean ====
section
/-!
DEFINITION. The power managers (R509 to R526): regulators over PMBus, the package limiter and its caps, the two ceilings, emergencies, thermal
trips, and the requests for clock and supply.
-/

namespace Sys2Proof.Machine

/-! ### Emergency (R523) -/

/-- Is a die in emergency? -/
def State.emergencyOf (s : State) (d : Nat) : Bool :=
  let x := s.die d
  x.hot || !x.railFault.isEmpty || s.bit (key d 0) F.pwrStatusRefclkLost || decide (1450 < s.pkg.avgPower)

/-- The exams of a die are abandoned: its regions return to their supply, and its clusters stay in recess (R525). -/
def State.abandonExams (s : State) (d : Nat) : State :=
  let x := s.die d
  if x.recess.isEmpty then s
  else
    let s := ((x.recess.map (· / 17)).eraseDups).foldl (fun s r => s.setApplied d r (vop d r)) s
    s.sf (key d 0) F.hltExamStatusState 1

/-- A die's EMERGENCY bit brought up to date; one that begins is counted, and abandons the die's exams. -/
def State.dieEmergency (s : State) (d : Nat) : State :=
  let b := key d 0
  let now := s.emergencyOf d
  if now == s.bit b F.pwrStatusEmergency then s
  else
    let s := s.flag b F.pwrStatusEmergency now
    if now then (s.bump b F.pwrEmergCount 1).abandonExams d else s

/-- The emergencies brought up to date after a power event: each die's, the package's with its message (R504), and what an activation that
waits is told of it (R438). -/
def State.updateEmergency (s : State) : State :=
  let before := s.emergencyNow
  let s := allDies.foldl State.dieEmergency s
  let after := s.emergencyNow
  let s := allDies.foldl (fun s d => s.flag (key d 0) F.pwrStatusPkgEmergency after) s
  let s := if before || after then s.noteEmergency else s
  if before == after then s else s.emergencyMsg (if after then 0xFF81 else 0xFF82) 0

/-! ### Regulators (R509 to R512) -/

/-- The side of a perimeter die: the first whose edge list names it (R389, R509). -/
def sideOf (d : Nat) : Nat := ((List.range 20).map edgeDie).idxOf d / 5

/-- The PMBus addresses of the regulators (R509). -/
def railAddresses : List Nat :=
  (List.range 25).map (· + 0x40) ++ [0x5C] ++ (List.range 5).map (· + 0x60) ++ (List.range 16).map (· + 0x68)

/-- The dies that a rail feeds (R509). -/
def fedBy (a : Nat) : List Nat :=
  if a < 0x59 then [a - 0x40]
  else if a = 0x5C then allDies
  else if a < 0x65 then (List.range 5).map (fun x => 5 * (a - 0x60) + x)
  else perimeter.filter (fun d => sideOf d == (a - 0x68) % 4)

/-- A status that shows VOUT_OV, VOUT_UV, IOUT_OC or TEMPERATURE, by the bits of the PMBus STATUS_WORD (notes/assumptions/35.md). -/
def railBad (status : BitVec 16) : Bool := status.getLsbD 5 || status.getLsbD 15 || status.getLsbD 4 || status.getLsbD 2

/-- A regulator's fault brought into the dies that it feeds (R512). -/
def State.spreadRail (s : State) (a : Nat) : State :=
  let r := s.rail a
  (fedBy a).foldl (fun s d =>
    let x := s.die d
    let bad := railBad r.status || r.lost
    let s := if railBad r.status then s.raise (key d 0) F.pwrErrRegFault else s
    let s := if r.lost then s.raise (key d 0) F.pwrErrRegLost else s
    s.setDie d { x with railFault := if bad then NatSet.insert x.railFault a else NatSet.erase x.railFault a }) s

/-- The segment of a regulator: PMB0 carries the VDD_CORE regulators, PMB1 every other (R511). -/
def segmentOf (a : Nat) : Nat := if a < 0x59 then 0 else 1

/-- A transaction of the master, die 12's power manager (R511). -/
def State.pmbus (s : State) (address : BitVec 7) (command : PmbusCommand) : State := s.send (.pmbus (segmentOf address.toNat) address command)

/-- The commands by which the master reads a regulator's telemetry (R511, R512). -/
def telemetry : List PmbusCommand := [.voutMode, .readVout, .readIout, .readTemperature1, .readPout, .statusWord]

/-- READ_VOUT in mV from its linear16 form, the only VOUT mode that is supported (R511); none of another mode. The exponent stands in VOUT_MODE as the
PMBus has it (notes/assumptions/35.md). -/
def linear16 (mode : BitVec 8) (v : BitVec 16) : Option Nat :=
  let e := signedN 5 (mode.toNat % 32)
  if 32 ≤ mode.toNat then none
  else some (if 0 ≤ e then v.toNat * 1000 * 2 ^ e.toNat else (2 * v.toNat * 1000 + 2 ^ (-e).toNat) / 2 ^ ((-e).toNat + 1))

/-- One regulator read by the master (R511), or a transaction that failed: 3 in a row make it lost; it is PRESENT when it answers the scan of the hardware
phase (R512, R526, R548). -/
def State.readRail (s : State) (x : RailReading) : State :=
  let a := x.address.toNat
  if !railAddresses.contains a then s
  else
    let s := telemetry.foldl (fun s k => s.pmbus x.address k) s
    let r := s.rail a
    match x.answer with
    | some y =>
      let v := match linear16 y.mode y.vout with | some mv => BitVec.ofNat 16 (min mv 0xFFFF) | none => r.vout
      (s.setRail a { vout := v, iout := y.iout, status := y.status, present := r.present || s.phase == 1, lost := false, fails := 0 }).spreadRail a
    | none =>
      let s := if x.pec then s.raise die12 F.pwrErrPmbusPec else s
      (s.setRail a { r with fails := r.fails + 1, lost := decide (3 ≤ r.fails + 1) }).spreadRail a

/-- PMBUS_POLL: the telemetry of the regulators. -/
def execPmbusPoll (readings : List RailReading) (s : State) : Result :=
  onDie 12 s (fun s => (readings.foldl State.readRail s).updateEmergency)

/-- The SMBus alert response address. -/
def alertAddress : BitVec 7 := 0x0C

/-- PMB_ALERT: the master reads the alert response address, and the status of the regulator that answers (R512). -/
def execPmbAlert (address : BitVec 7) (status : BitVec 16) (s : State) : Result :=
  onDie 12 s (fun s =>
    let a := address.toNat
    if railAddresses.contains a then
      ((((s.send (.pmbus (segmentOf a) alertAddress .alertResponse)).pmbus address .statusWord).setRail a { s.rail a with status := status, fails := 0, lost := false }).spreadRail a).updateEmergency
    else s)

/-! ### Clocks (R513, R514) -/

/-- REFCLK_LOST: the islands run from the internal oscillator, and links and GDDR7 interfaces of the die go down until a package reset; FAULT_N
falls (R513, R560). -/
def State.refclkLost (s : State) (d : Nat) : State :=
  let b := key d 0
  let s := ((s.sf b F.pwrStatusRefclkLost 1).raise b F.pwrErrRefclkLost).fault
  let s := (linksOf d).foldl (fun s l => (s.linkDown l).sf (lnkBase l) F.lnkStatusState 0) s
  (s.sf b F.memGdStatusTrained 0).updateEmergency

def execRefclkLost (d : Die) (s : State) : Result := onDie d s (fun s => s.refclkLost d)

/-- The fabric clock of a die in MHz: 800 in emergency, 200 from the internal oscillator, none after a trip (R513, R514, R522). -/
def State.fabricMHz (s : State) (d : Nat) : Nat :=
  if (s.die d).tripped then 0
  else if s.bit (key d 0) F.pwrStatusRefclkLost then 200
  else if s.bit (key d 0) F.pwrStatusEmergency then 800
  else 1600

/-- PWR_FREQ_REQ: rounded down to 8 MHz and clamped to 200 to 1,600 MHz. -/
def State.freqReq (s : State) (d : Nat) (v : W32) : State :=
  let b := key d 0
  let x := getF v 11 0 / 8 * 8
  let y := min 1600 (max 200 x)
  let s := s.sf b F.pwrFreqReq y
  if x = y then s else s.raise b F.pwrErrFreqClamped

def execPwrFreqReqWrite (d : Die) (v : W32) (s : State) : Result := onDie d s (fun s => s.freqReq d v)

/-- PWR_VREG: the request for the region of PWR_VREG_SEL, clamped to 600 mV to VOP + 25 mV (R510); a region under exam takes it when the exam
ends, and a disabled one has no supply (R4). -/
def State.vregReq (s : State) (d : Nat) (v : W32) : State :=
  let b := key d 0
  let r := s.rf b F.pwrVregSel
  let x := getF v 9 0
  let y := min (vop d r + 25) (max 600 x)
  let s := s.bwr (vregKey d r) (BitVec.ofNat 32 y)
  let s := if (s.die d).recess.any (fun k => k / 17 == r) || fused d r then s else s.setApplied d r y
  if x = y then s else s.raise b F.pwrErrVoutClamped

def execPwrVregWrite (d : Die) (v : W32) (s : State) : Result := onDie d s (fun s => s.vregReq d v)

/-! ### The limiter (R516 to R519) -/

/-- 1,450 W, 1,400 W and 20 W in 1/8 W. -/
def limitEighths : Nat := 11600
def easeEighths : Nat := 11200
def floorEighths : Nat := 160

/-- The cap of R518 for a die that draws p, from the excess and the sum of what the dies draw above 20 W; all in 1/8 W, rounded down. -/
def dieCap (p excess total : Nat) : Nat := (p * total - excess * (p - floorEighths)) / total

/-- The limiter's cap of a die after a period (notes/assumptions/35.md): above the limit the cap of R518, or none at 20 W or below; at most
1,400 W a cap rises by 1 W until it no longer binds. -/
def nextCap (old p pkg total capCeil : Nat) : Nat :=
  if limitEighths < pkg then
    if floorEighths < p then dieCap p (pkg - limitEighths) total else 0xFFFF
  else if pkg ≤ easeEighths ∧ old ≠ 0xFFFF then
    if capCeil = 1600 ∧ p ≤ old then 0xFFFF else old + 8
  else old

/-- A die's cap set by the limiter, which ends its fallback (R519). -/
def State.setCap (s : State) (d cap : Nat) : State :=
  let b := key d 0
  let s := s.setDie d { s.die d with limit := cap }
  (s.sf b F.pwrDieCap cap).sf b F.pwrStatusCapFallback 0

/-- LIMITER_PERIOD: the powers of the dies and of their memory summed, and every die's cap. -/
def State.limiterPeriod (s : State) (ps : List Nat) (mem avg : Nat) : State :=
  let pkg := ps.sum + mem
  let total := ((ps.filter (fun p => decide (floorEighths < p))).map (· - floorEighths)).sum
  let s := allDies.foldl (fun s d =>
    let p := ps.getD d 0
    let s := s.sf (key d 0) F.pwrDiePower (min p 0xFFFF)
    s.setCap d (nextCap (s.die d).limit p pkg total (s.rf (key d 0) F.pwrCeilCap))) s
  let s := (s.sf die12 F.pwrPkgPowerNow (min (pkg / 8) 0xFFFF)).sf die12 F.pwrPkgPowerAvg (min avg 0xFFFF)
  ({ s with pkg := { s.pkg with power := pkg / 8, avgPower := avg } }).updateEmergency

def execLimiterPeriod (dieEighths : List Nat) (memEighths avgWatts : Nat) (s : State) : Result :=
  onDie 12 s (fun s => s.limiterPeriod dieEighths memEighths avgWatts)

/-- CAP_CEILING_STEP: down 8 MHz above the cap, up 8 MHz at 2 W or more below it (R518). -/
def State.capStep (s : State) (d : Nat) : State :=
  let b := key d 0
  let p := s.rf b F.pwrDiePower
  let cap := s.rf b F.pwrDieCap
  let c := s.rf b F.pwrCeilCap
  let c := if cap ≠ 0xFFFF ∧ cap < p then max 200 (c - 8) else if cap = 0xFFFF ∨ p + 16 ≤ cap then min 1600 (c + 8) else c
  (s.sf b F.pwrCeilCap c).flag b F.pwrStatusThrottleP (decide (c < 1600))

def execCapCeilingStep (d : Die) (s : State) : Result := onDie d s (fun s => s.capStep d)

/-- CAP_FALLBACK: 1 ms without a cap from the limiter: 48 W (R519). -/
def execCapFallback (d : Die) (s : State) : Result :=
  onDie d s (fun s =>
    let b := key d 0
    ((s.sf b F.pwrDieCap 384).sf b F.pwrStatusCapFallback 1).raise b F.pwrErrCapFallback)

/-! ### Temperature (R520 to R522) -/

/-- A thermal trip: the die stops its clocks and pulls THERMTRIP_N low. -/
def State.trip (s : State) (d : Nat) : State :=
  { (s.setDie d { s.die d with tripped := true }) with pkg := { s.pkg with thermtripN := false } }

/-- The hottest of the sensors, and which: the lowest number among equals. -/
def hottest (xs : List (BitVec 16)) : Int × Nat :=
  ((xs.zip (List.range xs.length)).foldl (fun (a : Option (Int × Nat)) x =>
    let v := signedN 16 x.1.toNat
    match a with
    | none => some (v, x.2)
    | some m => if m.1 < v then some (v, x.2) else some m) none).getD (0, 0)

/-- The thermal ceiling after a step at a junction temperature in 1/8 °C (R521). -/
def nextCeiling (c : Nat) (t : Int) : Nat :=
  if 840 ≤ t then 200 else if 760 < t then max 200 (c - 8) else if t < 744 then min 1600 (c + 8) else c

/-- THERMAL_CEILING_STEP: the sensors are read, the ceiling steps, and emergency begins at 105 °C and ends below 100 °C; above 95 °C an
exam is abandoned (R525), and 115 °C trips. -/
def State.thermalStep (s : State) (d : Nat) (sensors : List (BitVec 16)) : State :=
  let b := key d 0
  let t := hottest sensors
  let x := s.die d
  let xs := (sensors.zip (List.range 9)).foldl (fun m v => Sparse.put (fun _ => 0) m v.2 v.1) x.sensors
  let near := decide (680 ≤ t.1) || decide (680 ≤ signedN 16 (s.rf b F.pwrTjTemp))
  let s := s.setDie d { x with sensors := xs, bandAt := if near then x.stamp else x.bandAt, hot := if 840 ≤ t.1 then true else if t.1 < 800 then false else x.hot }
  let s := (s.sf b F.pwrTjTemp (patternN 16 t.1)).sf b F.pwrTjSensor t.2
  let c := nextCeiling (s.rf b F.pwrCeilThermal) t.1
  let s := (s.sf b F.pwrCeilThermal c).flag b F.pwrStatusThrottleT (decide (c < 1600))
  let s := if 760 < t.1 then s.abandonExams d else s
  let s := s.updateEmergency
  if 920 ≤ t.1 then s.trip d else s

def execThermalCeilingStep (d : Die) (sensors : List (BitVec 16)) (s : State) : Result := onDie d s (fun s => s.thermalStep d sensors)

def execThermalTrip (d : Die) (s : State) : Result := onDie d s (fun s => s.trip d)

/-- THERMTRIP_N: a die that senses the net low stops its clocks; the trip stays latched until VDD_AUX is removed. -/
def execThermtripN (d : Die) (s : State) : Result := onDie d s (fun s => s.setDie d { s.die d with tripped := true })

end Sys2Proof.Machine
end

