-- ==== Sys2Proof/Machine/Objects.lean ====
section
/-!
DEFINITION. The object dictionary (R491 to R499): which objects it holds, with their lengths and access, and their values.
-/

namespace Sys2Proof.Machine

/-- The access of an object (R493). -/
inductive ObjAccess where
  | ro | rw | rwO | rwM | wo | woO | woM | rc
  deriving DecidableEq, Repr

/-- An object: its length in bytes (0: not fixed), its access, and whether it may be mapped into the TxPDO. -/
structure Obj where
  len : Nat
  acc : ObjAccess
  pdo : Bool := false
  deriving DecidableEq, Repr

/-- An index as the base of its record and the die or live-stream slot that it stands for. -/
def objBase (i : Nat) : Nat × Nat :=
  let perDie := fun b => decide (b ≤ i ∧ i < b + 25)
  if perDie 0x2110 then (0x2110, i - 0x2110)
  else if perDie 0x4030 then (0x4030, i - 0x4030)
  else if perDie 0x5010 then (0x5010, i - 0x5010)
  else if perDie 0x6020 then (0x6020, i - 0x6020)
  else if 0x3000 ≤ i ∧ i < 0x3400 then (0x3000 + i % 16, (i - 0x3000) / 16)
  else (i, 0)

/-- A read-only object of n bytes, and one that may be mapped. -/
def objRo (n : Nat) : Obj := { len := n, acc := .ro }
def objP (n : Nat) : Obj := { len := n, acc := .ro, pdo := true }

/-- The sub-indices of a record from 1 on; none for an index that is no record (R498, R499). -/
def recordOf (b : Nat) : Option (List Obj) :=
  match b with
  | 0x1018 => some [objRo 4, objRo 4, objRo 4, objRo 4]
  | 0x1A00 => some (List.replicate 32 { len := 4, acc := .rw })
  | 0x1C00 => some [objRo 1, objRo 1, objRo 1, objRo 1]
  | 0x1C13 => some [objRo 2]
  | 0x1C33 => some [objRo 2]
  | 0x2000 => some [objRo 1, objRo 1, objRo 4, objRo 4, objRo 4]
  | 0x2002 => some [objRo 1, objRo 2]
  | 0x2003 => some [objP 2, objP 2]
  | 0x2100 => some [objP 2, objP 2, objP 4, objRo 1, objP 2]
  | 0x2110 => some [objRo 4, objRo 1, objP 2, objP 2, objRo 2]
  | 0x2130 => some [{ len := 4, acc := .rwM }, { len := 1, acc := .woM }]
  | 0x3000 => some [objP 2, objRo 1, objRo 1, objRo 4, objRo 1, objRo 1, objRo 1, objP 1]
  | 0x3001 => some [objP 4, objP 4, objP 4, objRo 4, objRo 4, objRo 4, objRo 4, objRo 4, objRo 4, objRo 4, objRo 4, objRo 8]
  | 0x3002 => some [objP 2, objP 2, { len := 2, acc := .rc }, objRo 4]
  | 0x3003 => some [{ len := 1, acc := .woO }, { len := 1, acc := .rwO }, { len := 4, acc := .rwO }, { len := 4, acc := .rwO },
                    { len := 2, acc := .rwO }, { len := 1, acc := .woM }]
  | 0x4000 => some [objP 1, objRo 1, objRo 1, objP 2, objP 2]
  | 0x4020 => some [{ len := 1, acc := .rwM }, { len := 1, acc := .rwM }, { len := 4, acc := .rwM }, { len := 2, acc := .rwM }]
  | 0x4030 => some [objRo 4, objRo 4, objRo 2]
  | 0x5000 => some [objP 2, objP 1, objP 2, objP 1]
  | 0x5010 => some [objP 2, objRo 2, objRo 2, objRo 2, objRo 1]
  | 0x6000 => some [objRo 1, objRo 4, objRo 4]
  | 0x6001 => some [{ len := 1, acc := .rwM }, { len := 1, acc := .rwM }, { len := 1, acc := .rwM }]
  | 0x6012 => some [{ len := 1, acc := .woM }, { len := 1, acc := .rwM }]
  | 0x6020 => some [objRo 1, objRo 1]
  | _ => none

/-- An object that is no record: sub-index 0 alone. -/
def singleOf (b : Nat) : Option Obj :=
  match b with
  | 0x1000 => some (objRo 4)
  | 0x1008 => some (objRo 0)
  | 0x1009 => some (objRo 0)
  | 0x100A => some (objRo 0)
  | 0x1C12 => some (objRo 1)
  | 0x2001 => some (objRo 0)
  | 0x2010 => some { len := 16, acc := .wo }
  | 0x2011 => some (objRo 1)
  | 0x2012 => some { len := 1, acc := .wo }
  | 0x2013 => some (objRo 1)
  | 0x2014 => some (objRo 1)
  | 0x4001 => some { len := 2, acc := .rw }
  | 0x4002 => some (objRo 0)
  | 0x4010 => some (objRo 0)
  | 0x4011 => some { len := 4, acc := .woM }
  | 0x4012 => some { len := 4, acc := .woM }
  | 0x6010 => some { len := 0, acc := .woM }
  | 0x6011 => some (objRo 4)
  | _ => none

/-- Does the dictionary hold an index? -/
def holdsIndex (i : Nat) : Bool := (recordOf (objBase i).1).isSome || (singleOf (objBase i).1).isSome

/-- The highest sub-index of an index. -/
def maxSub (i : Nat) : Nat := match recordOf (objBase i).1 with | some xs => xs.length | none => 0

/-- The object under an index and a sub-index. -/
def objAt (i sub : Nat) : Option Obj :=
  match recordOf (objBase i).1 with
  | some xs =>
    if sub = 0 then some (if i = 0x1A00 then { len := 1, acc := .rw } else objRo 1) else xs[sub - 1]?
  | none => if sub = 0 then singleOf (objBase i).1 else none

/-- The indices of the dictionary in ascending order. -/
def objIndices : List Nat := ((List.range 0x6000).map (· + 0x1000)).filter holdsIndex

/-! ### The seating chart (R469, R470) -/

/-- Regions disabled in manufacture. -/
def fusedRegions : Nat := (allDies.map (fun d => ((List.range 8).filter (fused d)).length)).sum

/-- Physical slots of the package in a state of the chart. -/
def State.slotsIn (s : State) (st : Nat) : Nat :=
  (allDies.map (fun d => ((List.range 8).map (fun r => ((List.range 17).filter (fun sl => s.slotState d r sl == st)).length)).sum)).sum

/-- The grade and stepping in the codes of R469. -/
def gradeCode : Nat := if Config.gradeB then 0x42 else 0x41
def steppingCode : Nat := if Config.steppingS2 then 2 else 1

/-- The die word of the chart. -/
def State.dieWord (s : State) (d : Nat) : Nat :=
  let bits := fun (f : Nat → Bool) => ((List.range 8).map (fun r => b2n (f r) * 2 ^ r)).sum
  b2n (s.chart.failedDies.getLsbD d) + 2 * (Sparse.get (fun _ => (0 : BitVec 2)) s.chart.gdAbsent d).toNat
    + 8 * bits (fused d) + 2048 * bits (s.lost d)

/-- The 1,832 bytes of the seating chart; all 0 before its first build (notes/assumptions/36.md). -/
def State.chartBytes (s : State) : List Byte :=
  if !s.chart.built then List.replicate 1832 0
  else
    natLe 1 1 ++ natLe 1 gradeCode ++ natLe 1 steppingCode ++ natLe 1 fusedRegions ++ natLe 1 s.chart.lost.length
      ++ natLe 1 (s.slotsIn 2) ++ natLe 1 (s.slotsIn 5) ++ natLe 1 0 ++ natLe 4 s.chart.generation.toNat ++ natLe 4 0
      ++ natLe 8 s.chart.buildStamp.toNat ++ natLe 8 0
      ++ allDies.flatMap (fun d => natLe 8 (s.dieWord d) ++ (List.range 8).flatMap (fun r => natLe 8 (s.regionWord d r)))

/-- BELOW_GRADE: fewer active clusters than the part's column of R5, once the chart is built. -/
def State.belowGrade (s : State) : Bool :=
  s.chart.built && decide (s.activeClusters (maskOf allDies) < if Config.gradeB then 3104 else 3200)

/-! ### Values -/

/-- The bytes of a text. -/
def textBytes (t : String) : List Byte := t.toList.map (fun c => BitVec.ofNat 8 c.toNat)

/-- FW_VERSION as major.minor.build. -/
def versionText (v : Nat) : String := toString (fieldN v 31 24) ++ "." ++ toString (fieldN v 23 16) ++ "." ++ toString (fieldN v 15 0)

/-- DRAINING: the steps of R463 are in progress: a session remains or the record is not written. -/
def State.draining (s : State) : Bool :=
  match s.pkg.drain with
  | some d => s.anySession || !d.written
  | none => false

/-- An activation is in progress (R437). -/
def State.actBusy (s : State) : Bool :=
  let st := s.rf die12 F.fwcActStatusCode
  st == Fw.loading || st == Fw.waitEmergency || st == Fw.committing

/-- 0x2003:01. -/
def State.stateWord (s : State) : Nat :=
  b2n s.pkg.ready + 2 * b2n (s.rf die12 F.fwcBootStatusCode == Fw.ok) + 4 * b2n s.pkg.drained + 8 * b2n s.draining
    + 16 * b2n s.emergencyNow + 32 * b2n s.actBusy + 64 * b2n ((List.range 40).any s.hostLinkUp)

/-- The open live streams. -/
def State.liveStreams (s : State) : List Session := (s.sessions.map (·.2)).filter (fun x => x.kind != .none && x.live)

/-- The partition whose lowest die is d. -/
def State.partAt (s : State) (d : Nat) : Option Partition := s.parts.find? (fun p => lowestDie p.dies == d)

/-- The codes of R564. -/
def PartState.code : PartState → Nat
  | .startUp => 1
  | .test => 2
  | .recovery => 3
  | .service => 4

/-- LIVE_DEMAND: the live demand of a partition in 0.1 % of the limit of R348, rounded down. -/
def State.demandShare (s : State) (dies : BitVec 25) : Nat :=
  let d := sumFractions ((s.liveStreams.filter (fun y => y.dies == dies)).map (fun y => (y.jobCycles, max 1 y.period)))
  min 0xFFFF (d.1 * 1000 / max 1 (1440 * s.activeClusters dies * d.2))

/-- The codes of +0:08 and of the status block. -/
def SessionState.code : SessionState → Nat
  | .paused => 2
  | .ending => 3
  | _ => 1

/-- The session in a live-stream slot. -/
def State.inSlot (s : State) (k : Nat) : Option Nat := (s.sessions.find? (fun e => e.2.slot == some k)).map (·.1)

/-- The parameters in force of a stream. -/
def streamOf (x : Session) : StreamParams := match x.kind with | .encode => x.enc.params | _ => x.dec.stream.getD {}

/-- The values of the identity and session objects. -/
def State.objIdentity (s : State) (b d sub : Nat) : List Byte :=
  match b, sub with
  | 0x1008, _ => textBytes "Chroade CQ25"
  | 0x1009, _ => textBytes (if Config.steppingS2 then "S2" else "S1")
  | 0x100A, _ => textBytes (versionText s.fwVersion)
  | 0x1018, 1 => natLe 4 0x0000_0A3D
  | 0x1018, 2 => natLe 4 0x0000_0C25
  | 0x1018, 3 => natLe 4 (steppingCode * 65536 + gradeCode)
  | 0x1018, 4 => natLe 4 (Config.serial.toNat % 2 ^ 32)
  | 0x1A00, k => natLe 4 (s.ect.mapping.getD (k - 1) 0).toNat
  | 0x1C00, 1 => [1]
  | 0x1C00, 2 => [2]
  | 0x1C00, 4 => [4]
  | 0x1C13, 1 => natLe 2 0x1A00
  | 0x2000, 1 => natLe 1 gradeCode
  | 0x2000, 2 => natLe 1 steppingCode
  | 0x2000, 3 => natLe 4 s.fwVersion
  | 0x2000, 4 => natLe 4 (s.rf die12 F.hltLibVersion)
  | 0x2000, 5 => natLe 4 s.chart.generation.toNat
  | 0x2001, _ => s.chartBytes
  | 0x2002, 1 => natLe 1 (s.rf die12 F.lnkGroupDevice)
  | 0x2002, 2 => natLe 2 (s.rf die12 F.lnkGroupGroup)
  | 0x2003, 1 => natLe 2 s.stateWord
  | 0x2003, 2 => natLe 2 s.ect.heartbeat.toNat
  | 0x2011, _ => natLe 1 (match s.ect.level with | .observer => 0 | .operator => 1 | .maintainer => 2)
  | 0x2013, _ => natLe 1 s.ect.wrongKeys
  | 0x2014, _ =>
    if s.ect.locked then natLe 1 ((s.ect.lockStart.toNat + 6_000_000_000 - (s.stamp 12).toNat + 99_999_999) / 100_000_000) else [0]
  | 0x2100, 1 => natLe 2 s.openSessions.length
  | 0x2100, 2 => natLe 2 s.liveStreams.length
  | 0x2100, 3 => natLe 4 s.ect.jobsDropped.toNat
  | 0x2100, 4 => natLe 1 s.parts.length
  | 0x2100, 5 => natLe 2 ((s.parts.map (·.load)).foldl max 0)
  | 0x2110, k =>
    match s.partAt d with
    | none => natLe (match k with | 1 => 4 | 2 => 1 | _ => 2) 0
    | some p =>
      match k with
      | 1 => natLe 4 p.dies.toNat
      | 2 => natLe 1 p.state.code
      | 3 => natLe 2 p.load
      | 4 => natLe 2 (s.demandShare p.dies)
      | _ => natLe 2 (s.openSessions.filter (fun n => (s.ses n).dies == p.dies)).length
  | 0x2130, _ => natLe 4 s.ect.testDies.toNat
  | _, _ => [0, 0, 0, 0]

/-- The values of a live-stream slot (R499). -/
def State.objStream (s : State) (b k sub : Nat) : List Byte :=
  match s.inSlot k with
  | none =>
    let n := match objAt (b + 16 * k) sub with | some o => o.len | none => 1
    if b = 0x3000 ∧ sub = 1 then natLe 2 0xFFFF else if b = 0x3003 ∧ sub = 2 then [0xFF] else natLe n 0
  | some n =>
    let x := s.ses n
    let c := x.counters
    match b, sub with
    | 0x3000, 1 => natLe 2 n
    | 0x3000, 2 => natLe 1 x.kind.code
    | 0x3000, 3 => natLe 1 x.homeroom
    | 0x3000, 4 => natLe 4 x.period
    | 0x3000, 5 => natLe 1 x.deadline
    | 0x3000, 6 => natLe 1 (streamOf x).q
    | 0x3000, 7 => natLe 1 (b2n (streamOf x).emission)
    | 0x3000, _ => natLe 1 x.state.code
    | 0x3001, 1 => natLe 4 c.pictures.toNat
    | 0x3001, 2 => natLe 4 c.bellDrops.toNat
    | 0x3001, 3 => natLe 4 c.lost.toNat
    | 0x3001, 4 => natLe 4 c.crcErr.toNat
    | 0x3001, 5 => natLe 4 c.unknown.toNat
    | 0x3001, 6 => natLe 4 c.late.toNat
    | 0x3001, 7 => natLe 4 c.duplicate.toNat
    | 0x3001, 8 => natLe 4 c.damaged.toNat
    | 0x3001, 9 => natLe 4 c.forcedNoref.toNat
    | 0x3001, 10 => natLe 4 x.enc.reeditions.toNat
    | 0x3001, 11 => natLe 4 x.enc.cappedTiles.toNat
    | 0x3001, _ => natLe 8 x.sat.toNat
    | 0x3002, 1 => natLe 2 c.firstUs.toNat
    | 0x3002, 2 => natLe 2 c.pictureUs.toNat
    | 0x3002, 3 => natLe 2 c.worstUs.toNat
    | 0x3002, _ => natLe 4 c.lastSeq.toNat
    | 0x3003, 2 => natLe 1 x.enc.staged.q.toNat
    | 0x3003, 3 => natLe 4 x.enc.staged.capPic.toNat
    | 0x3003, 4 => natLe 4 x.enc.staged.capPer.toNat
    | _, _ => natLe 2 x.enc.staged.refresh.toNat

/-- The clocks of a die's islands. -/
def State.islandClocks (s : State) (d : Nat) : List Nat :=
  if h : d < 25 then (clustersOf ⟨d, h⟩).map s.islandMHz else []

/-- A die throttles (R526). -/
def State.throttling (s : State) (d : Nat) : Bool := s.bit (key d 0) F.pwrStatusThrottleT || s.bit (key d 0) F.pwrStatusThrottleP

/-- The states of a die's processors, four bits each. -/
def State.procWord (s : State) (d : Nat) : Nat := ((List.range 4).map (fun p => s.proc d p * 16 ^ p)).sum

/-- The lowest supply of a die's enabled regions. -/
def State.vcoreMin (s : State) (d : Nat) : Nat :=
  (((List.range 8).filter (fun r => !fused d r)).map (s.vApplied d)).foldl min 0xFFFF

/-- The cluster of a die in recess as 0x6020+d:02 shows it. -/
def State.recessCode (s : State) (d : Nat) : Nat :=
  match (s.die d).recess with
  | [] => 0xFF
  | k :: _ => k / 17 * 32 + k % 17

/-- The values of the health, power and exam objects. -/
def State.objHealth (s : State) (b d sub : Nat) : List Byte :=
  let x := s.die d
  match b, sub with
  | 0x4000, 1 => natLe 1 (b2n s.pkg.drained)
  | 0x4000, 2 => natLe 1 (b2n s.belowGrade)
  | 0x4000, 3 => natLe 1 (s.rf die12 F.hltStatusOverride)
  | 0x4000, 4 => natLe 2 (if s.pkg.archived = 0 then 0 else (s.pkg.archived - 1) % archiveCards)
  | 0x4000, _ => natLe 2 (min s.pkg.archived archiveCards)
  | 0x4001, _ => natLe 2 s.ect.cardSlot.toNat
  | 0x4002, _ => s.flashBytes (archiveBase + 64 * s.ect.cardSlot.toNat) 64
  | 0x4010, _ => s.flashBytes drainBase 64 ++ s.drainPunits.flatMap (natLe 2)
  | 0x4020, 1 => natLe 1 (s.rf die12 F.hltSample)
  | 0x4020, 2 => natLe 1 (s.rf die12 F.hltSuspectN)
  | 0x4020, 3 => natLe 4 (s.rf die12 F.hltSuspectWin)
  | 0x4020, _ => natLe 2 (s.rf die12 F.hltWdig)
  | 0x4030, 1 => natLe 4 x.mismatches.toNat
  | 0x4030, 2 => natLe 4 x.votes.toNat
  | 0x4030, _ => natLe 2 (s.procWord d)
  | 0x5000, 1 => natLe 2 s.pkg.power
  | 0x5000, 2 => natLe 1 (b2n s.emergencyNow)
  | 0x5000, 3 => natLe 2 (patternN 16 ((allDies.map s.junction).foldl max (s.junction 0)))
  | 0x5000, _ => natLe 1 (allDies.filter s.throttling).length
  | 0x5010, 1 => natLe 2 (s.rf (key d 0) F.pwrTjTemp)
  | 0x5010, 2 => natLe 2 ((s.islandClocks d).foldl min 0xFFFF)
  | 0x5010, 3 => natLe 2 ((s.islandClocks d).foldl max 0)
  | 0x5010, 4 => natLe 2 (s.vcoreMin d)
  | 0x5010, _ => natLe 1 (b2n (s.throttling d))
  | 0x6000, 1 => natLe 1 (s.rf die12 F.hltLibStatusCode)
  | 0x6000, 2 => natLe 4 s.ect.examsDone.toNat
  | 0x6000, _ => natLe 4 s.ect.bandMissed.toNat
  | 0x6001, 1 => natLe 1 (s.rf die12 F.hltExamCfgPeriod)
  | 0x6001, 2 => natLe 1 (s.rf die12 F.hltExamCfgWait)
  | 0x6001, _ => natLe 1 (s.rf die12 F.hltExamCfgPause)
  | 0x6011, _ => natLe 4 s.ect.stagedLen
  | 0x6012, _ => natLe 1 (s.rf die12 F.hltLibCtrlForward)
  | 0x6020, 1 => natLe 1 (s.examStatus d)
  | _, _ => natLe 1 (s.recessCode d)

/-- The value of an object that is readable, at its full length. -/
def State.objValue (s : State) (i sub : Nat) : List Byte :=
  let b := (objBase i).1
  let d := (objBase i).2
  let o := match objAt i sub with | some o => o.len | none => 1
  if sub = 0 ∧ (recordOf b).isSome then natLe 1 (if i = 0x1A00 then s.ect.mapCount else maxSub i)
  else if 0x3000 ≤ b ∧ b < 0x4000 then s.objStream b d sub
  else
    let v := if b < 0x3000 then s.objIdentity b d sub else s.objHealth b d sub
    if o = 0 then v else v.take o

end Sys2Proof.Machine
end

