-- ==== Sys2Proof/Machine/Ethercat.lean ====
section
/-!
DEFINITION. The EtherCAT slave (R486 to R507): its state machine, frames and the TxPDO mirror, the mailbox with its logins, and the objects
that have an effect. A mailbox request that comes while the session core restarts is held and answered after it (R441).
-/

namespace Sys2Proof.Machine

/-! ### Abort codes (R493, R494) -/
namespace Ab
abbrev writeOnly : W32 := 0x0601_0001
abbrev readOnly : W32 := 0x0601_0002
abbrev level : W32 := 0x0601_0000
abbrev noIndex : W32 := 0x0602_0000
abbrev notMappable : W32 := 0x0604_0041
abbrev mapTooLong : W32 := 0x0604_0042
abbrev length : W32 := 0x0607_0010
abbrev noSub : W32 := 0x0609_0011
abbrev range : W32 := 0x0609_0030
abbrev state : W32 := 0x0800_0022
abbrev noData : W32 := 0x0800_0024
abbrev toggle : W32 := 0x0503_0000
abbrev stopped : W32 := 0x0504_0000
end Ab

/-- An abort answered. -/
def State.abort (s : State) (code : W32) : State := s.send (.sdoAbort code)

/-- The slave's own values changed. -/
def State.setEct (s : State) (x : Ect) : State := { s with ect := x }

/-! ### The state machine (R488, R489) -/

/-- The order of the states. -/
def alRank : AlState → Nat
  | .init => 0
  | .preOp => 1
  | .bootstrap => 1
  | .safeOp => 2
  | .op => 3

/-- The code of ECT_STATUS. -/
def alCode : AlState → Nat
  | .init => 1
  | .preOp => 2
  | .bootstrap => 3
  | .safeOp => 4
  | .op => 8

/-- May an entry of 0x1A00 be mapped: an object whose access ends in P, with its full length (R491)? -/
def mappable (v : W32) : Bool :=
  match objAt (fieldN v.toNat 31 16) (fieldN v.toNat 15 8) with
  | some o => o.pdo && fieldN v.toNat 7 0 == 8 * o.len
  | none => false

/-- The entries that are mapped. -/
def Ect.mapped (x : Ect) : List W32 := (List.range x.mapCount).map (fun k => x.mapping.getD k 0)

/-- Bytes of the mapped entries. -/
def mappedBytes (xs : List W32) : Nat := (xs.map (fun v => fieldN v.toNat 7 0 / 8)).sum

/-- The mapping is valid under R491. -/
def Ect.mapOk (x : Ect) : Bool := x.mapped.all mappable && decide (mappedBytes x.mapped ≤ 256)

/-- A setting that the master writes: SM0, SM1 and SM3, and two FMMUs, are there (R486). -/
def Ect.take (x : Ect) (e : EscSet) : Ect :=
  match e with
  | .syncManager k start len => if k = 0 ∨ k = 1 ∨ k = 3 then { x with sm := Sparse.put (fun _ => (0, 0)) x.sm k (start, len) } else x
  | .fmmu k logical len physical => if k < 2 then { x with fmmu := Sparse.put (fun _ => (0, 0, 0)) x.fmmu k (logical, len, physical) } else x

/-- Do the settings of SM0 and SM1 match R486? -/
def Ect.smOk (x : Ect) : Bool :=
  Sparse.get (fun _ => (0, 0)) x.sm 0 == (0x1000, 1024) && Sparse.get (fun _ => (0, 0)) x.sm 1 == (0x1400, 1024)

/-- The AL status of a requested state: none when it is accepted. Until the session core has first run, every state but INIT is refused. A step that the table does not have is refused with 0x0011, and a slave whose
session core has failed stays in SAFE-OP (notes/assumptions/37.md). -/
def State.alRefusal (s : State) (want : AlState) : Option (BitVec 16) :=
  let now := s.ect.state
  if want ≠ .init ∧ s.ect.coreRan = false then some 0x0011
  else if want = .bootstrap then some 0x0013
  else if s.ect.coreFailed then some 0x0001
  else if alRank want ≤ alRank now then none
  else
    match now, want with
    | .init, .preOp => if s.ect.smOk then none else some 0x0016
    | .preOp, .safeOp => if s.ect.mapOk then none else some 0x001E
    | .safeOp, .op => none
    | _, _ => some 0x0011

/-- AL_STATE_REQUEST, behind the settings that the master has written with it: accepted, or refused with its AL status code; INIT ends the login. -/
def State.alRequest (s : State) (want : AlState) (setup : List EscSet) : State :=
  let s := s.setEct (setup.foldl Ect.take s.ect)
  match s.alRefusal want with
  | some code => ((s.setEct { s.ect with alStatus := code }).raise die12 F.ectErrAlRefused).send (.al s.ect.state code)
  | none =>
    let x := { s.ect with state := want, alStatus := 0 }
    (s.setEct (if want = .init then { x with level := .observer } else x)).send (.al want 0)

def execAlStateRequest (want : AlState) (setup : List EscSet) (s : State) : Result := onDie 12 s (fun s => s.alRequest want setup)

/-! ### Frames and the mirror (R487, R490) -/

/-- ECT_FRAME: a frame passes, with the inputs of the mirror when it reads them in SAFE-OP or OP; one that reads the mailbox takes its oldest
emergency message, and one in which the master sets the station address sets ECT_ID; the settings that the master writes are taken, a read of the SII
is answered from the identity table and a write of it ignored (R486). A frame that fails its CRC is counted. -/
def State.framePasses (s : State) (port : Nat) (crcOk : Bool) (asks : FrameAsk) (mailbox : Bool) : State :=
  if !crcOk then
    ((s.raise die12 F.ectErrRxError).bump die12 (if port = 0 then F.ectRxErrors else F.ectRxErrors1) 1).send (.frame port [])
  else
    let s := match asks.station with | some a => s.sf die12 F.ectId a.toNat | none => s
    let s := s.setEct (asks.setup.foldl Ect.take s.ect)
    let s := (s.bump die12 F.ectFrames 1).send (.frame port (if asks.inputs && decide (2 ≤ alRank s.ect.state) then s.ect.mirror else []))
    let s := match asks.sii with | some (.read w) => s.send (.sii (Config.siiWord w)) | _ => s
    match s.ect.emergencies with
    | m :: rest =>
      if mailbox && s.ect.state != .init then (s.setEct { s.ect with emergencies := rest }).send (.emergency m.1 m.2) else s
    | [] => s

def execEctFrame (port : Fin 2) (crcOk : Bool) (asks : FrameAsk) (mailbox : Bool) (s : State) : Result :=
  onDie 12 s (fun s => s.framePasses port crcOk asks mailbox)

/-- MIRROR_REFRESH: the session core counts the heartbeat and copies the mapped objects into the mirror. -/
def State.refreshMirror (s : State) : State :=
  if !s.procRuns 12 sessionCore then s
  else
    let s := s.setEct { s.ect with heartbeat := s.ect.heartbeat + 1, lastRefresh := s.stamp 12 }
    s.setEct { s.ect with mirror := s.ect.mapped.flatMap (fun v => s.objValue (fieldN v.toNat 31 16) (fieldN v.toNat 15 8)) }

def execMirrorRefresh (s : State) : Result := onDie 12 s State.refreshMirror

/-- PORT_LINK_CHANGE: an MII port gains or loses its link; port 1 closes when it has none (R486). -/
def execPortLinkChange (port : Fin 2) (up : Bool) (s : State) : Result :=
  onDie 12 s (fun s => s.setEct (if port = 0 then { s.ect with link0 := up } else { s.ect with link1 := up, closed1 := !up }))

/-! ### Logins (R495 to R497) -/

/-- 60 s and 900 s in the units of a stamp. -/
def lockTime : Nat := 6_000_000_000
def idleTime : Nat := 90_000_000_000

/-- A wrong key: the eighth locks login. -/
def State.wrongKey (s : State) : State :=
  let s := (s.raise die12 F.ectErrWrongKey).bump die12 F.ectLoginFails 1
  let k := s.ect.wrongKeys + 1
  if k < 8 then s.setEct { s.ect with wrongKeys := k }
  else (s.setEct { s.ect with wrongKeys := 0, locked := true, lockStart := s.stamp 12 }).raise die12 F.ectErrLockout

/-- A key written to 0x2010; the download of a wrong one is answered like any other (notes/assumptions/37.md). -/
def State.loginKey (s : State) (k : List Byte) : State :=
  let x := s.ect
  let d := digest32 k
  if k.length ≠ 16 then s.abort Ab.length
  else if x.locked ∨ (x.opDigest.isNone ∧ x.maDigest.isNone) then s.abort Ab.state
  else if x.maDigest = some d then (s.setEct { x with level := .maintainer, wrongKeys := 0 }).send .sdoOk
  else if x.opDigest = some d then (s.setEct { x with level := .operator, wrongKeys := 0 }).send .sdoOk
  else s.wrongKey.send .sdoOk

/-- A write to 0x2012. -/
def State.logoutNow (s : State) : State := (s.setEct { s.ect with level := .observer }).send .sdoOk

/-- LOGIN_IDLE_TIMEOUT: 900 s of die 12's stamp without a mailbox request. -/
def execLoginIdleTimeout (s : State) : Result :=
  onDie 12 s (fun s =>
    if s.ect.lastMailbox.toNat + idleTime ≤ (s.stamp 12).toNat then s.setEct { s.ect with level := .observer } else s)

/-- LOCK_EXPIRY: the lock has lasted 60 s of die 12's stamp (R496). -/
def execLockExpiry (s : State) : Result :=
  onDie 12 s (fun s =>
    if s.ect.locked ∧ s.ect.lockStart.toNat + lockTime ≤ (s.stamp 12).toNat then s.setEct { s.ect with locked := false } else s)

/-- The digest staged in ECT_KEY_DIG0 to ECT_KEY_DIG7. -/
def State.stagedDigest (s : State) : List Byte := (List.range 8).flatMap (fun k => natLe 4 (s.brd (digestKey 0 k)).toNat)

/-- The digest of the level that ECT_KEY_SEL selects changed, which ends a login at that level. -/
def State.setDigest (s : State) (d : Option (List Byte)) : State :=
  let x := s.ect
  if s.rf die12 F.ectKeySel = 0 then s.setEct { x with opDigest := d, level := if x.level = .operator then .observer else x.level }
  else s.setEct { x with maDigest := d, level := if x.level = .maintainer then .observer else x.level }

def execEctKeyCommit (s : State) : Result := onDie 12 s (fun s => s.setDigest (some s.stagedDigest))

def execEctKeyClear (s : State) : Result := onDie 12 s (fun s => s.setDigest none)

/-! ### SDO services -/

/-- Is the level of the login high enough for a write (R493)? -/
def levelFor (o : ObjAccess) (l : Level) : Bool :=
  match o with
  | .rwO | .woO => l != .observer
  | .rwM | .woM => l == .maintainer
  | _ => true

/-- The object under an index and sub-index, or the abort of R494. -/
def findObj (i : BitVec 16) (sub : BitVec 8) : Except W32 Obj :=
  if !holdsIndex i.toNat then .error Ab.noIndex
  else match objAt i.toNat sub.toNat with
    | some o => .ok o
    | none => .error Ab.noSub

/-- Bytes of a segment, as one mailbox exchange carries them (R498). -/
def segmentBytes : Nat := 1015

/-- An upload's value: a DOMAIN object begins a segmented transfer of the value it has now (R492, R505), any other is answered at once. -/
def State.sendValue (s : State) (i : BitVec 16) (sub : BitVec 8) : State :=
  let v := s.objValue i.toNat sub.toNat
  if coeType (objBase i.toNat).1 sub.toNat 0 = .domain then
    (s.setEct { s.ect with uploading := some { rest := v, last := s.stamp 12 } }).send (.sdoStart v.length)
  else s.send (.sdoData v)

/-- SDO_UPLOAD: the value of an object; an RC object is cleared as the answer is sent. -/
def State.upload (s : State) (i : BitVec 16) (sub : BitVec 8) : State :=
  match findObj i sub with
  | .error code => s.abort code
  | .ok o =>
    let empty := (i == 0x4002 && s.flashByte (archiveBase + 64 * s.ect.cardSlot.toNat + 30) == 0xFF) || (i == 0x4010 && !s.hasDrainRecord)
    match o.acc with
    | .wo | .woO | .woM => s.abort Ab.writeOnly
    | .rc =>
      let v := s.objValue i.toNat sub.toNat
      let s := match s.inSlot (objBase i.toNat).2 with
        | some n => s.setSes n { s.ses n with counters := { (s.ses n).counters with worstUs := 0 } }
        | none => s
      s.send (.sdoData v)
    | _ => if empty then s.abort Ab.noData else s.sendValue i sub

/-- A segmented upload ends. -/
def State.endUpload (s : State) : State := s.setEct { s.ect with uploading := none }

/-- A segmented upload has stopped for 5 s of die 12's stamp (R494). -/
def State.uploadStale (s : State) : Bool := s.ect.uploading.any (fun x => decide (x.last.toNat + 500_000_000 ≤ (s.stamp 12).toNat))

/-- The next segment of an upload; a toggle that does not alternate, and a gap of 5 s, abort it (R494). -/
def State.uploadNext (s : State) (toggle : Bool) : State :=
  match s.ect.uploading with
  | none => s.abort Ab.state
  | some x =>
    if s.uploadStale then s.endUpload.abort Ab.stopped
    else if toggle ≠ x.toggle then s.endUpload.abort Ab.toggle
    else
      let last := decide (x.rest.length ≤ segmentBytes)
      let next := if last then none else some { rest := x.rest.drop segmentBytes, toggle := !toggle, last := s.stamp 12 : Upload }
      (s.setEct { s.ect with uploading := next }).send (.sdoSegment toggle last (x.rest.take segmentBytes))

/-- An upload request; an initiation ends a segmented upload in progress. -/
def State.uploadAsked (s : State) (i : BitVec 16) (ask : UploadAsk) : State :=
  match ask with
  | .initiate sub => s.endUpload.upload i sub
  | .next toggle => s.uploadNext toggle

/-- The text of an access code (R493). -/
def ObjAccess.text : ObjAccess → String
  | .ro => "RO"
  | .rw => "RW"
  | .rwO => "RW-O"
  | .rwM => "RW-M"
  | .wo => "WO"
  | .woO => "WO-O"
  | .woM => "WO-M"
  | .rc => "RC"

/-- SDO_INFORMATION: an object that is no record has the type and name of its one entry; the name of a record is not stated
(notes/assumptions/86.md). -/
def State.information (s : State) (what : SdoInfo) : State :=
  match what with
  | .objectList => s.send (.objectList objIndices)
  | .objectDescription i =>
    let b := (objBase i.toNat).1
    match holdsIndex i.toNat, singleOf b with
    | false, _ => s.abort Ab.noIndex
    | true, some o => s.send (.objectDesc i (coeType b 0 o.len) 0 (objName b 0))
    | true, none => s.send (.objectDesc i .unsigned8 (maxSub i.toNat) (Config.recordName i.toNat))
  | .entryDescription i sub =>
    match findObj i sub with
    | .error code => s.abort code
    | .ok o =>
      let b := (objBase i.toNat).1
      s.send (.entryDesc i sub (coeType b sub.toNat o.len) (8 * o.len) o.acc.text o.pdo (objName b sub.toNat))

/-- A write to 0x1A00: only in PRE-OP, of mappable objects with at most 256 bytes in all (R491). -/
def State.mapWrite (s : State) (sub : BitVec 8) (v : W32) : State :=
  let x := s.ect
  if x.state ≠ .preOp then s.abort Ab.state
  else if sub = 0 then
    let y := { x with mapCount := v.toNat }
    if 32 < v.toNat then s.abort Ab.range
    else if !y.mapped.all mappable then s.abort Ab.notMappable
    else if 256 < mappedBytes y.mapped then s.abort Ab.mapTooLong
    else (s.setEct y).send .sdoOk
  else if 32 < sub.toNat then s.abort Ab.noSub
  else
    let m := (List.range 32).map (fun k => if k + 1 = sub.toNat then v else x.mapping.getD k 0)
    let y := { x with mapping := m }
    if !mappable v then s.abort Ab.notMappable
    else if 256 < mappedBytes y.mapped then s.abort Ab.mapTooLong
    else (s.setEct y).send .sdoOk

/-- A write that only a level may make. -/
def State.asLevel (s : State) (o : ObjAccess) (f : State → State) : State := if levelFor o s.ect.level then f s else s.abort Ab.level

/-- A write to a live-stream slot: refused on a free slot, and on a decode stream except STOP (R499). -/
def State.onStream (s : State) (k : Nat) (stop_ : Bool) (f : State → Nat → State) : State :=
  match s.inSlot k with
  | none => s.abort Ab.state
  | some n => if !stop_ && (s.ses n).kind != .encode then s.abort Ab.state else f s n

/-- 0x3003:01: a refresh point is requested (R74, R500). -/
def State.refreshObject (s : State) (k : Nat) : State :=
  s.asLevel .woO (fun s => s.onStream k false (fun s n => (s.requestRefresh n).send .sdoOk))

/-- 0x3003:06: the stream ends at its next bell (R501); one that a CLOSE_SESSION ends already is answered as ended (R505). -/
def State.stopObject (s : State) (k : Nat) : State :=
  s.asLevel .woM (fun s => s.onStream k true (fun s n =>
    if (s.ses n).closing.isSome then s.abort Ab.state
    else (s.setSes n { s.ses n with stopAtBell := some ((s.ses n).stopAtBell.getD St.sessionEnded) }).send .sdoOk))

/-- 0x2130:02 (R329). -/
def State.testObject (s : State) (v : Nat) : State :=
  s.asLevel .woM (fun s =>
    let m := s.ect.testDies.setWidth 25
    let r := match v with
      | 1 => s.enterTest m false
      | 2 => s.enterTest m true
      | 3 => s.leaveTest m none
      | _ => none
    if v = 0 ∨ 3 < v then s.abort Ab.range
    else match r with
      | some t => t.send .sdoOk
      | none => s.abort Ab.state)

/-- 0x4011 (R465) and 0x4012 (R463), each by its key value. -/
def State.clearObject (s : State) (v : W32) : State :=
  s.asLevel .woM (fun s => if v = 0x434C_5244 then s.eraseDrainRecord.send .sdoOk else s.abort Ab.range)

def State.drainObject (s : State) (v : W32) : State :=
  s.asLevel .woM (fun s => if v = 0x4452_4E21 then s.drainRequest.send .sdoOk else s.abort Ab.range)

/-- A host-driven install is WRITING or VERIFYING (R502). -/
def State.installRuns (s : State) : Bool := s.libBusy && !s.pkg.install.any (·.staged)

/-- Bytes programmed into the inactive bank behind those staged; a sector is erased before its first byte (R502). -/
def State.stageBytes (s : State) (data : List Byte) : State :=
  let base := bankBase s.inactiveBank
  let a := base + s.ect.stagedLen
  let first := (a + 0xFFFF) / 0x1_0000
  let sectors := List.range' first ((a + data.length + 0xFFFF) / 0x1_0000 - first)
  let s := sectors.foldl (fun s k => s.flashErase (k * 0x1_0000) 0x1_0000) s
  let s := s.flashPokes a data
  s.setEct { s.ect with stagedLen := s.ect.stagedLen + data.length }

/-- A segmented transfer has stopped for 5 s of die 12's stamp (R494). -/
def State.transferStale (s : State) : Bool := s.ect.transfer.any (fun x => decide (x.last.toNat + 500_000_000 ≤ (s.stamp 12).toNat))

/-- A download in progress ends with an abort. -/
def State.abortTransfer (s : State) (code : W32) : State := (s.setEct { s.ect with staging := false, transfer := none }).abort code

/-- A segment of a library download programmed; the next one must have the toggle `next`. -/
def State.takeSegment (s : State) (last next : Bool) (data : List Byte) : State :=
  if bankSize < s.ect.stagedLen + data.length then s.abortTransfer Ab.length
  else
    let s := s.stageBytes data
    (s.setEct { s.ect with staging := !last, transfer := if last then none else some { last := s.stamp 12, toggle := next } }).send .sdoOk

/-- 0x6010: a segment of a library download, which starts with its initiation; a toggle that does not alternate, and a gap of 5 s, abort it
(R494, R502). -/
def State.stageObject (s : State) (place : Segment) (last : Bool) (data : List Byte) : State :=
  match place with
  | .initiate =>
    s.asLevel .woM (fun s => if s.installRuns then s.abort Ab.state else (s.setEct { s.ect with stagedLen := 0 }).takeSegment last false data)
  | .next toggle =>
    if !s.ect.staging then s.abort Ab.state
    else if s.transferStale then s.abortTransfer Ab.stopped
    else if s.ect.transfer.any (fun x => x.toggle != toggle) then s.abortTransfer Ab.toggle
    else s.takeSegment last (!toggle) data

/-- 0x6012:01: the staged library is installed from its read-back (R480, R502). -/
def State.installObject (s : State) : State :=
  s.asLevel .woM (fun s =>
    if s.installRuns || s.ect.staging || s.ect.stagedLen == 0 then s.abort Ab.state
    else
      let i : Install := { bank := s.inactiveBank, len := s.ect.stagedLen, staged := true }
      ({ (s.libStatus Lib.verifying) with pkg := { s.pkg with install := some i } }).send .sdoOk)

/-- A field of a health register set on every die. -/
def State.onEveryDie (s : State) (f : Fld) (v : Nat) : State := allDies.foldl (fun s d => s.sf (key d 0) f v) s

/-- The effect of a write to an object without behaviour of its own, or the abort of its range. -/
def State.plainWrite (s : State) (i : BitVec 16) (sub : BitVec 8) (v : Nat) : State :=
  let ok := fun (s : State) => s.send .sdoOk
  let within := fun (lo hi : Nat) (t : State) => if lo ≤ v ∧ v ≤ hi then ok t else s.abort Ab.range
  let k := (objBase i.toNat).2
  let stage := fun (f : Staged → Staged) => s.onStream k false (fun s n =>
    let e := (s.ses n).enc
    ok (s.setEnc n { e with staged := f e.staged }))
  match (objBase i.toNat).1, sub.toNat with
  | 0x2130, 1 => within 0 0x1FF_FFFF (s.setEct { s.ect with testDies := BitVec.ofNat 32 v })
  | 0x4001, _ => within 0 63487 (s.setEct { s.ect with cardSlot := BitVec.ofNat 16 v })
  | 0x3003, 2 => s.onStream k false (fun s n =>
      let e := (s.ses n).enc
      if v ≠ 0xFF ∧ (64 ≤ v ∨ (s.ses n).image.codec.qmask.getLsbD v = false) then s.abort Ab.range
      else ok (s.setEnc n { e with staged := { e.staged with q := BitVec.ofNat 8 v } }))
  | 0x3003, 3 => stage (fun x => { x with capPic := BitVec.ofNat 32 v })
  | 0x3003, 4 => stage (fun x => { x with capPer := BitVec.ofNat 32 v })
  | 0x3003, 5 => stage (fun x => { x with refresh := BitVec.ofNat 16 v })
  | 0x4020, 1 => within 3 6 (s.sf die12 F.hltSample v)
  | 0x4020, 2 => within 1 15 (s.onEveryDie F.hltSuspectN v)
  | 0x4020, 3 => within 1 16777215 (s.onEveryDie F.hltSuspectWin v)
  | 0x4020, 4 => within 1 65535 (s.onEveryDie F.hltWdig v)
  | 0x6001, 1 => within 1 255 (s.onEveryDie F.hltExamCfgPeriod v)
  | 0x6001, 2 => within 1 255 (s.onEveryDie F.hltExamCfgWait v)
  | 0x6001, 3 => within 0 1 (s.onEveryDie F.hltExamCfgPause v)
  | 0x6012, 2 => within 0 1 (s.sf die12 F.hltLibCtrlForward v)
  | _, _ => s.abort Ab.readOnly

/-- SDO_DOWNLOAD: access, level and length are checked, then the value; an object with a row of its own has that row's effect. -/
def State.download (s : State) (i : BitVec 16) (sub : BitVec 8) (data : List Byte) : State :=
  match findObj i sub with
  | .error code => s.abort code
  | .ok o =>
    let v := leNat data
    if o.acc = .ro ∨ o.acc = .rc then s.abort Ab.readOnly
    else if !levelFor o.acc s.ect.level then s.abort Ab.level
    else if o.len ≠ 0 ∧ data.length ≠ o.len then s.abort Ab.length
    else
      match (objBase i.toNat).1, sub.toNat with
      | 0x1A00, _ => s.mapWrite sub (BitVec.ofNat 32 v)
      | 0x2010, _ => s.loginKey data
      | 0x2012, _ => s.logoutNow
      | 0x2130, 2 => s.testObject v
      | 0x3003, 1 => s.refreshObject (objBase i.toNat).2
      | 0x3003, 6 => s.stopObject (objBase i.toNat).2
      | 0x4011, _ => s.clearObject (BitVec.ofNat 32 v)
      | 0x4012, _ => s.drainObject (BitVec.ofNat 32 v)
      | 0x6010, _ => s.stageObject .initiate true data
      | 0x6012, 1 => s.installObject
      | _, _ => s.plainWrite i sub v

/-! ### The mailbox -/

/-- What a mailbox request does once the session core takes it. -/
def State.answer (s : State) (i : Instr) : State :=
  let s := s.setEct { s.ect with lastMailbox := s.stamp 12 }
  match i with
  | .sdoUpload i ask => s.uploadAsked i ask
  | .sdoDownload i sub data => s.download i sub data
  | .sdoInformation what => s.information what
  | .login k => s.loginKey k
  | .logout => s.logoutNow
  | .txpdoMappingWrite sub v => s.mapWrite sub v
  | .testAction v => s.testObject v.toNat
  | .odRefresh k => s.refreshObject k
  | .stop k => s.stopObject k
  | .clearDrainRecord v => s.clearObject v
  | .odDrainNow v => s.drainObject v
  | .libStage place last data => s.stageObject place last data
  | .libInstall => s.installObject
  | _ => s

/-- A mailbox request: answered while the session core runs, held while it restarts, refused once it has failed (R441, R489); in INIT there is
no mailbox (R488). -/
def State.mailbox (s : State) (i : Instr) : State :=
  if s.ect.coreFailed then s.send .mailboxRefused
  else if s.ect.state = .init then s
  else if s.procRuns 12 sessionCore then s.answer i
  else s.setEct { s.ect with held := s.ect.held ++ [i] }

/-- A mailbox command of die 12. -/
def onMailbox (i : Instr) (s : State) : Result := onDie 12 s (fun s => s.mailbox i)

def execSdoUpload (i : BitVec 16) (ask : UploadAsk) (s : State) : Result := onMailbox (.sdoUpload i ask) s

def execSdoDownload (i : BitVec 16) (sub : BitVec 8) (data : List Byte) (s : State) : Result := onMailbox (.sdoDownload i sub data) s

def execSdoInformation (what : SdoInfo) (s : State) : Result := onMailbox (.sdoInformation what) s

def execLogin (k : List Byte) (s : State) : Result := onMailbox (.login k) s

def execLogout (s : State) : Result := onMailbox .logout s

def execTxpdoMappingWrite (sub : BitVec 8) (v : W32) (s : State) : Result := onMailbox (.txpdoMappingWrite sub v) s

def execTestAction (v : BitVec 8) (s : State) : Result := onMailbox (.testAction v) s

def execOdRefresh (k : Fin 64) (s : State) : Result := onMailbox (.odRefresh k) s

def execStop (k : Fin 64) (s : State) : Result := onMailbox (.stop k) s

def execClearDrainRecord (v : W32) (s : State) : Result := onMailbox (.clearDrainRecord v) s

def execOdDrainNow (v : W32) (s : State) : Result := onMailbox (.odDrainNow v) s

def execLibStage (place : Segment) (last : Bool) (data : List Byte) (s : State) : Result := onMailbox (.libStage place last data) s

def execLibInstall (s : State) : Result := onMailbox .libInstall s

/-- SDO_SEGMENT_TIMEOUT: a segmented transfer that has stopped for 5 s is aborted (R494). -/
def execSdoSegmentTimeout (s : State) : Result :=
  onDie 12 s (fun s =>
    if s.transferStale then s.abortTransfer Ab.stopped
    else if s.uploadStale then s.endUpload.abort Ab.stopped
    else s)

/-- A processor runs again after its restart; the session core then answers the mailbox requests that were held. -/
def State.restartEnds (s : State) (d p : Nat) : State :=
  let s := s.restartDone d p
  if d = 12 ∧ p = sessionCore ∧ s.procRuns d p then
    let held := s.ect.held
    held.foldl State.answer (s.setEct { s.ect with held := [] })
  else s

end Sys2Proof.Machine
end

