-- ==== Sys2Proof/Machine/Feed.lean ====
section
/-!
DEFINITION. The entropy-feed instructions (R223): EFEED copies feed records from the store to a feed ring, ERES copies decoded codes
from a result ring to the store, one wait and one post for each record or byte.
-/

namespace Sys2Proof.Machine

/-- The checks of an EFEED or ERES as it is issued: its ring record, the ring inside a window of the session (R358), and the range of
the store; a COUNT of 0 needs no ring. -/
def feedWork (eres : Bool) : Work := fun c w s =>
  let raw := s.bytes (c.store + iRec w) 64
  let r := parseFeed raw
  let unit := if eres then 1 else 8
  if s.anyPoison (c.store + iRec w) 64 then { st := s, poison := true }
  else if badFeed raw r eres then badRecord s
  else if iCount w = 0 then { st := s }
  else if outOfStore (iLine w) (iCount w * unit) || !s.inWindow (s.rf c.base F.exeSession) r.die r.base (r.entries eres * unit) then
    storeBounds s
  else { st := s }

/-- EFEED: feed records, 8 bytes each, to the ring of an entropy unit. -/
def execEfeed (c : ClusterId) (s : State) : Result :=
  onDie c.die s (fun s => s.issueWith c 0xC0 (feedWork false) afterNone)

/-- ERES: decoded codes, one byte each, from a result ring. -/
def execEres (c : ClusterId) (s : State) : Result :=
  onDie c.die s (fun s => s.issueWith c 0xC1 (feedWork true) afterNone)

end Sys2Proof.Machine
end

