-- ==== Sys2Proof/Machine/Security.lean ====
section
/-!
DEFINITION. The security block of die 12 (R528 to R543): attestation reports, revocation records, and the entropy source of each die.
-/

namespace Sys2Proof.Machine

/-! ### Status codes of SEC_ATT_STATUS and SEC_REV_STATUS (R543) -/
namespace Att
abbrev signing : Nat := 1
abbrev writing : Nat := 2
abbrev done : Nat := 3
abbrev hostWriteFail : Nat := 8
abbrev notReady : Nat := 9
abbrev identityFault : Nat := 10
end Att

namespace Rev
abbrev busy : Nat := 1
abbrev done : Nat := 2
abbrev badHeader : Nat := 0x10
abbrev badPart : Nat := 0x11
abbrev badSlot : Nat := 0x12
abbrev badSignature : Nat := 0x13
abbrev sessionsOpen : Nat := 0x14
abbrev fuseFail : Nat := 0x15
abbrev hostReadFail : Nat := 0x16
end Rev

def State.attStatus (s : State) (code : Nat) : State := s.sf die12 F.secAttStatusCode code
def State.revStatus (s : State) (code : Nat) : State := s.sf die12 F.secRevStatusCode code

/-! ### Key slots as SEC_KEYS shows them -/

/-- The programmed slots of a set, its revoked ones, and its active one (0 when it has none). -/
def programmedBits (set : Fin 2) : Nat := ((List.finRange 4).map (fun k => b2n (slotProgrammed set k) * 2 ^ k.val)).sum
def State.revokedBits (s : State) (set : Fin 2) : Nat := ((List.finRange 4).map (fun k => b2n (s.slotRevoked set k) * 2 ^ k.val)).sum
def State.activeNo (s : State) (set : Fin 2) : Nat := match s.activeSlot set with | some k => k.val | none => 0

/-! ### Attestation (R538 to R542) -/

/-- The session that a report names: set by SESSION_EN and open at capture (R540). -/
def State.attSession (s : State) : Option Nat :=
  let n := s.rf die12 F.secAttSessionSession
  if s.bit die12 F.secAttSessionSessionEn && (s.ses n).kind != .none then some n else none

/-- A digest of 32 bytes, or zeros. -/
def orZeros (b : List Byte) : List Byte := (b ++ List.replicate 32 0).take 32

/-- The 32 bytes of SEC_ATT_NONCE0 to 7. -/
def State.nonce (s : State) : List Byte :=
  (List.range 8).flatMap (fun k => natLe 4 (s.rd (die12 + F.secAttNonce.off + 4 * k)).toNat)

/-- The active firmware package. -/
def State.activePackage (s : State) : List Byte := if s.fw.active = 0 then s.fw.shadow0 else s.fw.shadow1

/-- Bytes 0 to 319 of an attestation report (R539). -/
def State.attReport (s : State) : List Byte :=
  let n := s.attSession
  let flags := b2n s.pkg.drained + 2 * s.rf die12 F.hltStatusOverride + 4 * b2n s.belowGrade + 8 * b2n n.isSome
    + 16 * s.rf die12 F.secErrRngHealth
  let ses := match n with | some n => s.ses n | none => {}
  let head := [0x5A, 0x41, 0x54, 0x01] ++ natLe 2 1 ++ natLe 2 0x25 ++ natLe 8 Config.serial.toNat ++ natLe 1 gradeCode
    ++ natLe 1 steppingCode ++ natLe 1 flags ++ natLe 1 (s.activeNo 0 + 4 * s.activeNo 1)
    ++ natLe 1 (s.revokedBits 0 + 16 * s.revokedBits 1) ++ natLe 3 0
  let versions := natLe 4 s.fwVersion ++ natLe 4 (s.rf die12 F.hltLibVersion)
  let library := match s.selectedBank with | some k => s.flashBytes (bankBase k + 24) 32 | none => []
  let digests := digest32 s.activePackage ++ orZeros library ++ digest32 s.chartBytes
  let session := natLe 2 (n.getD 0xFFFF) ++ natLe 2 0 ++ natLe 4 (if n.isSome then ses.dies.toNat else 0) ++ natLe 4 0
    ++ natLe 8 (s.stamp 12).toNat ++ natLe 8 (match n with | some n => (s.sessionStep n).toNat | none => 0)
    ++ orZeros ses.image.digest ++ orZeros ses.image.weightDigest
  head ++ versions ++ s.nonce ++ Config.devicePublicKey.toList ++ digests ++ natLe 4 s.chart.generation.toNat ++ session

/-- A GO that the session core hands to the security block. -/
def State.attCapture (s : State) : State :=
  if s.sec.identityFault then s.attStatus Att.identityFault
  else if s.rf die12 F.fwcBootStatusCode ≠ Fw.ok ∨ s.proc 12 sessionCore ≠ Ps.running then s.attStatus Att.notReady
  else
    let s := { s with sec := { s.sec with report := s.attReport } }
    s.attStatus Att.signing

/-- SEC_ATT_CTRL.GO: ignored while a request is in progress; held while the session core restarts. -/
def State.attGo (s : State) : State :=
  let st := s.rf die12 F.secAttStatusCode
  if st = Att.signing ∨ st = Att.writing ∨ s.sec.held then s.raise die12 F.secErrAttWhileBusy
  else if !s.sec.identityFault ∧ s.proc 12 sessionCore = Ps.restarting then { s with sec := { s.sec with held := true } }
  else s.attCapture

def execSecAttGo (s : State) : Result := onDie 12 s State.attGo

/-- The report and its signature (R539). -/
def State.signedReport (s : State) : List Byte := s.sec.report ++ (List.range sigBytes).map (Config.attestSignature s.sec.report)

/-- The host address of the report. -/
def State.attDst (s : State) : Nat := s.rf die12 F.secAttDstLo + s.rf die12 F.secAttDstHi * 2 ^ 32

/-- The report is written to its destination once die 12 has a route, until then the status stays WRITING (R405, R542), as it does while WRITEs of it
wait at the link; a write that fails discards it. DONE comes with the host's acknowledgement, which the operand stands for (R402, R538). -/
def State.attWrite (s : State) (hostOk : Bool) : State :=
  let drop := fun (s : State) => { s with sec := { s.sec with report := [] } }
  if !hostOk then drop (s.attStatus Att.hostWriteFail)
  else
    match s.route 12 with
    | none => (s.raise die12 F.lnkDieErrHostLost).attStatus Att.writing
    | some l =>
      if s.sec.report.isEmpty then
        if (s.lnk l).waitingWrites.any (fun w => w.die == 12) then s else s.attStatus Att.done
      else
        let w := s.hostWrite 12 noSessionMark s.attDst s.signedReport
        drop (w.1.attStatus (if w.2 = .made then Att.done else Att.writing))

/-- ATT_SIGN_DONE: signing ends after some ms, or a report that was held is written. -/
def State.attSigned (s : State) (ms : BitVec 16) (hostOk : Bool) : State :=
  let st := s.rf die12 F.secAttStatusCode
  if st = Att.signing then (s.attWrite hostOk).sf die12 F.secAttStatusMs ms.toNat
  else if st = Att.writing then s.attWrite hostOk
  else s

def execAttSignDone (ms : BitVec 16) (hostOk : Bool) (s : State) : Result := onDie 12 s (fun s => s.attSigned ms hostOk)

/-- PROC_RESTART_DONE: the processor runs again; the answers to fault records that the service core was to act on, and an attestation GO that the
session core held, are acted on (R429, R542). -/
def State.coreBack (s : State) (d p : Nat) : State :=
  let s := s.restartEnds d p
  let s := if p = serviceCore ∧ s.procRuns d p then s.answersDue d else s
  if s.sec.held ∧ d = 12 ∧ p = sessionCore ∧ s.procRuns d p then ({ s with sec := { s.sec with held := false } }).attCapture else s

def execProcRestartDone (d : Die) (p : ProcNo) (s : State) : Result := onDie d s (fun s => s.coreBack d p)

/-! ### Revocation (R535, R536) -/

/-- The bytes of a revocation record. -/
def revBytes : Nat := 32 + sigBytes

/-- The set of keys that a record's SET names. -/
def revSet (b : List Byte) : Fin 2 := if leAt b 4 1 = 2 then 1 else 0

/-- What a revocation record fails first. -/
def State.revFailure (s : State) (b : List Byte) : Option Nat :=
  let set := revSet b
  let slot := leAt b 5 1
  let serial := leAt b 8 8
  if b.take 4 ≠ [0x5A, 0x4B, 0x52, 0x01] ∨ !(leAt b 4 1 == 1 || leAt b 4 1 == 2) ∨ (sliceB b 16 16).any (fun x => x != 0) then
    some Rev.badHeader
  else if leAt b 6 2 ≠ 0x25 ∨ !(serial == 0 || serial == Config.serial.toNat) then some Rev.badPart
  else if h : slot < 4 then
    let k : Fin 4 := ⟨slot, h⟩
    let above := match s.activeSlot set with | some a => decide (a.val < slot) | none => true
    if !above ∨ !slotProgrammed set k ∨ s.slotRevoked set k then some Rev.badSlot
    else if !signedBy set k b then some Rev.badSignature
    else none
  else some Rev.badSlot

/-- SEC_REV_CTRL.GO: the record is read from the host and checked; then its fuses are blown. -/
def State.revGo (s : State) : State :=
  if s.rf die12 F.secRevStatusCode = Rev.busy then s.raise die12 F.secErrRevWhileBusy
  else if s.anySession || s.rf die12 F.fwcBootStatusCode == Fw.busy || s.actBusy || s.libBusy then s.revStatus Rev.sessionsOpen
  else
    let src := s.rf die12 F.secRevSrcLo + s.rf die12 F.secRevSrcHi * 2 ^ 32
    let r := s.hostRead 12 src revBytes
    let s := s.askHost 12 src revBytes
    if r.2 then s.revStatus Rev.hostReadFail
    else
      match s.revFailure r.1 with
      | some code => s.revStatus code
      | none =>
        let s := { s with sec := { s.sec with revoking := some ((revSet r.1).val, leAt r.1 5 1) } }
        s.revStatus Rev.busy

def execSecRevGo (s : State) : Result := onDie 12 s State.revGo

/-- REVOCATION_COMPLETE: the fuses of the first slots below NEW_SLOT read back as blown; all of them end it, fewer are FUSE_FAIL. -/
def State.revDone (s : State) (blown : Nat) : State :=
  match s.sec.revoking with
  | none => s
  | some x =>
    let bits : BitVec 4 := BitVec.ofNat 4 (2 ^ min blown x.2 - 1)
    let y := { s.sec with revoking := none }
    let y := if x.1 = 0 then { y with revokedFw := y.revokedFw ||| bits } else { y with revokedExam := y.revokedExam ||| bits }
    ({ s with sec := y }).revStatus (if x.2 ≤ blown then Rev.done else Rev.fuseFail)

def execRevocationComplete (blown : Nat) (s : State) : Result := onDie 12 s (fun s => s.revDone blown)

/-! ### The entropy source (R537) -/

/-- RNG_HEALTH_FAIL: no further word is delivered until a package reset. -/
def State.rngFails (s : State) (d : Nat) : State :=
  (s.setDie d { s.die d with rngWord := none }).raise (key d 0) F.secErrRngHealth

def execRngHealthFail (d : Die) (s : State) : Result := onDie d s (fun s => s.rngFails d)

/-- SEC_RNG_REFILL: a new random word, whose value nothing states, is ready. -/
def State.rngRefill (s : State) (d : Nat) : State :=
  if s.bit (key d 0) F.secErrRngHealth ∨ (s.die d).rngWord.isSome then s
  else
    let r := s.free
    r.2.setDie d { r.2.die d with rngWord := some (r.1.setWidth 32) }

def execSecRngRefill (d : Die) (s : State) : Result := onDie d s (fun s => s.rngRefill d)

/-- A read of SEC_RNG: the word, or 0 with RNG_EMPTY. -/
def State.rngRead (s : State) (d : Nat) : Nat × State :=
  match (s.die d).rngWord with
  | some w => (w.toNat, s.setDie d { s.die d with rngWord := none })
  | none => (0, s.raise (key d 0) F.secErrRngEmpty)

end Sys2Proof.Machine
end

