-- ==== Sys2Proof/Machine/Shown.lean ====
section
/-!
DEFINITION. What a read of a control-window register returns (R11, R15, R16): the fields that State holds, those that follow from the rest of
the state, and which registers a die has.
-/

namespace Sys2Proof.Machine

/-! ### Where an offset lies -/

/-- The cluster whose block holds an offset, with the offset in the block (R230). -/
def clusterAt (d : Die) (off : Nat) : Option (ClusterId × Nat) :=
  if h : 0x10_0000 ≤ off ∧ off < 0x20_0000 ∧ (off - 0x10_0000) % 0x2_0000 / 0x1000 < 17 then
    some ({ die := d, region := ⟨(off - 0x10_0000) / 0x2_0000, by omega⟩,
            slot := ⟨(off - 0x10_0000) % 0x2_0000 / 0x1000, h.2.2⟩ }, (off - 0x10_0000) % 0x1000)
  else none

/-- The entropy unit whose block holds an offset, with the offset in the block (R106). -/
def unitAt (off : Nat) : Option (Fin 8 × Nat) :=
  if h : 0x60_0000 ≤ off ∧ off < 0x68_0000 then some (⟨(off - 0x60_0000) / 0x1_0000, by omega⟩, (off - 0x60_0000) % 0x1_0000) else none

/-- The channel of a unit whose registers hold an offset of the unit, with the offset in the channel. -/
def channelReg (d : Die) (u : Fin 8) (o : Nat) : Option (ChannelId × Nat) :=
  if h : 0x100 ≤ o ∧ o < 0x200 then some ({ die := d, unit := u, chan := ⟨(o - 0x100) / 0x40, by omega⟩ }, (o - 0x100) % 0x40) else none

/-- The channel and lane whose context holds an offset of the unit, with the offset in the context. -/
def laneReg (d : Die) (u : Fin 8) (o : Nat) : Option (ChannelId × Nat × Nat) :=
  if h : 0x400 ≤ o ∧ o < 0x800 then
    some ({ die := d, unit := u, chan := ⟨(o - 0x400) / 0x100, by omega⟩ }, (o - 0x400) % 0x100 / 0x20, o % 0x20)
  else none

/-- The local link of a die whose block holds an offset, with the offset in the block (R416). -/
def linkAt (d off : Nat) : Option (Nat × Nat) :=
  if 0x7C_0000 ≤ off ∧ off < 0x7C_1000 then ((linksOf d)[(off - 0x7C_0000) / 0x400]?).map (fun l => (l, off % 0x400)) else none

/-- Does an offset lie from lo up to hi? -/
def within (off lo hi : Nat) : Bool := decide (lo ≤ off) && decide (off < hi)

/-- The registers that a die has: those of R341 at the queue's die, of R387 at its memories, and of R442, R483, R506, R526, R543 and R564
that only die 12 has. The others read 0 and ignore writes. The blocks of every cluster are there, those of a region without supply too
(notes/assumptions/68.md). -/
def State.present (s : State) (d off : Nat) : Bool :=
  if within off 0x74_0000 0x74_8000 then s.qDie ((off - 0x74_0000) / 0x20) == d
  else if within off 0x78_0000 0x7A_0000 then
    let o := off - 0x78_0000
    if (within o 0x4 0x10 || within o 0x14 0x24) && !isPerimeter d then false
    else !(within o 0x40 0x4C && !isCorner d)
  else if d == 12 then true
  else if within off 0x7A_0000 0x7B_0000 then
    let o := off - 0x7A_0000
    !(within o 0xC 0x18 || within o 0x90 0x94 || within o 0xA0 0xB8 || within o 0x1000 0x1800)
  else if within off 0x7B_0000 0x7C_0000 then
    let o := off - 0x7B_0000
    o == 0 || within o 0x18 0x24
  else if within off 0x7D_0000 0x7E_0000 then false
  else if within off 0x7E_0000 0x7F_0000 then
    let o := off - 0x7E_0000
    !(within o 0x300 0x400 || within o 0x1100 0x1124 || within o 0x1200 0x1230)
  else !within off 0x7F_0100 0x80_0000

/-! ### The values of registers that follow from the rest of the state -/

/-- The semaphore on which a waiting engine waits. -/
def State.waitsOn (s : State) (c : ClusterId) : Nat :=
  if s.exe c = Ex.waiting then (match s.nextWait c with | some w => w.2.1 | none => 0) else 0

/-- The queues of a fetch engine in some states. -/
def State.queuesIn (s : State) (c : ClusterId) (p : Nat → Bool) : Nat := ((List.range 64).filter (fun q => p (s.fqState c q))).length

/-- A register of a cluster block; w is what State holds for it. -/
def State.clusterShown (s : State) (c : ClusterId) (o w : Nat) : Nat :=
  if o = 0x000 then c.die + 32 * c.region + 256 * c.slot
  else if o = 0x004 then
    (s.logical c.die c.region c.slot).getD 0 + 16 * (if !s.regionOk c.die c.region then 3 else if s.startUpSlot = some c.slot.val then 4 else s.slotState c.die c.region c.slot)
  else if o = 0x00C then s.islandMHz c
  else if o = 0x010 then b2n (s.engineBusy c)
  else if o = 0x408 then
    w % 8 + 8 * b2n (!(s.cl c).unitPipe.isEmpty) + 16 * b2n (!(s.cl c).finPipe.isEmpty) + 65536 * s.waitsOn c
  else if o = 0x804 then
    s.queuesIn c (fun st => st != Fq.idle) + 256 * s.queuesIn c (fun st => st == Fq.parkedFault || st == Fq.parkedPause)
      + 65536 * min 127 (((List.range 64).map (fun q => (s.fq c q).inflight.length)).sum)
  else if within o 0x880 0x900 then leAt (sliceB (s.fq c (s.rf c.base F.fetQsel)).desc 0 128) (o - 0x880) 4
  else w

/-- The channels of a unit. -/
def chansOf (d : Die) (u : Fin 8) : List ChannelId := (List.finRange 4).map (fun c => { die := d, unit := u, chan := c })

/-- Records that wait in the feed ring of a channel: those FEED_READY counts, and one whose wait is satisfied (notes/assumptions/39.md). -/
def State.feedWaiting (s : State) (ch : ChannelId) : Nat :=
  if s.bit ch.base F.entChCtrlEnable then min 0xFFFF (s.sem ch.die (s.rf ch.base F.entChSemFeedReady) + b2n (s.chan ch).fed) else 0

/-- A register of an entropy unit. -/
def State.entShown (s : State) (d : Die) (u : Fin 8) (o w : Nat) : Nat :=
  let bits := fun (p : ChannelId → Bool) => ((chansOf d u).map (fun ch => b2n (p ch) * 2 ^ ch.chan.val)).sum
  if o = 0x000 then d + 32 * u + 256 * steppingCode
  else if o = 0x008 then bits (fun ch => s.bit ch.base F.entChCtrlEnable) + 16 * bits (fun ch => s.bit ch.base F.entChStatusOpen)
  else match channelReg d u o with
    | some x => if x.2 = 0x20 then w % 65536 + 65536 * s.feedWaiting x.1 else w
    | none => w

/-- The waiters that are blocked on a die (R291): engines, queues without credit, and channels. -/
def State.blockedOn (s : State) (d : Die) : Nat :=
  let engines := ((clustersOf d).filter (fun c => s.exe c == Ex.waiting)).length
  let queues := ((clustersOf d).map (fun c => s.queuesIn c (fun st => st == Fq.creditWait))).sum
  let chans := ((List.finRange 8).flatMap (chansOf d)).filter (fun ch =>
    s.bit ch.unitBase F.entCtrlEnable && s.bit ch.base F.entChCtrlEnable &&
    (if (s.chan ch).result.isSome then !(s.chan ch).freed && s.sem d (s.rf ch.base F.entChSemResFree) == 0
     else !(s.chan ch).fed && s.sem d (s.rf ch.base F.entChSemFeedReady) == 0))
  engines + queues + chans.length

/-- A MEM register. -/
def State.memShown (s : State) (d o w : Nat) : Nat :=
  if o = 0x000 then d + 32 * b2n (isPerimeter d) + 64 * b2n (isCorner d) + 256 * ordinalOf d
  else if o = 0x020 then s.pdirCount d
  else if o = 0x104 then
    match Sparse.get (fun _ => none) (s.die d).windows (s.rf (key d 0) F.memDbwSel) with
    | some x => x.2.1 + 256 * x.2.2 + 65536 * x.1
    | none => 0
  else w

/-- The card that HLT_CARD_SEL selects: card HLT_CARD_HEAD − 1 is the newest. -/
def State.selectedCard (s : State) (d : Nat) : List Byte :=
  let cards := (s.die d).cards
  let age := (s.rf (key d 0) F.hltCardHead + 255 - s.rf (key d 0) F.hltCardSel) % 256
  if age < cards.length then cards.getD (cards.length - 1 - age) [] else []

/-- An HLT register. -/
def State.hltShown (s : State) (d o w : Nat) : Nat :=
  let x := s.die d
  if o = 0x000 then d
  else if o = 0x004 then
    let place := match x.recess with | k :: _ => 16 + 256 * (k % 17) + 8192 * (k / 17) | [] => 0
    b2n s.pkg.drained + 2 * b2n s.draining + 4 * s.rf die12 F.hltStatusOverride + 8 * b2n s.belowGrade + place + 65536 * x.cards.length
  else if within o 0x40 0x80 then leAt (s.selectedCard d) (o - 0x40) 4
  else if o = 0x084 then s.examStatus d
  else if within o 0x1000 0x1800 then leAt s.chartBytes (o - 0x1000) 4
  else w

/-- A SEC register. -/
def State.secShown (s : State) (d o w : Nat) : Nat :=
  if o = 0x000 then d + 32 * b2n (d == 12)
  else if o = 0x004 then Config.serial.toNat % 2 ^ 32
  else if o = 0x008 then Config.serial.toNat / 2 ^ 32
  else if o = 0x00C then gradeCode + 256 * steppingCode
  else if o = 0x010 then
    programmedBits 0 + 16 * s.revokedBits 0 + 256 * programmedBits 1 + 4096 * s.revokedBits 1 + 65536 * s.activeNo 0
      + 262144 * s.activeNo 1
  else if o = 0x01C then w + 16 * b2n (d == 12 && s.sec.identityFault)
  else if within o 0x40 0x80 then leAt Config.devicePublicKey.toList (o - 0x40) 4
  else if within o 0x80 0xC0 then
    let set : Fin 2 := if s.bit die12 F.secKeySelSet then 1 else 0
    leAt (slotKey set (Fin.ofNat 4 (s.rf die12 F.secKeySelSlot))) (o - 0x80) 4
  else w

/-- A register of a link; the channel registers show the channel that LNK_CH_SEL selects. -/
def State.lnkShown (s : State) (l o w : Nat) : Nat :=
  let x := s.lnk l
  let k := s.selChannel l
  if o = 0x000 then l + 64 * linkLocal l + 256
  else if o = 0x02C then x.credits.getD 2 0 + 65536 * min 256 x.unacked
  else if within o 0x44 0x5C then
    let v := (s.brd (chanKey l k.1 k.2 ⟨o, 31, 0⟩)).toNat
    if o = 0x58 then
      let c := Sparse.get (fun _ => {}) (if k.1 then x.rx else x.tx) k.2
      v % 65536 + 65536 * min 0xFFFF (if k.1 then c.written - c.freed else c.sent - c.credited)
    else v
  else w

/-- An FWC register of a die. -/
def State.fwcShown (s : State) (d o w : Nat) : Nat :=
  if o < 0x400 then
    if o % 0x100 = 0 then o / 0x100
    else if o % 0x100 = 8 then w + 256 * min 4 (s.recentRestarts d (o / 0x100)).length
    else w
  else if o = 0x1004 then (s.stamp d).toNat % 2 ^ 32
  else if o = 0x1008 then (s.stamp d).toNat / 2 ^ 32
  else if o = 0x1040 then
    match s.partOf d with
    | some p => lowestDie p.dies + 256 * PartState.code p.state
    | none => 256
  else if o = 0x1120 then
    let ms := match s.fw.firstEmergency with | some t => ((s.stamp 12).toNat - t.toNat) / 100_000 | none => 0
    w % 256 + 256 * b2n s.emergencyNow + 65536 * min 0xFFFF ms
  else if o = 0x1228 then w + b2n s.partBusy
  else w

/-- An ECT register. -/
def State.ectShown (s : State) (o w : Nat) : Nat :=
  let x := s.ect
  if o = 0x004 then
    alCode x.state + 16 * b2n x.link0 + 32 * b2n x.link1 + 64 * b2n x.closed1 + 256 * (match x.level with | .observer => 0 | .operator => 1 | .maintainer => 2)
      + 1024 * b2n x.locked + 2048 * b2n x.opDigest.isSome + 4096 * b2n x.maDigest.isSome
  else if within o 0x10 0x30 then 0
  else if o = 0x044 then min 0xFFFF (((s.stamp 12).toNat - x.lastRefresh.toNat) / 100)
  else w

/-- A PWR register. -/
def State.pwrShown (s : State) (d o w : Nat) : Nat :=
  let b := key d 0
  let r := s.rf b F.pwrVregSel
  let rail := s.rail (s.rf die12 F.pwrRailSel)
  if o = 0x000 then d
  else if o = 0x010 then (Sparse.get (fun _ => (0 : BitVec 16)) (s.die d).sensors (s.rf b F.pwrTsenseSel)).toNat
  else if o = 0x028 then s.vWanted d r + 65536 * s.vApplied d r
  else if o = 0x02C then vop d r
  else if o = 0x10C then rail.vout.toNat
  else if o = 0x110 then rail.iout.toNat
  else if o = 0x114 then rail.status.toNat + 65536 * b2n rail.present + 131072 * b2n rail.lost
  else w

/-- The value of a register before a read clears any of it (R15, R16): an offset that is no register's reads 0. -/
def State.shown (s : State) (d : Die) (off : Nat) : Nat :=
  let w := (s.rd (key d off)).toNat
  if off % 4 ≠ 0 || !s.present d off then 0
  else if off < 0x60_0000 then
    match clusterAt d off with
    | some x => s.clusterShown x.1 x.2 w
    | none => 0
  else if off < 0x68_0000 then
    match unitAt off with
    | some x => s.entShown d x.1 x.2 w
    | none => 0
  else if off < 0x68_0100 then logistic.getD ((off - 0x68_0000) / 4) 0
  else if off = 0x71_8008 then s.blockedOn d
  else if within off 0x78_0000 0x7A_0000 then s.memShown d (off - 0x78_0000) w
  else if within off 0x7A_0000 0x7B_0000 then s.hltShown d (off - 0x7A_0000) w
  else if within off 0x7B_0000 0x7C_0000 then s.secShown d (off - 0x7B_0000) w
  else if within off 0x7C_0000 0x7C_1000 then
    match linkAt d off with
    | some x => s.lnkShown x.1 x.2 w
    | none => 0
  else if within off 0x7D_0000 0x7E_0000 then s.ectShown (off - 0x7D_0000) w
  else if within off 0x7E_0000 0x7F_0000 then s.fwcShown d (off - 0x7E_0000) w
  else if within off 0x7F_0000 0x80_0000 then s.pwrShown d (off - 0x7F_0000) w
  else w

/-! ### Reads -/

/-- The read-clear fields of a register set to 0. -/
def State.clearRc (s : State) (d : Die) (off : Nat) : State :=
  let fs := (fieldsAt off).filter (fun f => f.acc == .rc)
  if fs.isEmpty || !s.present d off then s
  else
    s.wr (key d off) (fs.foldl (fun w f => setF w f.fld.hi f.fld.lo 0) (s.rd (key d off)))

/-- The register whose value nothing in the model's terms states: the passes of the selected trace point (FWC_TRACE_COUNT, R436). -/
def openCount (_ : Die) (off : Nat) : Bool := off == 0x7E_101C

/-- The processor that a trace point belongs to (R436). -/
def traceOwner (k : Nat) : Nat := k / 64

/-- Can no pass have been counted: the owner has not run since the reset, or none of the die's time has gone by since the last read? -/
def State.noPasses (s : State) (d k : Nat) : Bool :=
  let p := traceOwner k
  !hasProc d p || decide (s.proc d p ≤ Ps.starting) || Sparse.get (fun _ => 0) (s.die d).traceRead k == (s.stamp d).toNat + 1

/-- A read of FWC_TRACE_COUNT: the passes that wrote a record, and those that wrote none, which are a free value, but 0 where no pass can have been
counted; the count starts again (R15, R19). -/
def State.traceCount (s : State) (d : Nat) : W32 × State :=
  let k := s.rf (key d 0) F.fwcTraceSel
  let x := s.die d
  let t := s.setDie d { x with traceRead := Sparse.put (fun _ => 0) x.traceRead k ((s.stamp d).toNat + 1)
                               traced := Sparse.put (fun _ => 0) x.traced k 0 }
  let n := Sparse.get (fun _ => 0) x.traced k
  if s.noPasses d k then (hold32 0 n, t)
  else
    let r := t.free
    (hold32 (r.1.setWidth 32) n, r.2)

/-- A read of a register: its value, and the state with its read-clear fields cleared (R15). The random word, whether a scrub pass is active
and the passes of a trace point read as free values (notes/assumptions/39.md, 46.md). -/
def State.readReg (s : State) (d : Die) (off : Nat) : W32 × State :=
  if off = 0x7B_0018 then
    let r := s.rngRead d
    (BitVec.ofNat 32 r.1, r.2)
  else if openCount d off && s.present d off then s.traceCount d
  else
    let v := s.shown d off
    match clusterAt d off with
    | some (c, 0x010) =>
      if s.bit c.base F.clsCtrlScrub && s.bit c.base F.clsCtrlIslandEn then
        let r := s.free
        (BitVec.ofNat 32 (v + 2 * (r.1.toNat % 2)), r.2)
      else (BitVec.ofNat 32 v, s)
    | _ => (BitVec.ofNat 32 v, s.clearRc d off)

end Sys2Proof.Machine
end

