-- ==== Sys2Proof/Machine/Registers.lean ====
section
/-!
DEFINITION. Writes of control-window registers: by the access code of each field (R15, R16), and by the Effect column where a register has an
effect of its own.
-/

namespace Sys2Proof.Machine

/-! ### By access code (R15) -/

/-- A word written to a register: its RW fields take the value, its W1C bits are cleared where the value is 1, the others keep theirs. -/
def writeFields (fs : List RegField) (old v : W32) : W32 :=
  fs.foldl (fun w f =>
    match f.acc with
    | .rw => setF w f.fld.hi f.fld.lo (getF v f.fld.hi f.fld.lo)
    | .w1c => if getF v f.fld.hi f.fld.lo = 1 then setF w f.fld.hi f.fld.lo 0 else w
    | _ => w) old

/-- A register without an effect of its own written. -/
def State.wrPlain (s : State) (d off : Nat) (v : W32) : State :=
  s.wr (key d off) (writeFields (fieldsAt off) (s.rd (key d off)) v)

/-- The W1C bits alone. -/
def State.wrClear (s : State) (d off : Nat) (v : W32) : State :=
  s.wr (key d off) (writeFields ((fieldsAt off).filter (fun f => f.acc == .w1c)) (s.rd (key d off)) v)

/-- A field written when its value is in range. -/
def State.wrIf (s : State) (ok : Nat → Bool) (b : Nat) (f : Fld) (v : W32) : State :=
  let x := getF v f.hi f.lo
  if ok x then s.sf b f x else s

/-- The partition of a die is in START-UP: no partition holds it before the first is formed (R548). -/
def State.inStartUp (s : State) (d : Nat) : Bool :=
  match s.partOf d with
  | some p => p.state == .startUp
  | none => true

/-- Bit n of a word. -/
def wBit (v : W32) (n : Nat) : Bool := v.getLsbD n

/-- An effect that a bit of the word written has. -/
def State.when_ (s : State) (c : Bool) (f : State → State) : State := if c then f s else s

/-! ### Clusters -/

/-- EXE_CTRL: ORDERED and PAUSE_REQ take their values, then HALT, START and RESUME act (R229, R230). A word that leaves ORDERED as it is writes
the other bits only (notes/assumptions/58.md). -/
def State.exeCtrlWrite (s : State) (c : ClusterId) (v : W32) : State :=
  let s := if getF v 3 3 = s.rf c.base F.exeCtrlOrdered then s else s.exeConfig c .ordered v
  let s := s.sf c.base F.exeCtrlPauseReq (getF v 2 2)
  let s := s.when_ (wBit v 1) (fun s => s.haltAndDrop c)
  let s := s.when_ (wBit v 0) (fun s => if s.exe c = Ex.idle ∨ s.exe c = Ex.ended then s.startList c else s)
  s.when_ (wBit v 4) (fun s => if s.exe c = Ex.paused then s.setExe c Ex.running else s)

/-- FET_Q_CTRL of a queue: SESSION while the queue is not busy, then ABORT and ARM, and RESUME and GIVE_UP from the service core (R289). -/
def State.fetchQueueWrite (s : State) (by_ : Agent) (c : ClusterId) (q o : Nat) (v : W32) : State :=
  let b := c.fetchBase q
  if o = 0x0 then
    let s := s.when_ (!s.fqBusy c q) (fun s => s.sf b F.fetQCtrlSession (getF v 27 16))
    let s := s.when_ (wBit v 1) (fun s => s.abortQueue c q)
    let s := s.when_ (wBit v 2 && by_ == .service) (fun s => s.resumeQueue c q)
    let s := s.when_ (wBit v 3 && by_ == .service) (fun s => s.giveUpQueue c q)
    s.when_ (wBit v 0) (fun s => s.armQueue c q (s.fqSession c q))
  else if o = 0xC then s.when_ (!s.fqBusy c q) (fun s => s.sf b F.fetQRposRing (getF v 31 16))
  else s.wrPlain c.die (b % 0x100_0000 + o) v

/-- A register of a cluster block. -/
def State.clusterWrite (s : State) (by_ : Agent) (c : ClusterId) (o : Nat) (v : W32) : State :=
  if o = 0x008 then s.clsCtrlWrite by_ c v
  else if o = 0x400 then s.exeCtrlWrite c v
  else if o = 0x404 then s.exeConfig c .session v
  else if o = 0x410 then s.exeConfig c .listBase v
  else if o = 0x414 then s.exeConfig c .listSize v
  else if o = 0x418 then s.exeConfig c .listSem v
  else if o = 0x41C then s.exeConfig c .listLen v
  else if o = 0x420 then s.exeConfig c .waitLimit v
  else if o = 0x800 then s.fetchCtrl c v
  else if within o 0x880 0x900 then s.descWrite c ((o - 0x880) / 4) v
  else if 0xC00 ≤ o then s.fetchQueueWrite by_ c ((o - 0xC00) / 0x10) (o % 0x10) v
  else s.wrPlain c.die (c.base % 0x100_0000 + o) v

/-! ### Entropy units -/

/-- The lane-context register at an offset. -/
def laneRegAt (o : Nat) : LaneReg :=
  [.low, .range, .cache, .pend, .pos, .offset, .len, .syms].getD (o / 4) .low

/-- ENT_CH_CTRL: SESSION, DIR while ENABLE is 0, ABORT, and ENABLE (R104, R106, R107). -/
def State.chCtrlWrite (s : State) (ch : ChannelId) (v : W32) : State :=
  let on := s.bit ch.base F.entChCtrlEnable
  let s := s.sf ch.base F.entChCtrlSession (getF v 27 16)
  let s := s.when_ (!on) (fun s => s.sf ch.base F.entChCtrlDir (getF v 1 1))
  let s := s.when_ (wBit v 2) (fun s => s.chAbort ch)
  if wBit v 0 then s.chEnable ch else s.sf ch.base F.entChCtrlEnable 0

/-- A register of an entropy unit. -/
def State.entWrite (s : State) (d : Die) (u : Fin 8) (o : Nat) (v : W32) : State :=
  if within o 0x4000 0x8000 then
    let t := (o - 0x4000) / 0x80
    let k := o % 0x80 / 2
    (s.sideWrite d u t k (v.setWidth 16)).sideWrite d u t (k + 1) ((v >>> 16).setWidth 16)
  else
    match channelReg d u o, laneReg d u o with
    | some x, _ => if x.2 = 0 then s.chCtrlWrite x.1 v else s.wrPlain d (entOff u + o) v
    | none, some x => s.laneWrite x.1 x.2.1 (laneRegAt x.2.2) v
    | none, none => s.wrPlain d (entOff u + o) v

/-! ### Memory, health, security, power -/

/-- A MEM register, at an offset from 0x78_0000 (R387). -/
def State.memWrite (s : State) (d : Die) (o : Nat) (v : W32) : State :=
  let b := key d 0
  if o = 0x004 then
    if s.inStartUp d then (s.wrIf (fun x => decide (x < 3)) b F.memGdCfgRate v).sf b F.memGdCfgPatrolEn (getF v 8 8)
    else s.raise b F.memGdErrCfgWriteWhileBusy
  else if o = 0x088 then s.wrIf (fun x => decide (6 ≤ x ∧ x ≤ 12)) b F.memFaultSize v
  else if o = 0x090 then s.faultHead d v
  else if o = 0x094 then s.faultResp d v
  else if o = 0x098 then s.wrIf (fun x => x != 0) b F.memFaultLimit v
  else if within o 0xC0 0xD0 then
    if s.bit b F.memInvStatusBusy then s.raise b F.memInvStatusInvWhileBusy
    else
      let s := s.wrPlain d (0x78_0000 + o) v
      s.when_ (o == 0xCC && wBit v 31) (fun s => s.invGo d)
  else s.wrPlain d (0x78_0000 + o) v

/-- HLT_DRAIN_CTRL of die 12: OVERRIDE in START-UP only, DRAIN_NOW, and CLEAR_RECORD from the session core only (R463 to R465, R482). -/
def State.drainCtrlWrite (s : State) (by_ : Agent) (v : W32) : State :=
  let x := getF v 0 0
  let s :=
    if x = s.rf die12 F.hltDrainCtrlOverride then s
    else if s.inStartUp 12 then s.sf die12 F.hltDrainCtrlOverride x
    else s.raise die12 F.hltErrCfgRefused
  let s := s.when_ (wBit v 1 && (by_ == .host || by_ == .sessionCore)) State.drainRequest
  s.when_ (wBit v 2) (fun s => if by_ = .sessionCore then s.eraseDrainRecord else s.raise die12 F.hltErrCfgRefused)

/-- An HLT register, at an offset from 0x7A_0000 (R483). -/
def State.hltWrite (s : State) (by_ : Agent) (d : Die) (o : Nat) (v : W32) : State :=
  let b := key d 0
  let some_ := fun (x : Nat) => x != 0
  if o = 0x00C then s.wrIf (fun x => decide (3 ≤ x ∧ x ≤ 6)) b F.hltSample v
  else if o = 0x010 ∨ o = 0x014 then s.when_ (s.inStartUp 12) (fun s => s.wrPlain d (0x7A_0000 + o) v)
  else if o = 0x018 then (s.wrIf some_ b F.hltSuspectN v).wrIf some_ b F.hltSuspectWin v
  else if o = 0x01C then s.wrIf some_ b F.hltWdig v
  else if o = 0x080 then ((s.wrIf some_ b F.hltExamCfgPeriod v).wrIf some_ b F.hltExamCfgWait v).sf b F.hltExamCfgPause (getF v 16 16)
  else if o = 0x090 then s.drainCtrlWrite by_ v
  else if o = 0x0AC then (s.wrPlain d (0x7A_0000 + o) v).when_ (wBit v 0) State.libGo
  else s.wrPlain d (0x7A_0000 + o) v

/-- A SEC register, at an offset from 0x7B_0000 (R543). -/
def State.secWrite (s : State) (d : Die) (o : Nat) (v : W32) : State :=
  if o = 0x12C then s.when_ (wBit v 0) State.attGo
  else if o = 0x148 then s.when_ (wBit v 0) State.revGo
  else s.wrPlain d (0x7B_0000 + o) v

/-- An ECT register, at an offset from 0x7D_0000 (R497, R506). -/
def State.ectWrite (s : State) (o : Nat) (v : W32) : State :=
  if within o 0x10 0x30 then s.bwr (digestKey 0 ((o - 0x10) / 4)) v
  else if o = 0x030 then
    (s.when_ (wBit v 0) (fun s => s.setDigest (some s.stagedDigest))).when_ (wBit v 1) (fun s => s.setDigest none)
  else s.wrPlain 12 (0x7D_0000 + o) v

/-- A PWR register, at an offset from 0x7F_0000 (R526). -/
def State.pwrWrite (s : State) (d : Die) (o : Nat) (v : W32) : State :=
  if o = 0x018 then s.freqReq d v
  else if o = 0x028 then s.vregReq d v
  else s.wrPlain d (0x7F_0000 + o) v

/-! ### Links -/

/-- LNK_CH_CTRL and the channel registers of the selected channel: ignored while ENABLE is 1, but for ENABLE and ABORT (R416). -/
def State.linkChannelWrite (s : State) (l o : Nat) (v : W32) : State :=
  let k := s.selChannel l
  let on := s.crf l k.1 k.2 F.lnkChCtrlEnable == 1
  let kk := chanKey l k.1 k.2 ⟨o, 31, 0⟩
  if o = 0x44 then
    let s := s.when_ (!on) (fun s => s.csf l k.1 k.2 F.lnkChCtrlSession (getF v 27 16))
    let s := s.when_ (wBit v 1) (fun s => s.abortSelected l)
    if wBit v 0 then s.enableChannel l else (s.csf l k.1 k.2 F.lnkChCtrlEnable 0).csf l k.1 k.2 F.lnkChStatusActive 0
  else if on then s
  else s.bwr kk (writeFields ((fieldsAt (0x7C_0000 + o)).filter (fun f => f.acc == .rw)) (s.brd kk) v)

/-- A register of a link (R398, R400, R416). -/
def State.linkWrite (s : State) (d : Die) (l off : Nat) (v : W32) : State :=
  let o := off % 0x400
  if o = 0x004 then
    let s := (s.wrIf (fun x => decide (x < 3)) (lnkBase l) F.lnkCfgRole v).sf (lnkBase l) F.lnkCfgAutoRetrain (getF v 2 2)
    s.when_ (wBit v 3) (fun s => s.retrainLink l)
  else if within o 0x44 0x5C then s.linkChannelWrite l o v
  else s.wrPlain d off v

/-- LNK_HROUTE: outside START-UP a write is ignored with CFG_REFUSED, but for one that leaves the routes as they are and clears USING_SECONDARY (R403,
R404, R415; notes/assumptions/39.md). -/
def State.hrouteWrite (s : State) (d : Die) (v : W32) : State :=
  let old := s.rd (key d 0x7C_1004)
  let new := writeFields ((fieldsAt 0x7C_1004).filter (fun f => f.acc == .rw)) old v
  let clears := wBit v 16 && s.bit (key d 0) F.lnkHrouteUsingSecondary
  if !s.inStartUp d && !(new == old && clears) then s.raise (key d 0) F.lnkDieErrCfgRefused
  else
    let s := if new = old then s else (s.wr (key d 0x7C_1004) new).routesUp
    s.when_ clears (fun s => s.clearSecondary d)

/-- A link register of a die. -/
def State.lnkDieWrite (s : State) (d : Die) (off : Nat) (v : W32) : State :=
  if off = 0x7C_1000 then
    if s.inStartUp d then s.wrPlain d off v else s.raise (key d 0) F.lnkDieErrCfgRefused
  else if off = 0x7C_1004 then s.hrouteWrite d v
  else if off = 0x7C_1018 then s.wrIf (fun x => x != 0) (key d 0) F.lnkHold v
  else s.wrPlain d off v

/-! ### Firmware and start-up -/

/-- An FWC register, at an offset from 0x7E_0000 (R442, R564). The program counter that a restart by register write records has no value that
anything states (notes/assumptions/39.md). -/
def State.fwcWrite (s : State) (d : Die) (o : Nat) (v : W32) : State :=
  let go := fun (n : Nat) (f : State → State) => s.when_ (wBit v n) f
  if o < 0x400 ∧ o % 0x100 = 4 then
    go 0 (fun s =>
      let r := s.free
      r.2.hostRestart d (o / 0x100) (r.1.toNat % 2 ^ 32))
  else if o = 0x1100 then go 0 State.bootGo
  else if o = 0x111C then (go 0 State.actGo).when_ (wBit v 1) State.actAbort
  else if o = 0x1214 then (s.wrClear d (0x7E_0000 + o) v).when_ (wBit v 0) State.adminEnable
  else if o = 0x1224 then go 0 State.partReset
  else if o = 0x122C then s.when_ (v == 0x5053_5421) (fun s => s.packageReset false true)
  else s.wrPlain d (0x7E_0000 + o) v

/-! ### Any register -/

/-- A write of a control-window register: an offset that is no register's, and a register that the die does not have, ignore it (R15, R16). -/
def State.writeReg (s : State) (by_ : Agent) (d : Die) (off : Nat) (v : W32) : State :=
  if off % 4 ≠ 0 || !s.present d off then s
  else if off < 0x60_0000 then
    match clusterAt d off with
    | some x => s.clusterWrite by_ x.1 x.2 v
    | none => s
  else if off < 0x68_0000 then
    match unitAt off with
    | some x => s.entWrite d x.1 x.2 v
    | none => s
  else if within off 0x70_0000 0x70_8000 then s.semWrite d ((off - 0x70_0000) / 4) v
  else if within off 0x70_8000 0x71_0000 then s.semAdd d ((off - 0x70_8000) / 4) v.toNat
  else if within off 0x74_0000 0x74_8000 then
    let q := (off - 0x74_0000) / 0x20
    if off % 0x20 = 0x0 then s.sqTail q v
    else if off % 0x20 = 0x4 then s.cqHead q v
    else s.wrPlain d off v
  else if within off 0x78_0000 0x7A_0000 then s.memWrite d (off - 0x78_0000) v
  else if within off 0x7A_0000 0x7B_0000 then s.hltWrite by_ d (off - 0x7A_0000) v
  else if within off 0x7B_0000 0x7C_0000 then s.secWrite d (off - 0x7B_0000) v
  else if within off 0x7C_0000 0x7C_1000 then
    match linkAt d off with
    | some x => s.linkWrite d x.1 off v
    | none => s
  else if within off 0x7C_1000 0x7D_0000 then s.lnkDieWrite d off v
  else if within off 0x7D_0000 0x7E_0000 then s.ectWrite (off - 0x7D_0000) v
  else if within off 0x7E_0000 0x7F_0000 then s.fwcWrite d (off - 0x7E_0000) v
  else if within off 0x7F_0000 0x80_0000 then s.pwrWrite d (off - 0x7F_0000) v
  else s.wrPlain d off v

/-- REGISTER_WRITE (R15). -/
def execRegisterWrite (by_ : Agent) (d : Die) (off : BitVec 24) (v : W32) (s : State) : Result :=
  onDie d s (fun s => s.writeReg by_ d off.toNat v)

/-- A read of a register, with the value sent to its reader. -/
def State.readSent (s : State) (d : Die) (off : Nat) : State :=
  let r := s.readReg d off
  r.2.send (.register d off r.1)

/-- REGISTER_READ_CLEAR (R15). -/
def execRegisterReadClear (d : Die) (off : BitVec 24) (s : State) : Result :=
  onDie d s (fun s => s.readSent d off.toNat)

end Sys2Proof.Machine
end

