-- ==== Sys2Proof/Machine/Packets.lean ====
section
/-!
DEFINITION. Requests of a host over a host link: READ_REQ, WRITE and MSG (R394, R401). They reach control windows, the SRAM aperture, GDDR7 and
CXL memory (R376); host memory is no target of theirs.
-/

namespace Sys2Proof.Machine

/-- A die by its number. -/
def dieNo (d : Nat) : Die := Fin.ofNat 25 d

/-- The registers of a control window that n bytes from an offset touch, read one by one; a die whose clocks do not run has none. -/
def State.readWords (s : State) (d : Die) (off n : Nat) : List Byte × State :=
  let first := off / 4
  let words := if n = 0 then [] else List.range' first ((off + n - 1) / 4 - first + 1)
  let r := words.foldl (fun (a : List Byte × State) w =>
    if a.2.dieOn d then
      let x := a.2.readReg d (4 * w)
      (a.1 ++ natLe 4 x.1.toNat, x.2)
    else (a.1 ++ natLe 4 0, a.2)) ([], s)
  (sliceB r.1 (off % 4) n, r.2)

/-- The poison bit of each line of a range (R394). -/
def State.linePoison (s : State) (a n : Nat) : List Bool := (linesOf a n).map s.poison.mem

/-- A poisoned line of a die's SRAM read through the aperture: POISON_READ, with the address of the first such line (R360, R387). -/
def State.poisonRead (s : State) (d a n : Nat) : State :=
  (s.raise (key d 0) F.memErrPoisonRead).noteAddr d (64 * (((linesOf a n).find? s.poison.mem).getD (a / 64)))

/-- A read of the host at a device physical address: its bytes and the poison bit of each line (R360, R365, R374, R375). -/
def State.hostReq (s : State) (entry : Die) (a n : Nat) : List Byte × List Bool × State :=
  let bad := (List.replicate n (0 : Byte), (linesOf a n).map (fun _ => true))
  match s.target a with
  | .absent => (bad.1, bad.2, s.badAddr entry a)
  | .host _ => (bad.1, bad.2, s.badAddr entry a)
  | .control d off =>
    let r := s.readWords (dieNo d) off n
    (r.1, (linesOf a n).map (fun _ => false), r.2)
  | .cxl p =>
    let r := s.physRead (corners.getD p 0) a n
    (r.1, if s.bit (key (corners.getD p 0) 0) F.memCxlStatusLinkUp then s.linePoison a n else bad.2, r.2.2)
  | .gddr d =>
    let r := s.physRead d a n
    (r.1, s.linePoison a n, r.2.2)
  | .dbuf d _ =>
    let r := s.physRead d a n
    (r.1, s.linePoison a n, if r.2.1 then r.2.2.poisonRead d a n else r.2.2)
  | .store d _ _ _ =>
    let r := s.physRead d a n
    (r.1, s.linePoison a n, if r.2.1 then r.2.2.poisonRead d a n else r.2.2)

/-- The die that answers a read of an address: that of the memory, or of the link for an address that has none (R401, R406). -/
def State.answerDie (s : State) (entry a : Nat) : Nat :=
  match s.target a with
  | .absent => entry
  | .host _ => entry
  | .control d _ => d
  | .cxl p => corners.getD p 0
  | .gddr d => d
  | .dbuf d _ => d
  | .store d _ _ _ => d

/-- READ_REQ: carried to its target and answered with READ_DATA. -/
def State.readRequest (s : State) (l a n : Nat) : State :=
  let r := s.hostReq (dieNo (linkDie l)) a n
  r.2.2.sendPacket l (s.answerDie (linkDie l) a) 1 n (.readData a r.1 r.2.1)

def execReadReq (l : LinkNo) (addr len : Nat) (s : State) : Result :=
  onDie (linkDie l) s (fun s => if s.hostLinkUp l then s.readRequest l addr len else s)

/-- The whole registers that data written at an offset of a control window covers, in ascending order; a register written in part keeps its value
(notes/assumptions/39.md). -/
def State.writeWords (s : State) (d : Die) (off : Nat) (data : List Byte) : State :=
  let first := (off + 3) / 4
  (List.range' first ((off + data.length) / 4 - first)).foldl (fun s w =>
    if s.dieOn d then s.writeReg .host d (4 * w) (BitVec.ofNat 32 (leAt data (4 * w - off) 4)) else s) s

/-- WRITE: carried to its target (R401); a write to an address that does not exist is discarded (R365). -/
def State.hostStore (s : State) (entry : Die) (a : Nat) (data : List Byte) (poison : Bool) : State :=
  match s.target a with
  | .absent => s.badAddr entry a
  | .host _ => s.badAddr entry a
  | .control d off => s.writeWords (dieNo d) off data
  | .cxl p => (s.physWrite (corners.getD p 0) noSessionMark a data poison).1
  | .gddr d => (s.physWrite d noSessionMark a data poison).1
  | .dbuf _ _ => s.apertureWrite true a data poison
  | .store _ _ _ _ => s.apertureWrite true a data poison

def execWrite (l : LinkNo) (addr : Nat) (data : List Byte) (poison : Bool) (s : State) : Result :=
  onDie (linkDie l) s (fun s => if s.hostLinkUp l then s.hostStore (dieNo (linkDie l)) addr data poison else s)

/-- MSG: a write or a read of one register, which is answered with its value. -/
def execMsg (l : LinkNo) (isWrite : Bool) (d : Die) (off : BitVec 24) (v : W32) (s : State) : Result :=
  onDie (linkDie l) s (fun s =>
    if !s.hostLinkUp l || !s.dieOn d then s
    else if isWrite then s.writeReg .host d off.toNat v
    else
      let r := s.readReg d off.toNat
      r.2.sendPacket l d 1 4 (.register d off.toNat r.1))

end Sys2Proof.Machine
end

