-- ==== Sys2Proof/Machine/Dispatch.lean ====
section
/-!
DEFINITION. The meaning of every command: one arm for each constructor of Instr, each a direct call of its meaning.
-/

namespace Sys2Proof.Machine

/-- The effect of a command on everything but the queue of waiting commands. -/
def exec (i : Instr) (s : State) : Host.Outcome State Fault Refusal :=
  match i with
  | .nop c => Sys2Proof.Machine.execNop c s
  | .endList c => Sys2Proof.Machine.execEndList c s
  | .step c => Sys2Proof.Machine.execStep c s
  | .mmInt c => Sys2Proof.Machine.execMmInt c s
  | .mmLut c => Sys2Proof.Machine.execMmLut c s
  | .mmFloat c => Sys2Proof.Machine.execMmFloat c s
  | .tbuild c => Sys2Proof.Machine.execTbuild c s
  | .fnload c => Sys2Proof.Machine.execFnload c s
  | .convInt c => Sys2Proof.Machine.execConvInt c s
  | .convLut c => Sys2Proof.Machine.execConvLut c s
  | .convFloat c => Sys2Proof.Machine.execConvFloat c s
  | .pool c => Sys2Proof.Machine.execPool c s
  | .resample c => Sys2Proof.Machine.execResample c s
  | .requant c => Sys2Proof.Machine.execRequant c s
  | .ewInt c => Sys2Proof.Machine.execEwInt c s
  | .ewFloat c => Sys2Proof.Machine.execEwFloat c s
  | .ffn c => Sys2Proof.Machine.execFfn c s
  | .softmax c => Sys2Proof.Machine.execSoftmax c s
  | .norm c => Sys2Proof.Machine.execNorm c s
  | .lquant c => Sys2Proof.Machine.execLquant c s
  | .lrecon c => Sys2Proof.Machine.execLrecon c s
  | .lstat c => Sys2Proof.Machine.execLstat c s
  | .cdf c => Sys2Proof.Machine.execCdf c s
  | .feedpack c => Sys2Proof.Machine.execFeedpack c s
  | .rng c => Sys2Proof.Machine.execRng c s
  | .sem c => Sys2Proof.Machine.execSem c s
  | .efeed c => Sys2Proof.Machine.execEfeed c s
  | .eres c => Sys2Proof.Machine.execEres c s
  | .fetchArm c => Sys2Proof.Machine.execFetchArm c s
  | .instructionComplete c p ev => Sys2Proof.Machine.execInstructionComplete c p ev s
  | .semWaitSatisfied w => Sys2Proof.Machine.execSemWaitSatisfied w s
  | .semPostArrive at_ => Sys2Proof.Machine.execSemPostArrive at_ s
  | .waitTimeout w => Sys2Proof.Machine.execWaitTimeout w s
  | .exeStart c => Sys2Proof.Machine.execExeStart c s
  | .halt c => Sys2Proof.Machine.execHalt c s
  | .pauseReq c => Sys2Proof.Machine.execPauseReq c s
  | .exeResume c => Sys2Proof.Machine.execExeResume c s
  | .islandEnWrite by_ c v => Sys2Proof.Machine.execIslandEnWrite by_ c v s
  | .exeConfigWrite c r v => Sys2Proof.Machine.execExeConfigWrite c r v s
  | .storeScrub c line found => Sys2Proof.Machine.execStoreScrub c line found s
  | .arm c => Sys2Proof.Machine.execArm c s
  | .fetQAbort c q => Sys2Proof.Machine.execFetQAbort c q s
  | .fetDescWrite c word v => Sys2Proof.Machine.execFetDescWrite c word v s
  | .fetCtrlEnable c v => Sys2Proof.Machine.execFetCtrlEnable c v s
  | .deliveryRowStart c q => Sys2Proof.Machine.execDeliveryRowStart c q s
  | .fetchRequestIssue c q => Sys2Proof.Machine.execFetchRequestIssue c q s
  | .fetchRequestReturn c q k evs => Sys2Proof.Machine.execFetchRequestReturn c q k evs s
  | .semValWrite d sem v => Sys2Proof.Machine.execSemValWrite d sem v s
  | .semPost d sem v => Sys2Proof.Machine.execSemPost d sem v s
  | .latent ch parity => Sys2Proof.Machine.execLatent ch parity s
  | .latentCdf ch parity => Sys2Proof.Machine.execLatentCdf ch parity s
  | .side ch parity => Sys2Proof.Machine.execSide ch parity s
  | .segmentStart ch => Sys2Proof.Machine.execSegmentStart ch s
  | .segmentEnd ch => Sys2Proof.Machine.execSegmentEnd ch s
  | .entResultWrite ch => Sys2Proof.Machine.execEntResultWrite ch s
  | .entChAbort ch => Sys2Proof.Machine.execEntChAbort ch s
  | .entChEnable ch => Sys2Proof.Machine.execEntChEnable ch s
  | .laneContextWrite ch lane r v => Sys2Proof.Machine.execLaneContextWrite ch lane r v s
  | .sideTableWrite d unit table k v => Sys2Proof.Machine.execSideTableWrite d unit table k v s
  | .streamUnit n => Sys2Proof.Machine.execStreamUnit n s
  | .pictureUnit n => Sys2Proof.Machine.execPictureUnit n s
  | .sliceUnit n => Sys2Proof.Machine.execSliceUnit n s
  | .closeUnit n => Sys2Proof.Machine.execCloseUnit n s
  | .droppedPictureUnit n => Sys2Proof.Machine.execDroppedPictureUnit n s
  | .crcError n => Sys2Proof.Machine.execCrcError n s
  | .unknownUnit n => Sys2Proof.Machine.execUnknownUnit n s
  | .sliceEmit n sideLanes lanes latents => Sys2Proof.Machine.execSliceEmit n sideLanes lanes latents s
  | .closeUnitEmit n => Sys2Proof.Machine.execCloseUnitEmit n s
  | .createQueue q => Sys2Proof.Machine.execCreateQueue q s
  | .deleteQueue q => Sys2Proof.Machine.execDeleteQueue q s
  | .test q => Sys2Proof.Machine.execTest q s
  | .openSession q => Sys2Proof.Machine.execOpenSession q s
  | .closeSession q => Sys2Proof.Machine.execCloseSession q s
  | .submit q => Sys2Proof.Machine.execSubmit q s
  | .withdraw q => Sys2Proof.Machine.execWithdraw q s
  | .refresh q => Sys2Proof.Machine.execRefresh q s
  | .pause q => Sys2Proof.Machine.execPause q s
  | .resume q => Sys2Proof.Machine.execResume q s
  | .query q => Sys2Proof.Machine.execQuery q s
  | .bell q => Sys2Proof.Machine.execBell q s
  | .fwcSqTailWrite q v => Sys2Proof.Machine.execFwcSqTailWrite q v s
  | .fwcCqHeadWrite q v => Sys2Proof.Machine.execFwcCqHeadWrite q v s
  | .jobDispatch n => Sys2Proof.Machine.execJobDispatch n s
  | .bellRing n => Sys2Proof.Machine.execBellRing n s
  | .loadUpdate d busy active gddrUsed gddrMax => Sys2Proof.Machine.execLoadUpdate d busy active gddrUsed gddrMax s
  | .duplicateCompare c t checker => Sys2Proof.Machine.execDuplicateCompare c t checker s
  | .voteDecide c t a b result => Sys2Proof.Machine.execVoteDecide c t a b result s
  | .drainNow by_ => Sys2Proof.Machine.execDrainNow by_ s
  | .clearRecord by_ => Sys2Proof.Machine.execClearRecord by_ s
  | .drainRecordWrite => Sys2Proof.Machine.execDrainRecordWrite  s
  | .cardArchive w => Sys2Proof.Machine.execCardArchive w s
  | .weightDigestCheck n d k => Sys2Proof.Machine.execWeightDigestCheck n d k s
  | .examStart c => Sys2Proof.Machine.execExamStart c s
  | .examComplete c pass => Sys2Proof.Machine.execExamComplete c pass s
  | .hltLibGo => Sys2Proof.Machine.execHltLibGo  s
  | .libInstallComplete flashOk => Sys2Proof.Machine.execLibInstallComplete flashOk s
  | .fwcBootGo => Sys2Proof.Machine.execFwcBootGo  s
  | .procReady d p => Sys2Proof.Machine.execProcReady d p s
  | .dieTimeout d => Sys2Proof.Machine.execDieTimeout d s
  | .procFail d p => Sys2Proof.Machine.execProcFail d p s
  | .watchdog d p pc => Sys2Proof.Machine.execWatchdog d p pc s
  | .protection d p pc addr => Sys2Proof.Machine.execProtection d p pc addr s
  | .memoryUe d p pc => Sys2Proof.Machine.execMemoryUe d p pc s
  | .illegal d p pc => Sys2Proof.Machine.execIllegal d p pc s
  | .restart d p pc => Sys2Proof.Machine.execRestart d p pc s
  | .procRestartDone d p => Sys2Proof.Machine.execProcRestartDone d p s
  | .fwcActGo => Sys2Proof.Machine.execFwcActGo  s
  | .fwcActAbort => Sys2Proof.Machine.execFwcActAbort  s
  | .actCommit => Sys2Proof.Machine.execActCommit  s
  | .emergencyTimeout => Sys2Proof.Machine.execEmergencyTimeout  s
  | .actConfirm => Sys2Proof.Machine.execActConfirm  s
  | .packageReset => Sys2Proof.Machine.execPackageReset  s
  | .resetNRise => Sys2Proof.Machine.execResetNRise  s
  | .fwcPkgReset v => Sys2Proof.Machine.execFwcPkgReset v s
  | .startupHardwareDone identityOk => Sys2Proof.Machine.execStartupHardwareDone identityOk s
  | .linkTrainingDone found => Sys2Proof.Machine.execLinkTrainingDone found s
  | .librarySelect => Sys2Proof.Machine.execLibrarySelect  s
  | .startupExamsDone failed => Sys2Proof.Machine.execStartupExamsDone failed s
  | .gddr7TrainingDone gddr cxl => Sys2Proof.Machine.execGddr7TrainingDone gddr cxl s
  | .chartBuild => Sys2Proof.Machine.execChartBuild  s
  | .fwcAdminEnable => Sys2Proof.Machine.execFwcAdminEnable  s
  | .fwcPartReset => Sys2Proof.Machine.execFwcPartReset  s
  | .partitionReady d => Sys2Proof.Machine.execPartitionReady d s
  | .serviceFaultReport c q => Sys2Proof.Machine.execServiceFaultReport c q s
  | .faultResponse d v => Sys2Proof.Machine.execFaultResponse d v s
  | .faultGiveUp d v => Sys2Proof.Machine.execFaultGiveUp d v s
  | .faultLimitExpiry d id => Sys2Proof.Machine.execFaultLimitExpiry d id s
  | .memFaultHeadWrite d v => Sys2Proof.Machine.execMemFaultHeadWrite d v s
  | .memInvGo d => Sys2Proof.Machine.execMemInvGo d s
  | .invalidationComplete d => Sys2Proof.Machine.execInvalidationComplete d s
  | .sramApertureWrite by_ entry addr data => Sys2Proof.Machine.execSramApertureWrite by_ entry addr data s
  | .gddr7Refresh d temp0 temp1 patrol => Sys2Proof.Machine.execGddr7Refresh d temp0 temp1 patrol s
  | .cxlLinkDown port => Sys2Proof.Machine.execCxlLinkDown port s
  | .cxlRetrainDone port width => Sys2Proof.Machine.execCxlRetrainDone port width s
  | .flitReceive l flit => Sys2Proof.Machine.execFlitReceive l flit s
  | .readReq l addr len => Sys2Proof.Machine.execReadReq l addr len s
  | .readData l addr data poison error => Sys2Proof.Machine.execReadData l addr data poison error s
  | .write l addr data poison => Sys2Proof.Machine.execWrite l addr data poison s
  | .msg l isWrite d off v => Sys2Proof.Machine.execMsg l isWrite d off v s
  | .ack l writes chan => Sys2Proof.Machine.execAck l writes chan s
  | .chan l ch line => Sys2Proof.Machine.execChan l ch line s
  | .mgmt l m => Sys2Proof.Machine.execMgmt l m s
  | .chanLineSend l ch => Sys2Proof.Machine.execChanLineSend l ch s
  | .linkSilenceTimeout l => Sys2Proof.Machine.execLinkSilenceTimeout l s
  | .laneLockLoss l => Sys2Proof.Machine.execLaneLockLoss l s
  | .linkTrainDone found => Sys2Proof.Machine.execLinkTrainDone found s
  | .retrain l => Sys2Proof.Machine.execRetrain l s
  | .hostRouteTimeout d => Sys2Proof.Machine.execHostRouteTimeout d s
  | .usingSecondaryClear d => Sys2Proof.Machine.execUsingSecondaryClear d s
  | .lnkChEnable l => Sys2Proof.Machine.execLnkChEnable l s
  | .lnkChAbort l => Sys2Proof.Machine.execLnkChAbort l s
  | .lnkHoldExpiry l => Sys2Proof.Machine.execLnkHoldExpiry l s
  | .pmbusPoll readings => Sys2Proof.Machine.execPmbusPoll readings s
  | .pmbAlert address status => Sys2Proof.Machine.execPmbAlert address status s
  | .refclkLost d => Sys2Proof.Machine.execRefclkLost d s
  | .limiterPeriod dieEighths memEighths avgWatts => Sys2Proof.Machine.execLimiterPeriod dieEighths memEighths avgWatts s
  | .capCeilingStep d => Sys2Proof.Machine.execCapCeilingStep d s
  | .capFallback d => Sys2Proof.Machine.execCapFallback d s
  | .thermalCeilingStep d sensors => Sys2Proof.Machine.execThermalCeilingStep d sensors s
  | .thermalTrip d => Sys2Proof.Machine.execThermalTrip d s
  | .thermtripN d => Sys2Proof.Machine.execThermtripN d s
  | .pwrFreqReqWrite d v => Sys2Proof.Machine.execPwrFreqReqWrite d v s
  | .pwrVregWrite d v => Sys2Proof.Machine.execPwrVregWrite d v s
  | .alStateRequest want setup => Sys2Proof.Machine.execAlStateRequest want setup s
  | .sdoUpload index ask => Sys2Proof.Machine.execSdoUpload index ask s
  | .sdoDownload index sub data => Sys2Proof.Machine.execSdoDownload index sub data s
  | .sdoInformation what => Sys2Proof.Machine.execSdoInformation what s
  | .sdoSegmentTimeout => Sys2Proof.Machine.execSdoSegmentTimeout  s
  | .ectFrame port crcOk asks mailbox => Sys2Proof.Machine.execEctFrame port crcOk asks mailbox s
  | .mirrorRefresh => Sys2Proof.Machine.execMirrorRefresh  s
  | .login key => Sys2Proof.Machine.execLogin key s
  | .logout => Sys2Proof.Machine.execLogout  s
  | .loginIdleTimeout => Sys2Proof.Machine.execLoginIdleTimeout  s
  | .lockExpiry => Sys2Proof.Machine.execLockExpiry  s
  | .txpdoMappingWrite sub v => Sys2Proof.Machine.execTxpdoMappingWrite sub v s
  | .testAction v => Sys2Proof.Machine.execTestAction v s
  | .odRefresh slot => Sys2Proof.Machine.execOdRefresh slot s
  | .stop slot => Sys2Proof.Machine.execStop slot s
  | .clearDrainRecord v => Sys2Proof.Machine.execClearDrainRecord v s
  | .odDrainNow v => Sys2Proof.Machine.execOdDrainNow v s
  | .libStage place last data => Sys2Proof.Machine.execLibStage place last data s
  | .libInstall => Sys2Proof.Machine.execLibInstall  s
  | .ectKeyCommit => Sys2Proof.Machine.execEctKeyCommit  s
  | .ectKeyClear => Sys2Proof.Machine.execEctKeyClear  s
  | .secAttGo => Sys2Proof.Machine.execSecAttGo  s
  | .attSignDone ms hostOk => Sys2Proof.Machine.execAttSignDone ms hostOk s
  | .secRevGo => Sys2Proof.Machine.execSecRevGo  s
  | .registerReadClear d off => Sys2Proof.Machine.execRegisterReadClear d off s
  | .registerWrite by_ d off v => Sys2Proof.Machine.execRegisterWrite by_ d off v s
  | .vddAuxRemoved => Sys2Proof.Machine.execVddAuxRemoved  s
  | .packageResetRelease => Sys2Proof.Machine.execPackageResetRelease  s
  | .revocationComplete blown => Sys2Proof.Machine.execRevocationComplete blown s
  | .portLinkChange port up => Sys2Proof.Machine.execPortLinkChange port up s
  | .rngHealthFail d => Sys2Proof.Machine.execRngHealthFail d s
  | .secRngRefill d => Sys2Proof.Machine.execSecRngRefill d s

end Sys2Proof.Machine
end

