-- ==== Sys2Proof/Machine/Tick.lean ====
section
/-!
DEFINITION. The tick of the reference clock: what a step does when no command waits (notes/assumptions/7.md), and the counts of time and cycles
that go on with it (notes/assumptions/77.md).
-/

namespace Sys2Proof.Machine

/-! ### Counts of cycles -/

/-- Cycles of a clock of f MHz in the 10 ns after a stamp: the fractions of the ticks add up. -/
def cyclesAt (stamp f : Nat) : Nat := (stamp + 1) * f / 100 - stamp * f / 100

/-- The cycles of a cluster's island in this tick. -/
def State.islandCycles (s : State) (c : ClusterId) : Nat := if s.dieOn c.die then cyclesAt (s.stamp c.die).toNat (s.islandMHz c) else 0

/-- Clusters whose engine has a listed state. -/
def State.listedEngines (s : State) : List ClusterId :=
  s.regs.filterMap (fun e =>
    if h : e.1 / 0x100_0000 < 25 then
      match clusterAt ⟨e.1 / 0x100_0000, h⟩ (e.1 % 0x100_0000) with
      | some (c, 0x408) => some c
      | _ => none
    else none)

/-- EXE_CYCLES counts the cycles in RUNNING or WAITING, EXE_STALL those in WAITING (R230). -/
def State.countEngine (s : State) (c : ClusterId) : State :=
  let n := s.islandCycles c
  let s := if s.exe c = Ex.running ∨ s.exe c = Ex.waiting then s.bump c.base F.exeCycles n else s
  if s.exe c = Ex.waiting then s.bump c.base F.exeStall n else s

/-- Clusters with a fetch queue that has been armed. -/
def State.listedFetchers (s : State) : List ClusterId := ((s.fetch.map (fun e => e.1 / 64)).eraseDups).filterMap clusterOfNo

/-- A queue that has a request ready but is at OUTSTANDING. -/
def State.atOutstanding (s : State) (c : ClusterId) (q : Nat) : Bool :=
  let x := s.fq c q
  s.fetchOn c && s.fqState c q == Fq.active && x.rowOpen && decide ((parseDesc x.desc).outstanding ≤ x.inflight.length)

/-- FET_REQ_STALL counts the cycles in which a queue is at OUTSTANDING, FET_CREDIT_STALL those in which any waits on FREE_SEM (R289). -/
def State.countFetch (s : State) (c : ClusterId) : State :=
  let n := s.islandCycles c
  let qs := (s.fetch.filter (fun e => e.1 / 64 == c.no)).map (fun e => e.1 % 64)
  let s := if qs.any (s.atOutstanding c) then s.bump c.base F.fetReqStall n else s
  if qs.any (fun q => s.fqState c q == Fq.creditWait) then s.bump c.base F.fetCreditStall n else s

/-- PWR_THROTTLE_US counts each µs with either ceiling below 1,600 MHz (R526). -/
def State.countThrottle (s : State) (d : Nat) : State :=
  let b := key d 0
  if s.dieOn d && ((s.stamp d).toNat + 1) % 100 == 0 && decide (min (s.rf b F.pwrCeilThermal) (s.rf b F.pwrCeilCap) < 1600) then
    s.bump b F.pwrThrottleUs 1
  else s

/-- Every count of time or cycles in this tick. -/
def State.countTick (s : State) : State :=
  let s := s.listedEngines.foldl State.countEngine s
  let s := s.listedFetchers.foldl State.countFetch s
  allDies.foldl State.countThrottle s

/-! ### The tick -/

/-- The stamp of a die counted on by one, while its clocks run (R14, R434, R513). -/
def tickDie (s : State) (d : Nat) : State :=
  if s.dieOn d && !s.bit (key d 0) F.pwrStatusRefclkLost then s.setDie d { s.die d with stamp := (s.die d).stamp + 1 } else s

/-- Is any trace point of a die enabled (R436)? -/
def State.traceOn (s : State) (d : Nat) : Bool := (List.range 8).any (fun i => s.rd (key d (0x7E_1020 + 4 * i)) != 0)

/-- The firmware of a processor that runs may pass one of its trace points, which a free value names: an enabled one writes a TRACE record, whatever
FWC_LOG_LEVEL holds (R436; notes/assumptions/46.md). -/
def State.passPoint (s : State) (d p : Nat) : State :=
  if !hasProc d p || !s.procRuns d p then s
  else
    let r := s.free
    let k := 64 * p + r.1.toNat % 64
    if r.1.getLsbD 6 && (s.rd (key d (0x7E_1020 + 4 * (k / 32)))).getLsbD (k % 32) then
      let s := r.2.logAlways d p 3 noSessionMark k 0
      let x := s.die d
      s.setDie d { x with traced := Sparse.put (fun _ => 0) x.traced k (Sparse.get (fun _ => 0) x.traced k + 1) }
    else r.2

/-- The trace points that a die's firmware passes in a tick, as far as any of them is enabled. -/
def passTrace (s : State) (d : Nat) : State :=
  if s.dieOn d && s.traceOn d then (List.range 4).foldl (fun s p => s.passPoint d p) s else s

/-- A library whose bytes are all written is read back and checked: VERIFYING (R480, R483; notes/assumptions/89.md). -/
def State.programmed (s : State) : State :=
  if s.rf die12 F.hltLibStatusCode = Lib.writing then s.libStatus Lib.verifying else s

/-- 10 ns pass: the counts of time go on, and every die whose clocks run counts its stamp by one. Stamps of different dies are not compared
(R14). -/
def tick (s : State) : State := allDies.foldl tickDie (allDies.foldl passTrace s.countTick.programmed)

end Sys2Proof.Machine
end

