-- ==== Sys2Proof/Safety.lean ====
section
/-!
DEFINITION. Safe runs, in the terms claims use: the canonical form of the tables of State, and what a step may answer.
-/

namespace Sys2Proof

open Machine

/-- The tables by number are in canonical form, so that equal contents are equal data. -/
def Canonical (s : State) : Prop :=
  Memory.wf s.mem = true ∧ Sparse.wf regReset s.regs = true ∧ Sparse.wf flashDefault s.flash = true

/-- Between commands: no poison event is left to be acted on (R287), and after a drain that has left no session no partition is in SERVICE or TEST
(R463). -/
def Recovered (s : State) : Prop :=
  s.pev = [] ∧ (s.pkg.drain.isSome = true → s.anySession = false → ∀ p ∈ s.parts, p.state ≠ .service ∧ p.state ≠ .test)

end Sys2Proof
end

