-- ==== Sys2Proof/Certificates/Slice0/Obligations.lean ====
section
/-!
DEFINITION. The statements about the block, each a proposition named under Obligations, and the words they share: which command an engine issues
next, what a clean run is, where bytes are written.
-/

namespace Sys2Proof.Claims

open Machine

/-! ### Words the statements share -/

/-- Every partition is in SERVICE, so that poison resets none (R287). -/
def InService (s : State) : Prop := ∀ p ∈ s.parts, p.state = .service

/-- The state between commands, with no drain in progress: nothing is left to be settled. -/
def Calm (s : State) : Prop := s.pev = [] ∧ s.pkg.drain = none

/-- Every byte of memory is as it was. -/
def SameBytes (s t : State) : Prop := ∀ a, t.byte a = s.byte a

/-- No packet waits at a link. -/
def Unloaded (s : State) : Prop := ∀ l, (s.lnk l).waiting = []

/-- No request of a fetch queue stays outstanding for bytes that wait for a host link. -/
def NoneHeld (s : State) : Prop := ∀ e ∈ s.fetch, ∀ r ∈ e.2.inflight, r.held = false

/-- Every register of the control windows is as it was but those under the keys of a list. -/
def RegsBut (ks : List Nat) (s t : State) : Prop := ∀ k, k ∉ ks → t.rd k = s.rd k

/-- Everything but the registers of the control windows is as it was. -/
def OnlyRegs (s t : State) : Prop := t = { s with regs := t.regs }

/-- The instruction that the engine of a cluster issues next, as a number. -/
def nextWord (s : State) (c : ClusterId) : Nat := s.listWord c (s.cl c).issue

/-- The engine of c issues an instruction with opcode op next: it runs, its tile-step has begun and the list's line is there (state u), the checks of R203, R205 and R211
pass, a fence finds the pipes empty, and the instruction's own wait takes its count (state v). -/
def Issues (s u v : State) (c : ClusterId) (op : Nat) : Prop :=
  s.dieOn c.die = true ∧ InService s ∧ s.canIssue c = true ∧ (s.beginTile c).passLine c = some u ∧ u.issueCheck c = none ∧
  iOp (nextWord u c) = op ∧ (fences (nextWord u c) = true → (u.cl c).unitPipe = [] ∧ (u.cl c).finPipe = []) ∧ u.passOwn c = some v

/-- The work of an instruction neither waits for blocks nor fails nor traps, and writes inside the cluster's store. -/
def CleanRun (c : ClusterId) (r : Run) : Prop :=
  r.wait = false ∧ r.fail = none ∧ r.poison = false ∧ r.trap = none ∧ insideStore c r.out = true

/-- The cluster, opcode and work of the instructions that compute, in the order of the table. -/
def computes : Instr → Option (ClusterId × Nat × Work)
  | .mmInt c => some (c, 0x20, workMat .int)
  | .mmLut c => some (c, 0x21, workMat .lut)
  | .mmFloat c => some (c, 0x22, workMat .float)
  | .tbuild c => some (c, 0x40, workBuild)
  | .fnload c => some (c, 0x41, workFnload)
  | .convInt c => some (c, 0x60, fun c w s => s.winRun c w .int)
  | .convLut c => some (c, 0x61, fun c w s => s.winRun c w .lut)
  | .convFloat c => some (c, 0x62, fun c w s => s.winRun c w .float)
  | .pool c => some (c, 0x63, fun c w s => s.winRun c w .pool)
  | .resample c => some (c, 0x64, fun c w s => s.winRun c w .resample)
  | .requant c => some (c, 0x80, workRequant)
  | .ewInt c => some (c, 0x81, workEwInt)
  | .ewFloat c => some (c, 0x82, workEwFloat)
  | .ffn c => some (c, 0x83, workFfn)
  | .softmax c => some (c, 0x84, workRow (fun _ _ _ => 0))
  | .norm c => some (c, 0x85, workRow (fun s c w => 1 + finSelect s c w 2))
  | .lquant c => some (c, 0x86, workLquant)
  | .lrecon c => some (c, 0x87, workLrecon)
  | .lstat c => some (c, 0x88, workLstat)
  | .cdf c => some (c, 0x89, workCdf)
  | .feedpack c => some (c, 0x8A, workFeedpack)
  | .rng c => some (c, 0x8B, workRng)
  | .efeed c => some (c, 0xC0, feedWork false)
  | .eres c => some (c, 0xC1, feedWork true)
  | _ => none

/-- A pipe after an instruction of some class has been issued: it stands behind those the pipe holds when the class is one of the pipe's. -/
def pipeAfter (mine : Bool) (old : List InFlight) (f : InFlight) : List InFlight := if mine then old ++ [f] else old

/-- No instruction that the engine of c has issued still owes a post to a semaphore, so a post to it need not wait (R218). -/
def Unowed (s : State) (c : ClusterId) (target : Nat × Nat) : Prop :=
  (s.cl c).owed = [] ∧ ∀ f ∈ (s.cl c).unitPipe ++ (s.cl c).finPipe, target ∉ s.postsAhead c f

/-- The post that an instruction of c at an index makes: none with a count of 0, none between dies that are not both of its session's partition (R30). -/
def ownPost (s : State) (c : ClusterId) (index w : Nat) : List Post :=
  let d := (postTarget c w).1
  let dies := (s.ses (s.rf c.base F.exeSession)).dies
  if iPostCount w = 0 ∨ ¬ (d = c.die ∨ (dies.getLsbD d = true ∧ dies.getLsbD c.die = true)) then []
  else [{ src := srcEngine c, die := d, sem := iPostSem w, count := iPostCount w, index := index, opcode := iOp w }]

/-- A command waits in front of others. -/
def inFront (c : Instr) (rest : List Instr) (s : State) : State := { s with pending := c :: rest }

end Sys2Proof.Claims

open Sys2Proof Sys2Proof.Machine Sys2Proof.Claims

/-! ### The machine as a whole -/

/-- A step takes the command in front of the queue and answers what that command's execution answers on the state with the queue's rest. -/
def Obligations.StepRunsFrontCommand : Prop :=
  ∀ (c : Instr) (rest : List Instr) (s : State), step (inFront c rest s) = exec c { s with pending := rest }

/-- With no command waiting, the reference clock ticks (the model's choice, notes/assumptions/7.md): each die whose clocks run counts its stamp
by one (R14), and of the registers only the counts of cycles and of throttled time go on (notes/assumptions/77.md): EXE_CYCLES by the island's
cycles in a RUNNING cluster; a library whose bytes are written is being checked from then on (notes/assumptions/89.md). Nothing else changes, unless
a trace point is enabled (notes/assumptions/46.md). -/
def Obligations.IdleStepCountsStamps : Prop :=
  ∀ s : State, s.pending = [] → ∃ t, step s = .next t ∧
    (∀ d, d < 25 → t.stamp d =
      if s.dieOn d ∧ s.bit (key d 0) F.pwrStatusRefclkLost = false then s.stamp d + 1 else s.stamp d) ∧
    t.rf die12 F.hltLibStatusCode = (if s.rf die12 F.hltLibStatusCode = Lib.writing then Lib.verifying else s.rf die12 F.hltLibStatusCode) ∧
    ((∀ d, d < 25 → s.traceOn d = false) → t = { s with dies := t.dies, regs := t.regs } ∧
      (∀ d, t.die d = { s.die d with stamp := t.stamp d }) ∧
      (∀ k, (∀ d, d < 25 → k ≠ key d F.pwrThrottleUs.off) → k ≠ die12 + F.hltLibStatusCode.off →
        (∀ c : ClusterId, k ∉ [F.exeCycles, F.exeStall, F.fetReqStall, F.fetCreditStall].map (fun f => c.base + f.off)) → t.rd k = s.rd k)) ∧
    (Canonical s → ∀ c : ClusterId, s.exe c = Ex.running →
      t.rf c.base F.exeCycles = min (s.rf c.base F.exeCycles + s.islandCycles c) (2 ^ 32 - 1))

/-- Every step of every state answers a next state: no command of the table stops the block. -/
def Obligations.EveryStepAnswersNext : Prop := ∀ s : State, ∃ t, step s = .next t

/-- While the package is unpowered or in package reset, every command but the four events of power and reset leaves the state as it is, but for
what settles.
What the model chooses here: notes/assumptions/8.md. -/
def Obligations.OffPackageIgnoresCommands : Prop :=
  ∀ (c : Instr) (s : State), s.on = false → Calm s →
    c ≠ .packageReset → c ≠ .resetNRise → c ≠ .packageResetRelease → c ≠ .vddAuxRemoved → exec c s = .next s

/-- Between commands no poison event is left, and once a drain has left no session no partition is in SERVICE or TEST.
What the model chooses here: notes/assumptions/13.md. -/
def Obligations.DrainEndsService : Prop :=
  ∀ s t : State, Recovered s → step s = .next t → Recovered t

/-- The state after reset satisfies what every step keeps.
What the model chooses here: notes/assumptions/10.md, notes/assumptions/13.md. -/
def Obligations.ResetIsRecovered : Prop := Recovered State.reset

/-! ### Instructions -/

/-- The wait of an instruction takes exactly its count from its semaphore, once, and nothing else changes but that the wait is done. -/
def Sys2Proof.Claims.OwnWaitTakesCount : Prop :=
  ∀ (s t : State) (c : ClusterId), s.bit c.base F.exeListSemStreamed = false → s.passOwn c = some t →
    let w := nextWord s c
    let n := if (s.cl c).waitDone then 0 else iWaitCount w
    n ≤ s.sem c.die (iWaitSem w) ∧ t.sem c.die (iWaitSem w) = s.sem c.die (iWaitSem w) - n ∧
    RegsBut [semValKey c.die (iWaitSem w)] s t ∧ SameBytes s t ∧
    (t.cl c).issue = (s.cl c).issue ∧ (n ≠ 0 → (t.cl c).waitDone = true) ∧ t.posts = s.posts

/-- NOP and SEM make their wait and their post and do nothing else: the next index, the post on its way unless an instruction issued before still
owes one to the same semaphore (R218), EXE_INSTRS counted; in a streamed list the line that is issued completely is posted free (R224). -/
def Sys2Proof.Claims.NopAndSemWaitAndPost : Prop :=
  ∀ (s u v : State) (c : ClusterId) (op : Nat) (i : Instr), (i = .nop c ∧ op = 0x00) ∨ (i = .sem c ∧ op = 0xA0) →
    Issues s u v c op →
    let w := nextWord u c
    let index := (u.cl c).issue
    let freed := v.bit c.base F.exeListSemStreamed = true ∧ index % 4 = 3
    let free := v.rf c.base F.exeListSemFree
    ∃ t : State, exec i s = .next t ∧ (t.cl c).issue = index + 1 ∧
      t.posts = (((v.advance c w).postOf c index w).payOwed c).posts ∧
      (Unowed u c (postTarget c w) → (freed → Unowed u c (c.die.val, free)) → t.posts = v.posts
        ++ (if freed then [{ src := srcEngine c, die := c.die.val, sem := free, count := 1, index := index, opcode := iOp w }] else [])
        ++ ownPost v c index w) ∧
      t.rf c.base F.exeInstrs = min (v.rf c.base F.exeInstrs + 1) (2 ^ 32 - 1) ∧ t.exe c = Ex.running ∧
      SameBytes s t ∧ (∀ n, t.ses n = s.ses n) ∧ ∀ (d : Die) (j : SemNo), t.sem d j = v.sem d j

/-- The wait and the post of an instruction, and the two instructions that are nothing else.
What the model chooses here: notes/assumptions/12.md. -/
def Obligations.WaitAndPost : Prop :=
  OwnWaitTakesCount ∧ NopAndSemWaitAndPost

/-- An instruction that computes is issued: the next index, its place behind the others of its pipe (R201), and in memory exactly what its work
writes (the model computes it as the instruction is issued, notes/assumptions/12.md); in a tile-step whose results a replay has given, nothing
(notes/assumptions/88.md). -/
def Sys2Proof.Claims.ComputingInstructionsIssue : Prop :=
  ∀ (i : Instr) (c : ClusterId) (op : Nat) (work : Work), computes i = some (c, op, work) →
    ∀ s u v : State, Issues s u v c op → CleanRun c (work c (nextWord u c) v) →
    let w := nextWord u c
    let f := v.inFlight c (u.cl c).issue w
    ∃ t : State, exec i s = .next t ∧ (t.cl c).issue = (u.cl c).issue + 1 ∧
      (t.cl c).unitPipe = pipeAfter (iClass w == 1 || iClass w == 3) (u.cl c).unitPipe f ∧
      (t.cl c).finPipe = pipeAfter (iClass w == 2 || iClass w == 4 || iClass w == 6) (u.cl c).finPipe f ∧
      t.mem = if (v.cl c).tile.replaced then s.mem else (s.writePieces (sortPieces (work c w v).out)).mem

/-- A byte of memory that no piece of an instruction's output covers is left as it was. -/
def Sys2Proof.Claims.OutputStaysInItsPieces : Prop :=
  ∀ (s : State) (ps : List Piece) (a : Nat), (∀ p ∈ ps, ¬ (p.addr ≤ a ∧ a < p.addr + p.bytes.length)) →
    (s.writePieces (sortPieces ps)).byte a = s.byte a

/-- Instructions that compute are issued with exactly their output, and a byte that no piece of it covers is left as it was.
What the model chooses here: notes/assumptions/5.md, notes/assumptions/12.md, notes/assumptions/61.md, notes/assumptions/62.md, notes/assumptions/63.md. -/
def Obligations.ComputingInstructions : Prop :=
  ComputingInstructionsIssue ∧ OutputStaysInItsPieces

/-- STEP ends the tile-step: with ADV = 1 the cluster's copy of the step counter counts one and the next tile-step has number 0, else the next
has the next number; the tile-step ended stands first in the replay window, which holds two. At a pause point the engine stops when PAUSE_REQ asks
for it, and a session that has opted for NaN as an error ends when one is due; otherwise the list runs on. -/
def Sys2Proof.Claims.StepEndsTileStep : Prop :=
  ∀ (s u v : State) (c : ClusterId), Issues s u v c 0x02 →
    let w := nextWord u c
    let n := v.rf c.base F.exeSession
    let pauses := iPausePoint w && v.bit c.base F.exeCtrlPauseReq
    ∃ r t : State, exec (.step c) s = .next t ∧
      t = (if r.nanDue n then r.nanEnd n
           else if pauses then ((r.setExe c Ex.paused).sf c.base F.exeCtrlPauseReq 0).tryPause n else r).settle ∧
      (r.cl c).issue = (u.cl c).issue + 1 ∧ r.exe c = Ex.running ∧
      r.stepCopy c = (if iAdv w then v.stepCopy c + 1 else v.stepCopy c) ∧
      (r.cl c).tile.number = (if iAdv w then 0 else (u.cl c).tile.number + 1) ∧ (r.cl c).tile.session = n ∧
      (r.cl c).tile.begun = false ∧
      (∃ e, (r.cl c).window = (e :: (u.cl c).window).take 2 ∧ e.ended = true ∧ e.number = (u.cl c).tile.number ∧
        e.written = (u.cl c).tile.written ∧ e.inputs = (u.cl c).tile.inputs ∧
        e.sampled = v.isSampled c (u.cl c).tile) ∧ SameBytes s r ∧
      ((v.ses n).nanTrap = false → (v.ses n).pauseTo = none →
        t.exe c = (if pauses then Ex.paused else Ex.running) ∧ SameBytes s t ∧ t.cl c = r.cl c ∧
        (pauses = true → t.bit c.base F.exeCtrlPauseReq = false))

/-- END ends the list: the engine is ENDED with its tile-step, and what the end of the list means for the session's job follows. -/
def Sys2Proof.Claims.EndEndsList : Prop :=
  ∀ (s u v : State) (c : ClusterId), Issues s u v c 0x01 →
    ∃ t : State, exec (.endList c) s = .next (t.finishJob (v.rf c.base F.exeSession)).settle ∧ t.exe c = Ex.ended ∧
      (t.cl c).issue = (u.cl c).issue + 1 ∧ t.stepCopy c = v.stepCopy c ∧ SameBytes s t ∧ (∀ n, t.ses n = s.ses n)

/-- STEP ends a tile-step, END ends the list.
What the model chooses here: notes/assumptions/12.md. -/
def Obligations.StepAndEnd : Prop :=
  StepEndsTileStep ∧ EndEndsList

/-- FETCH_ARM of a cluster with a supply arms the queue of its record with that record, for the session of its cluster, when the queue is idle: a
record of no bytes is done at once unless the engine is disabled, and on a busy queue the arm is ignored and shown. With V = 0 the bytes that the
transfer will write are results of the tile-step (R448). -/
def Obligations.FetchArmArmsQueue : Prop :=
  ∀ (s u v : State) (c : ClusterId), Issues s u v c 0xE0 → fused c.die c.region = false → CleanRun c (workFetchArm c (nextWord u c) v) →
    let b := v.bytes (c.store + iRec (nextWord u c)) 128
    let q := (parseDesc b).queue % 64
    ∃ t : State, exec (.fetchArm c) s = .next t ∧ (t.cl c).issue = (u.cl c).issue + 1 ∧ SameBytes s t ∧
      if v.fqBusy c q then
        t.fq c q = v.fq c q ∧ t.fqState c q = v.fqState c q ∧ t.bit (c.fetchBase q) F.fetQStatusRearmWhileBusy = true
      else
        t.fq c q = { desc := b, armer := if iV (nextWord u c) then none else some ((v.cl c).tile.id, (u.cl c).issue) } ∧
        t.fqSession c q = v.rf c.base F.exeSession ∧
        if (parseDesc b).empty then t.fqBusy c q = !v.fetchOn c
        else t.fqState c q = if (parseDesc b).creditEn then Fq.creditWait else Fq.active

/-- The exact sum of products: a cell that starts at init accumulates init plus the sum of the products of its operands, whatever their sizes
in pieces. -/
def Sys2Proof.Claims.CellSumsProducts : Prop :=
  ∀ (m n : Nat) (as bs : List Int) (init : Int), 1 ≤ m → 1 ≤ n →
    (accumulate init (cellTerms m n 0 as bs)).1 = init + (List.zipWith (fun a b => a * b) as bs).sum

/-- Lookup mode gives the accumulator of ordinary mode: the groups of tables sum to the products. -/
def Sys2Proof.Claims.LookupModeEqualsOrdinaryMode : Prop :=
  ∀ (m group : Nat) (as bs : List Int) (init : Int), 1 ≤ m → 1 ≤ group →
    (accumulate init (cellTerms m 1 group as bs)).1 = (accumulate init (cellTerms m 1 0 as bs)).1

/-- An accumulator leaves its range only with the trap: with no overflow reported the result of every prefix, so the result, is inside 48 bits. -/
def Sys2Proof.Claims.NoOverflowMeansInside48 : Prop :=
  ∀ (init : Int) (terms : List Int), outside48 init = false → (accumulate init terms).2 = false →
    ∀ k, k ≤ terms.length → outside48 (init + (terms.take k).sum) = false

/-- What a cell accumulates: the exact sum of products, the same in lookup mode, and inside 48 bits unless an overflow is reported.
What the model chooses here: notes/assumptions/48.md, notes/assumptions/63.md. -/
def Obligations.CellAccumulation : Prop :=
  CellSumsProducts ∧ LookupModeEqualsOrdinaryMode ∧ NoOverflowMeansInside48

/-- A narrowed element lies between the bounds of its block, and a constant channel gives its constant whatever was accumulated. -/
def Obligations.RequantiseStaysInBounds : Prop :=
  ∀ (q : Qpb) (w : Nat) (t0 t1 : List (BitVec 16)) (acc acc' : Int), q.lo ≤ q.hi →
    q.lo ≤ (requantise q w t0 t1 acc).1 ∧ (requantise q w t0 t1 acc).1 ≤ q.hi ∧
    (bitN w 22 = true → requantise q w t0 t1 acc = requantise q w t0 t1 acc') ∧
    (bitN w 22 = false → q.fn = 0 → (requantise q w t0 t1 acc).1 =
      max q.lo (min q.hi (clampFmt q.outFmt (rshift (acc * (fieldN w 15 0 : Nat)) (fieldN w 21 16) + q.zpOut)).1))

/-- A latent value inside its scale is coded without clamping, and its reconstruction is nearer than half a step of the scale and half a unit:
254 times the error is at most S + 127. -/
def Sys2Proof.Claims.LatentCodeErrorBound : Prop :=
  ∀ (y : Int) (scale : Nat), 0 < scale → y.natAbs ≤ scale →
    (quantise y scale).2 = false ∧ (quantise y scale).1.natAbs ≤ 127 ∧
    254 * (reconstruct (quantise y scale).1 scale - y).natAbs ≤ scale + 127

/-- The reconstruction of a code q with scale S is sign(q) × floor((2 × |q| × S + 127) / 254), so it is odd in q and never falls as |q| rises. -/
def Sys2Proof.Claims.CodesReconstruct : Prop :=
  ∀ (q : Int) (scale : Nat), reconstruct q scale = q.sign * (((2 * q.natAbs * scale + 127) / 254 : Nat) : Int) ∧
    reconstruct (-q) scale = -reconstruct q scale ∧ ∀ p : Int, p.natAbs ≤ q.natAbs → (reconstruct p scale).natAbs ≤ (reconstruct q scale).natAbs

/-! ### The execute engine: events and registers -/

/-- No instruction of c but the one in question, f, can hold back a post that f makes: none waits already, none issued before it posts to the same
semaphore, and no feed instruction is half done. -/
def Alone (s : State) (c : ClusterId) (f : InFlight) (others : List InFlight) : Prop :=
  (s.cl c).owed = [] ∧ ∀ g ∈ others, (f.index ≤ g.index ∨ postTarget c g.word.toNat ≠ postTarget c f.word.toNat) ∧ g.finished = true

/-- The oldest instruction of a pipe completes: it leaves the pipe, its post is on its way, EXE_INSTRS counts; an error of a store line shows with
it. After a parity error its tile-step waits for a replay, and the instruction stays (notes/assumptions/88.md); so it does after one outside the
pipes, in a tile-step that has begun. A lookup whose tables are still being built stays where it is. -/
def Sys2Proof.Claims.InstructionCompletes : Prop :=
  ∀ (s : State) (c : ClusterId) (p : Pipe) (ev : CompleteEvent) (f : InFlight) (rest : List InFlight),
    s.dieOn c.die = true → InService s → s.engineBusy c = true → s.bit c.base F.clsCtrlIslandEn = true → (s.cl c).voting = false →
    (match p with | .unit => (s.cl c).unitPipe | .finish => (s.cl c).finPipe) = f :: rest → iClass f.word.toNat ≠ 6 →
    let other := match p with | .unit => (s.cl c).finPipe | .finish => (s.cl c).unitPipe
    let waits := fun (t : State) => (t.cl c).unitPipe = (s.cl c).unitPipe ∧ (t.cl c).finPipe = (s.cl c).finPipe ∧ t.posts = s.posts ∧
      t.rf c.base F.exeInstrs = s.rf c.base F.exeInstrs
    let traps := fun (t : State) (path : ParityPath) => (t.cl c).tile.trap = some (.parity path) ∧ (t.cl c).tile.undo = [] ∧
      (t.cl c).tile.written = [] ∧ t.mem = (s.revert (s.cl c).tile.undo).mem
    ∃ t : State, exec (.instructionComplete c p ev) s = .next t ∧
      match ev with
      | .apart path => waits t ∧ t.bit c.base (parityBit path) = true ∧
          if (s.cl c).tile.begun then traps t path else t.cl c = s.cl c ∧ SameBytes s t
      | _ =>
        if p = .unit ∧ (s.cl c).buildOpen f = true then t.cl c = s.cl c ∧ t.posts = s.posts ∧ t.regs = s.regs ∧ SameBytes s t
        else match ev with
          | .parity path => waits t ∧ t.bit c.base (parityBit path) = true ∧ traps t path
          | _ =>
            (t.cl c).unitPipe = (match p with | .unit => rest | .finish => (s.cl c).unitPipe) ∧
            (t.cl c).finPipe = (match p with | .unit => (s.cl c).finPipe | .finish => rest) ∧
            (Alone s c f (rest ++ other) → t.posts = s.posts ++ ownPost s c f.index f.word.toNat) ∧
            t.rf c.base F.exeInstrs = min (s.rf c.base F.exeInstrs + 1) (2 ^ 32 - 1) ∧ (t.cl c).tile = (s.cl c).tile ∧ SameBytes s t ∧
            match ev with
            | .storeUE line => t.bit c.base F.clsErrStoreUe = true ∧ t.poison.mem (c.store / 64 + line.val) = true
            | .storeCE line => t.bit c.base F.clsErrStoreCe = true ∧ t.rf c.base F.clsErrLine = line.val ∧ t.poison = s.poison
            | _ => t.poison = s.poison

/-- An EFEED or ERES at the front of the finish pipe that has copied all its records completes in the same way; one with its last record to copy
takes a count of FREE_SEM, copies the record between the store and the ring, and writes its position back (R223). -/
def Sys2Proof.Claims.FeedCompletesWhenCopied : Prop :=
  ∀ (s : State) (c : ClusterId) (f : InFlight) (rest : List InFlight),
    s.dieOn c.die = true → InService s → s.engineBusy c = true → s.bit c.base F.clsCtrlIslandEn = true → (s.cl c).voting = false →
    (s.cl c).finPipe = f :: rest → iClass f.word.toNat = 6 →
    let w := f.word.toNat
    let r := parseFeed (s.bytes (c.store + iRec w) 64)
    let eres := iOp w == 0xC1
    let unit := if eres then 1 else 8
    let ring := s.windowAddr (s.rf c.base F.exeSession) r.die (r.base + (r.pos + f.done) % r.entries eres * unit)
    let near := c.store + iLine w + f.done * unit
    let src := if eres then ring else near
    let dst := if eres then near else ring
    let place := c.store + iRec w + 12
    (iCount w ≤ f.done → ∃ t : State, exec (.instructionComplete c .finish .clean) s = .next t ∧ (t.cl c).finPipe = rest ∧ SameBytes s t ∧
      (Alone s c f (rest ++ (s.cl c).unitPipe) → t.posts = s.posts ++ ownPost s c f.index w)) ∧
    (f.done + 1 = iCount w → 1 ≤ s.sem c.die r.free → (s.cl c).tile.replaced = false →
      ∃ t : State, exec (.instructionComplete c .finish .clean) s = .next t ∧ (t.cl c).finPipe = rest ∧
        t.sem c.die r.free = s.sem c.die r.free - 1 ∧
        (∀ a, ¬ (place ≤ a ∧ a < place + 4) →
          t.byte a = if dst ≤ a ∧ a < dst + unit then s.byte (src + (a - dst)) else s.byte a) ∧
        ∀ i, i < 4 → t.byte (place + i) = (natLe 4 ((r.pos + iCount w) % r.entries eres)).getD i 0)

/-- The oldest instruction of a pipe completes.
What the model chooses here: notes/assumptions/12.md. -/
def Obligations.PipesComplete : Prop :=
  InstructionCompletes ∧ FeedCompletesWhenCopied

/-- EXE_CTRL.START of an IDLE or ENDED engine runs its list from index 0, with empty pipes and cleared function tables; it is ignored in every
other state, and in a region without supply. Memory, sessions and posts on their way stay. -/
def Sys2Proof.Claims.StartRunsList : Prop :=
  ∀ (s : State) (c : ClusterId), s.dieOn c.die = true → Recovered s →
    ∃ t : State, exec (.exeStart c) s = .next t ∧
      if (s.exe c = Ex.idle ∨ s.exe c = Ex.ended) ∧ fused c.die c.region = false then
        t.exe c = Ex.running ∧ t.bit c.base F.clsStatusBusy = true ∧ t.rf c.base F.exePc = 0 ∧
        (t.cl c).issue = 0 ∧ (t.cl c).unitPipe = [] ∧ (t.cl c).finPipe = [] ∧ (t.cl c).owed = [] ∧ (t.cl c).waitDone = false ∧
        (t.cl c).fn0 = [] ∧ (t.cl c).fn1 = [] ∧ (∀ e : ClusterId, e ≠ c → t.cl e = s.cl e) ∧
        SameBytes s t ∧ t.sessions = s.sessions ∧ t.posts = s.posts ∧
        RegsBut [c.base + F.exeStatusState.off, c.base + F.clsStatusBusy.off, c.base + F.exePc.off] s t
      else t = s

/-- EXE_CTRL.PAUSE_REQ stands from then on; the engine runs on to the next STEP with PAUSE_POINT = 1. -/
def Sys2Proof.Claims.PauseRequestStands : Prop :=
  ∀ (s : State) (c : ClusterId), s.dieOn c.die = true → Recovered s →
    ∃ t : State, exec (.pauseReq c) s = .next t ∧ t.bit c.base F.exeCtrlPauseReq = true ∧ t.exe c = s.exe c ∧ OnlyRegs s t ∧
      RegsBut [c.base + F.exeCtrlPauseReq.off] s t

/-- EXE_CTRL.RESUME lets a PAUSED engine run on; in every other state it is ignored. -/
def Sys2Proof.Claims.ResumeRunsOn : Prop :=
  ∀ (s : State) (c : ClusterId), s.dieOn c.die = true → Recovered s →
    ∃ t : State, exec (.exeResume c) s = .next t ∧
      if s.exe c = Ex.paused then t.exe c = Ex.running ∧ t.bit c.base F.clsStatusBusy = true ∧ OnlyRegs s t ∧
        RegsBut [c.base + F.exeStatusState.off, c.base + F.clsStatusBusy.off] s t
      else t = s

/-- HALT abandons what the engine runs: it is HALTED with empty pipes and posts nothing further, and every queue of its cluster is aborted; a job
that ran on the cluster is dropped. An engine that runs nothing keeps its state (notes/assumptions/58.md). -/
def Sys2Proof.Claims.HaltAbandonsInstructions : Prop :=
  ∀ (s : State) (c : ClusterId), s.dieOn c.die = true → Recovered s →
    let n := s.rf c.base F.exeSession
    ∃ h t : State, exec (.halt c) s = .next t ∧
      h.exe c = (if s.engineBusy c then Ex.halted else s.exe c) ∧
      (s.engineBusy c = true → (h.cl c).unitPipe = [] ∧ (h.cl c).finPipe = [] ∧ (h.cl c).owed = []) ∧
      (∀ q, q < 64 → h.fqState c q = Fq.idle) ∧ h.posts = s.posts ∧ SameBytes s h ∧ h.sessions = s.sessions ∧
      (s.engineBusy c = false ∨ s.runningJob n = none → t = h) ∧
      ∀ j, s.engineBusy c = true → s.runningJob n = some j → t = ((h.dropRunning n j 3).afterJob n).settle

/-- START, PAUSE_REQ, RESUME and HALT.
What the model chooses here: notes/assumptions/8.md, notes/assumptions/19.md, notes/assumptions/58.md. -/
def Obligations.EngineControl : Prop :=
  StartRunsList ∧ PauseRequestStands ∧ ResumeRunsOn ∧ HaltAbandonsInstructions

/-- A write of CLS_CTRL sets SCRUB; ISLAND_EN takes effect for the health core alone, and another writer's sets CTRL_WRITE_REFUSED. -/
def Sys2Proof.Claims.IslandEnForHealthCore : Prop :=
  ∀ (s : State) (by_ : Agent) (c : ClusterId) (v : W32), s.dieOn c.die = true → Recovered s →
    ∃ t : State, exec (.islandEnWrite by_ c v) s = .next t ∧ OnlyRegs s t ∧ t.rf c.base F.clsCtrlScrub = getF v 1 1 ∧
      (by_ = .health → t.rf c.base F.clsCtrlIslandEn = getF v 0 0 ∧ RegsBut [c.base + F.clsCtrlIslandEn.off] s t) ∧
      (by_ ≠ .health → t.rf c.base F.clsCtrlIslandEn = s.rf c.base F.clsCtrlIslandEn ∧
        t.bit c.base F.clsErrCtrlWriteRefused = true ∧
        RegsBut [c.base + F.clsCtrlIslandEn.off, c.base + F.clsErrCtrlWriteRefused.off] s t)

/-- The configuration registers of an engine take a value of the field in their range while no list runs, waits or is paused; a write then is ignored with
CFG_WRITE_WHILE_BUSY, and a value out of range with BAD_CONFIG. -/
def Sys2Proof.Claims.EngineConfiguration : Prop :=
  ∀ (s : State) (c : ClusterId) (v : W32), s.dieOn c.die = true → Recovered s →
    let n := v.toNat
    (s.engineBusy c = false →
      (∃ t : State, exec (.exeConfigWrite c .session v) s = .next t ∧ t.rf c.base F.exeSession = n % 4096 ∧ OnlyRegs s t ∧
        RegsBut [c.base + F.exeSession.off] s t) ∧
      (∃ t : State, exec (.exeConfigWrite c .listBase v) s = .next t ∧ t.rf c.base F.exeListBase = n % 0x8_0000 / 64 * 64 ∧ OnlyRegs s t ∧
        RegsBut [c.base + F.exeListBase.off] s t) ∧
      (∃ t : State, exec (.exeConfigWrite c .listSem v) s = .next t ∧ t.rf c.base F.exeListSemReady = getF v 12 0 ∧
        t.rf c.base F.exeListSemFree = getF v 28 16 ∧ t.rf c.base F.exeListSemStreamed = getF v 31 31 ∧ OnlyRegs s t ∧
        RegsBut [c.base + F.exeListSemReady.off] s t) ∧
      (∃ t : State, exec (.exeConfigWrite c .ordered v) s = .next t ∧ t.rf c.base F.exeCtrlOrdered = getF v 3 3 ∧ OnlyRegs s t ∧
        RegsBut [c.base + F.exeCtrlOrdered.off] s t) ∧
      (∃ t : State, exec (.exeConfigWrite c .listSize v) s = .next t ∧ OnlyRegs s t ∧
        if goodListSize (n % 2 ^ 15) then t.rf c.base F.exeListSize = n % 2 ^ 15 ∧ RegsBut [c.base + F.exeListSize.off] s t
        else t.bit c.base F.exeErrBadConfig = true ∧ RegsBut [c.base + F.exeErrBadConfig.off] s t) ∧
      (∃ t : State, exec (.exeConfigWrite c .listLen v) s = .next t ∧ OnlyRegs s t ∧
        if n % 2 ^ 24 ≠ 0 then t.rf c.base F.exeListLen = n % 2 ^ 24 ∧ RegsBut [c.base + F.exeListLen.off] s t
        else t.bit c.base F.exeErrBadConfig = true ∧ RegsBut [c.base + F.exeErrBadConfig.off] s t)) ∧
    (∃ t : State, exec (.exeConfigWrite c .waitLimit v) s = .next t ∧ OnlyRegs s t ∧
      if n % 2 ^ 24 ≠ 0 then t.rf c.base F.exeWaitLimit = n % 2 ^ 24 ∧ RegsBut [c.base + F.exeWaitLimit.off] s t
      else t.bit c.base F.exeErrBadConfig = true ∧ RegsBut [c.base + F.exeErrBadConfig.off] s t) ∧
    (s.engineBusy c = true → ∀ r, r ≠ .waitLimit →
      ∃ t : State, exec (.exeConfigWrite c r v) s = .next t ∧ t.bit c.base F.exeErrCfgWriteWhileBusy = true ∧ OnlyRegs s t ∧
        RegsBut [c.base + F.exeErrCfgWriteWhileBusy.off] s t)

/-- A scrub of a store line, while CLS_CTRL.SCRUB is set: a corrected line is counted, an uncorrectable one is poisoned and counted, a clean
one leaves everything as it is. No byte changes; without SCRUB nothing does. -/
def Sys2Proof.Claims.StoreScrub : Prop :=
  ∀ (s : State) (c : ClusterId) (line : Fin 8192) (found : ScrubResult), s.dieOn c.die = true → InService s → Recovered s →
    ∃ t : State, exec (.storeScrub c line found) s = .next t ∧ SameBytes s t ∧ t.sessions = s.sessions ∧ t.clusters = s.clusters ∧
      if s.bit c.base F.clsCtrlScrub then
        match found with
        | .clean => t = s
        | .corrected => t.bit c.base F.clsErrStoreCe = true ∧ t.rf c.base F.clsErrLine = line.val ∧
            t.rf c.base F.clsEccCe = min (s.rf c.base F.clsEccCe + 1) (2 ^ 16 - 1) ∧ t.poison = s.poison
        | .uncorrectable => t.bit c.base F.clsErrStoreUe = true ∧ t.rf c.base F.clsErrLine = line.val ∧
            t.rf c.base F.clsEccUe = min (s.rf c.base F.clsEccUe + 1) (2 ^ 16 - 1) ∧
            ∀ l, t.poison.mem l = (s.poison.mem l || l == c.store / 64 + line.val)
      else t = s

/-- The registers of the engine and of its cluster, and the scrub of its store.
What the model chooses here: notes/assumptions/49.md, notes/assumptions/68.md. -/
def Obligations.EngineRegisters : Prop :=
  IslandEnForHealthCore ∧ EngineConfiguration ∧ StoreScrub

/-! ### Semaphores -/

/-- A post that arrives, or a write of the post port, adds its count to an owned semaphore: SEM_POSTS counts, and no other semaphore changes. On
a semaphore that nobody owns it is discarded and shows in SEM_ERR. -/
def Sys2Proof.Claims.PostsAddTheirCount : Prop :=
  ∀ (s : State) (d : Die) (i : SemNo) (n : Nat) (cmd : Instr),
    s.dieOn d = true → Recovered s → 0 < n → n < 2 ^ 32 →
    (cmd = .semPost d i (BitVec.ofNat 32 n) ∨
      ∃ k p, cmd = .semPostArrive k ∧ s.posts[k]? = some p ∧ p.die = d.val ∧ p.sem = i.val ∧ p.count = n ∧
        (s.posts.take k).all (fun q => !(q.src == p.src && q.die == p.die && q.sem == p.sem)) = true) →
    (s.semOwned d i = true → s.sem d i + n < 2 ^ 32 →
      ∃ t : State, exec cmd s = .next t ∧ t.sem d i = s.sem d i + n ∧ RegsBut [semValKey d i, key d F.semPosts.off] s t ∧
        t.rf (key d 0) F.semPosts = min (s.rf (key d 0) F.semPosts + 1) (2 ^ 32 - 1) ∧ OnlyRegs { s with posts := t.posts } t ∧
        (∀ k, cmd = .semPostArrive k → t.posts = s.posts.eraseIdx k) ∧ (∀ v, cmd = .semPost d i v → t.posts = s.posts)) ∧
    (s.semOwned d i = false →
      ∃ t : State, exec cmd s = .next t ∧ t.sem d i = s.sem d i ∧ t.bit (key d 0) F.semErrUnownedPost = true ∧
        t.rf (key d 0) F.semErrSem = i.val ∧ OnlyRegs { s with posts := t.posts } t)

/-- A post that would pass the largest value leaves it there, sets SEM_OVERFLOW and ends the owning session; when an engine made the post, its
EXE_ERR and EXE_ERR_PC show it too (R229). -/
def Sys2Proof.Claims.PostOverflowEndsSession : Prop :=
  (∀ (s : State) (d : Die) (i : SemNo) (v : W32), s.dieOn d = true → s.semOwned d i = true → 2 ^ 32 ≤ s.sem d i + v.toNat → v ≠ 0 →
    ∃ u : State, exec (.semPost d i v) s = .next (u.endSession (s.semOwner d i) St.exeSemOverflow).settle ∧
      u.sem d i = 2 ^ 32 - 1 ∧ u.bit (key d 0) F.semErrSemOverflow = true ∧ u.rf (key d 0) F.semErrSem = i.val ∧ SameBytes s u) ∧
  (∀ (s : State) (k : Nat) (p : Post) (c : ClusterId) (d : Die) (i : SemNo), s.on = true → s.posts[k]? = some p →
    (s.posts.take k).all (fun q => !(q.src == p.src && q.die == p.die && q.sem == p.sem)) = true →
    engineAt p.src = some c → p.die = d.val → p.sem = i.val → s.semOwned d i = true → 2 ^ 32 ≤ s.sem d i + p.count → 0 < p.count →
    ∃ u : State, exec (.semPostArrive k) s = .next (u.endSession (s.semOwner d i) St.exeSemOverflow (s.exeDetail c p.index)).settle ∧
      u.sem d i = 2 ^ 32 - 1 ∧ u.bit (key d 0) F.semErrSemOverflow = true ∧ u.rf (key d 0) F.semErrSem = i.val ∧ SameBytes s u ∧
      u.bit c.base F.exeErrSemOverflow = true ∧ u.rf c.base F.exeErrPcIndex = p.index % 2 ^ 24 ∧
      u.rf c.base F.exeErrPcOpcode = p.opcode % 2 ^ 8 ∧ u.posts = s.posts.eraseIdx k)

/-- A write of a semaphore's value takes effect while no cluster of its owner runs or waits, and is refused otherwise. -/
def Sys2Proof.Claims.SemaphoreValueWrite : Prop :=
  ∀ (s : State) (d : Die) (i : SemNo) (v : W32), s.dieOn d = true → Recovered s →
    let busy := s.semOwned d i && (s.clustersOfSession (s.semOwner d i)).any (fun c => s.rf c.base F.exeSession == s.semOwner d i
      && (s.exe c == Ex.running || s.exe c == Ex.waiting))
    ∃ t : State, exec (.semValWrite d i v) s = .next t ∧ OnlyRegs s t ∧
      if busy then t.sem d i = s.sem d i ∧ t.bit (key d 0) F.semErrSemWriteWhileBusy = true ∧
        RegsBut [key d F.semErrSem.off] s t
      else t.sem d i = v.toNat ∧ RegsBut [semValKey d i] s t

/-- Posts, the post port and the value of a semaphore.
What the model chooses here: notes/assumptions/65.md. -/
def Obligations.SemaphoreRegisters : Prop :=
  PostsAddTheirCount ∧ PostOverflowEndsSession ∧ SemaphoreValueWrite

/-- A blocked wait whose semaphore holds its count takes it and lets its waiter go on: an engine runs, a fetch queue opens its row, a channel may
take its record. -/
def Sys2Proof.Claims.SatisfiedWaitsGoOn : Prop :=
  (∀ (s : State) (c : ClusterId) (line : Bool) (sem n : Nat), s.dieOn c.die = true → Recovered s → s.exe c = Ex.waiting →
    s.nextWait c = some (line, sem, n) → n ≤ s.sem c.die sem →
    ∃ t : State, exec (.semWaitSatisfied (.engine c)) s = .next t ∧ t.exe c = Ex.running ∧ t.sem c.die sem = s.sem c.die sem - n ∧
      SameBytes s t ∧ t.sessions = s.sessions ∧ (t.cl c).issue = (s.cl c).issue ∧
      (if line then (t.cl c).linesReady = (s.cl c).linesReady + 1 else (t.cl c).waitDone = true)) ∧
  (∀ (s : State) (ch : ChannelId), s.dieOn ch.die = true → Recovered s → s.bit ch.unitBase F.entCtrlEnable = true →
    s.bit ch.base F.entChCtrlEnable = true → (s.chan ch).result = none → (s.chan ch).fed = false →
    let sem := s.rf ch.base F.entChSemFeedReady
    1 ≤ s.sem ch.die sem →
    ∃ t : State, exec (.semWaitSatisfied (.channel ch)) s = .next t ∧ (t.chan ch).fed = true ∧ t.sem ch.die sem = s.sem ch.die sem - 1 ∧
      RegsBut [semValKey ch.die sem] s t ∧ SameBytes s t ∧ t.sessions = s.sessions) ∧
  (∀ (s : State) (ch : ChannelId), s.dieOn ch.die = true → Recovered s → s.bit ch.unitBase F.entCtrlEnable = true →
    s.bit ch.base F.entChCtrlEnable = true → (s.chan ch).result.isSome = true → (s.chan ch).freed = false →
    let sem := s.rf ch.base F.entChSemResFree
    1 ≤ s.sem ch.die sem →
    ∃ t : State, exec (.semWaitSatisfied (.channel ch)) s = .next t ∧ t.chan ch = { s.chan ch with freed := true } ∧
      t.sem ch.die sem = s.sem ch.die sem - 1 ∧ RegsBut [semValKey ch.die sem] s t ∧ SameBytes s t ∧ t.sessions = s.sessions)

/-- A delivery row starts when it has its credit: the count is taken from FREE_SEM and the queue is ACTIVE with an open row; without the credit
the queue waits and nothing is taken. A row that needs no credit, or has it, starts at once, and a queue that pauses starts none. -/
def Obligations.DeliveryRowTakesCredit : Prop :=
  ∀ (s : State) (c : ClusterId) (q : FetchNo) (cmd : Instr),
    (cmd = .deliveryRowStart c q ∧ (s.fqState c q = Fq.active ∨ s.fqState c q = Fq.creditWait)) ∨
      (cmd = .semWaitSatisfied (.fetch c q) ∧ s.fqState c q = Fq.creditWait) →
    s.dieOn c.die = true → Recovered s → s.fetchOn c = true →
    let x := s.fq c q
    let d := parseDesc x.desc
    x.rowOpen = false → d.empty = false → x.row < d.rows →
    let needs := d.creditEn && decide (x.credited ≤ x.row)
    ∃ t : State, exec cmd s = .next t ∧ SameBytes s t ∧ t.posts = s.posts ∧
      if x.pausing then (t.fq c q).rowOpen = false ∧ (t.fq c q).row = x.row ∧ t.sem c.die d.freeSem = s.sem c.die d.freeSem ∧
        (x.posted = x.row → t.fqState c q = Fq.parkedPause)
      else if needs ∧ s.sem c.die d.freeSem < d.lines then
        t.fqState c q = Fq.creditWait ∧ t.fq c q = x ∧ t.sem c.die d.freeSem = s.sem c.die d.freeSem
      else t.fqState c q = Fq.active ∧ (t.fq c q).rowOpen = true ∧ (t.fq c q).row = x.row ∧ (t.fq c q).i0 = 0 ∧ (t.fq c q).i1 = 0 ∧
        (t.fq c q).credited = max x.credited (x.row + 1) ∧
        t.sem c.die d.freeSem = s.sem c.die d.freeSem - (if needs then d.lines else 0)

/-- A wait that stays blocked past its limit, with the value below its count, sets WAIT_TIMEOUT and ends the session: that of an engine, which names
its instruction and is halted, that of a feed instruction in the finish pipe for a free slot, and that of a fetch queue for its credit. -/
def Sys2Proof.Claims.WaitTimeoutEndsSession : Prop :=
  (∀ (s : State) (c : ClusterId) (line : Bool) (sem n : Nat), s.dieOn c.die = true → s.exe c = Ex.waiting →
    s.nextWait c = some (line, sem, n) → s.sem c.die sem < n →
    ∃ u : State, exec (.waitTimeout (.engine c)) s =
        .next (u.endSession (s.rf c.base F.exeSession) St.exeWaitTimeout (u.exeDetail c (s.cl c).issue)).settle ∧
      u.bit c.base F.exeErrWaitTimeout = true ∧ u.rf c.base F.exeErrPcIndex = (s.cl c).issue % 2 ^ 24 ∧
      u.rf c.base F.exeErrPcOpcode = iOp (nextWord s c) ∧ u.exe c = Ex.halted ∧ SameBytes s u) ∧
  (∀ (s : State) (c : ClusterId) (f : InFlight), s.dieOn c.die = true → s.exe c = Ex.running → s.feedBlocked c = some f →
    ∃ u : State, exec (.waitTimeout (.engine c)) s =
        .next (u.endSession (s.rf c.base F.exeSession) St.exeWaitTimeout (u.exeDetail c f.index)).settle ∧
      u.bit c.base F.exeErrWaitTimeout = true ∧ u.rf c.base F.exeErrPcIndex = f.index % 2 ^ 24 ∧
      u.rf c.base F.exeErrPcOpcode = iOp f.word.toNat ∧ u.exe c = Ex.halted ∧ SameBytes s u) ∧
  (∀ (s : State) (c : ClusterId) (q : FetchNo), s.dieOn c.die = true → s.fqState c q = Fq.creditWait →
    s.sem c.die (parseDesc (s.fq c q).desc).freeSem < (parseDesc (s.fq c q).desc).lines →
    ∃ u : State, exec (.waitTimeout (.fetch c q)) s = .next (u.endSession (s.fqSession c q) St.exeWaitTimeout (s.exeDetail c 0)).settle ∧
      u.bit c.base F.fetErrWaitTimeout = true ∧ u.rf c.base F.fetErrQueue = q.val ∧ u.bit c.base F.exeErrWaitTimeout = true ∧ OnlyRegs s u)

/-- A session that ends is closed: nothing of it is left under its number. -/
def Sys2Proof.Claims.EndedSessionIsClosed : Prop :=
  ∀ (s : State) (n status : Nat), ((s.endSession n status).ses n).kind = .none ∧
    ((s.ses n).kind ≠ .none → (s.endSession n status).ses n = {})

/-- Waits that are satisfied and waits that time out, which end their session.
What the model chooses here: notes/assumptions/25.md. -/
def Obligations.Waits : Prop :=
  SatisfiedWaitsGoOn ∧ WaitTimeoutEndsSession ∧ EndedSessionIsClosed

/-! ### The fetch engine -/

/-- ARM starts a transfer of the idle queue that FET_QSEL selects from its descriptor; one that names no byte is done at once unless the engine is
disabled, a bad one ends the session, and an arm of a busy queue is ignored and shown. A region without supply arms nothing (R4). -/
def Sys2Proof.Claims.ArmStartsTransfer : Prop :=
  ∀ (s : State) (c : ClusterId), s.dieOn c.die = true → Recovered s →
    let q := s.rf c.base F.fetQsel
    let x := s.fq c q
    let d := parseDesc x.desc
    (fused c.die c.region = true → ∃ t : State, exec (.arm c) s = .next t ∧ t = { s with fetch := t.fetch } ∧ (t.fq c q).desc = x.desc) ∧
    (fused c.die c.region = false → s.fqBusy c q = true → ∃ t : State, exec (.arm c) s = .next t ∧ t.bit (c.fetchBase q) F.fetQStatusRearmWhileBusy = true ∧
      t.fq c q = x ∧ t.fqState c q = s.fqState c q ∧ t = { s with regs := t.regs, dies := t.dies }) ∧
    (fused c.die c.region = false → s.fqBusy c q = false → s.badDescFor c (s.fqSession c q) x.desc = false →
      ∃ t : State, exec (.arm c) s = .next t ∧ t.fq c q = { desc := x.desc } ∧ t.fqSession c q = s.fqSession c q ∧
        (if d.empty then t.fqBusy c q = !s.fetchOn c else t.fqState c q = if d.creditEn then Fq.creditWait else Fq.active) ∧
        t.rf (c.fetchBase q) F.fetQStatusPosted = 0 ∧ SameBytes s t ∧ (d.empty = false → t.posts = s.posts) ∧
        t.sessions = s.sessions ∧ t.clusters = s.clusters) ∧
    (fused c.die c.region = false → s.fqBusy c q = false → s.badDescFor c (s.fqSession c q) x.desc = true →
      ∃ u : State, exec (.arm c) s = .next (u.endSession (s.fqSession c q) St.fetBadDesc (s.exeDetail c 0)).settle ∧
        u.bit c.base F.fetErrBadDesc = true ∧ u.rf c.base F.fetErrQueue = q ∧ u = { s with regs := u.regs, fetch := u.fetch })

/-- ABORT leaves a busy queue idle with nothing in flight and its descriptor kept; no byte and no post follows. An idle queue stays as it is. -/
def Sys2Proof.Claims.AbortStopsQueue : Prop :=
  ∀ (s : State) (c : ClusterId) (q : FetchNo), s.dieOn c.die = true → Recovered s →
    ∃ t : State, exec (.fetQAbort c q) s = .next t ∧
      if s.fqBusy c q then
        t.fqState c q = Fq.idle ∧ (t.fq c q).inflight = [] ∧ (t.fq c q).rowOpen = false ∧
        (t.fq c q).desc = (s.fq c q).desc ∧ t.rf (c.fetchBase q) F.fetQStatusOutstanding = 0 ∧
        RegsBut [c.fetchBase q + F.fetQStatusState.off] s t ∧ SameBytes s t ∧ t.posts = s.posts ∧ t.sessions = s.sessions
      else t = s

/-- A write of the descriptor window changes the 4 bytes of its word in the descriptor of the selected queue while that is idle; on a busy
queue it is ignored and shows in FET_ERR. -/
def Sys2Proof.Claims.DescriptorWindowWrite : Prop :=
  ∀ (s : State) (c : ClusterId) (word : Fin 32) (v : W32), s.dieOn c.die = true → Recovered s →
    let q := s.rf c.base F.fetQsel
    (s.fqBusy c q = false → ∃ t : State, exec (.fetDescWrite c word v) s = .next t ∧ t.regs = s.regs ∧ SameBytes s t ∧
      (t.fq c q).desc.length = 128 ∧ ∀ i, i < 128 → (t.fq c q).desc.getD i 0 =
        if 4 * word.val ≤ i ∧ i < 4 * word.val + 4 then (natLe 4 v.toNat).getD (i - 4 * word.val) 0 else (s.fq c q).desc.getD i 0) ∧
    (s.fqBusy c q = true → ∃ t : State, exec (.fetDescWrite c word v) s = .next t ∧ OnlyRegs s t ∧
      t.bit c.base F.fetErrDescWriteWhileBusy = true ∧ t.rf c.base F.fetErrQueue = q)

/-- FET_CTRL takes ENABLE from bit 0; a write with 0, or while no busy queue has anything to post, to complete or to park, changes nothing else. -/
def Sys2Proof.Claims.FetchEnable : Prop :=
  ∀ (s : State) (c : ClusterId) (v : W32), s.dieOn c.die = true → Recovered s → (∀ n, (s.ses n).pauseTo = none) →
    ∃ t : State, exec (.fetCtrlEnable c v) s = .next t ∧ t.rf c.base F.fetCtrlEnable = getF v 0 0 ∧ SameBytes s t ∧ t.sessions = s.sessions ∧
      (getF v 0 0 = 0 ∨ (∀ q, q < 64 → s.fqBusy c q = true →
          (parseDesc (s.fq c q).desc).empty = false ∧ (s.fq c q).row ≤ (s.fq c q).posted ∧ (s.fq c q).pausing = false) →
        OnlyRegs s t ∧ RegsBut [c.base + F.fetCtrlEnable.off] s t)

/-- Arming, abort, the descriptor window and the enable of a fetch engine. -/
def Obligations.FetchRegisters : Prop :=
  ArmStartsTransfer ∧ AbortStopsQueue ∧ DescriptorWindowWrite ∧ FetchEnable

/-- A queue with an open row issues its next request: at most to the next 1,024-byte boundary of its source, behind the others in flight, and
FET_Q_STATUS counts it. Device-virtual sides are translated first; an address that the tables do not map parks the queue, its requests in flight are
discarded as they return, and the fault is recorded. While a walk must read tables in host memory over no route, the queue waits (R403). -/
def Sys2Proof.Claims.RequestIssues : Prop :=
  ∀ (s : State) (c : ClusterId) (q : FetchNo), s.dieOn c.die = true → InService s → s.fetchOn c = true → s.fqState c q = Fq.active →
    let x := s.fq c q
    let d := parseDesc x.desc
    let n := s.fqSession c q
    x.rowOpen = true → x.inflight.length < d.outstanding → d.outstanding ≤ 64 →
    let src := (d.srcAt x.row x.i1 x.i0 % (2 ^ 52 : Int)).toNat
    let len := nextLength d src x.i0
    let cut := d.cutRing x.row (s.rowLine c q d x.row) x.i1 x.i0 len
    let virtual := d.srcKind = 0 ∧ x.poisoned = false
    let held := (virtual ∧ s.translateHeld c n src false = true) ∨
      (d.dstKind = 0 ∧ ∃ p ∈ cut, ∃ z ∈ piecesOf p.2.1 p.2.2, s.translateHeld c n z.1 true = true)
    (held → ∃ t : State, exec (.fetchRequestIssue c q) s = .next t ∧ t.bit (key c.die 0) F.lnkDieErrHostLost = true ∧ OnlyRegs s t) ∧
    (¬ held → ∀ (from_ : Nat) (u v : State) (ps : List (Nat × Nat × Nat)),
      (if virtual then ∃ w, s.translate c n src false = (.ok from_ w, u) else u = s ∧ from_ = s.sideAddr c n d.srcKind d.srcLoc src) →
      (if d.dstKind = 0 then u.translateParts c n cut = (.ok ps, v)
       else v = u ∧ ps = cut.map (fun p => (p.1, u.sideAddr c n d.dstKind d.dstLoc p.2.1, p.2.2))) →
      ∃ t r, exec (.fetchRequestIssue c q) s = .next t ∧ (t.fq c q).inflight = x.inflight ++ [r] ∧
        r.src = from_ ∧ r.len = len ∧ r.parts = ps ∧ r.row = x.row ∧ r.drop = false ∧ r.zero = x.poisoned ∧
        t.rf (c.fetchBase q) F.fetQStatusOutstanding = x.inflight.length + 1 ∧ t.fqState c q = v.fqState c q ∧
        (Unloaded v ∨ s.hostSource r = none → SameBytes v t) ∧ t.posts = v.posts ∧ (d.dstKind ≠ 0 → (ps.map (fun p => p.2.2)).sum = len) ∧
        (v = s → s.hostSource r = none → RegsBut [c.fetchBase q + F.fetQStatusState.off] s t)) ∧
    (¬ held → ∀ (kind level : Nat) (entry : W64) (u : State), virtual → s.translate c n src false = (.fault kind level entry, u) →
      ∃ t : State, exec (.fetchRequestIssue c q) s = .next t ∧ t.fqState c q = Fq.parkedFault ∧ (t.fq c q).rowOpen = false ∧
        (t.fq c q).fault = some { va := src, write := false, kind := kind, level := level, entry := entry } ∧
        (∀ r ∈ (t.fq c q).inflight, r.drop = true) ∧ SameBytes u t ∧ t.posts = u.posts) ∧
    (¬ held → ∀ (from_ va kind level : Nat) (entry : W64) (u v : State), d.dstKind = 0 →
      (if virtual then ∃ w, s.translate c n src false = (.ok from_ w, u) else u = s) →
      u.translateParts c n cut = (.error (va, .fault kind level entry), v) →
      ∃ t : State, exec (.fetchRequestIssue c q) s = .next t ∧ t.fqState c q = Fq.parkedFault ∧ (t.fq c q).rowOpen = false ∧
        (t.fq c q).fault = some { va := va, write := true, kind := kind, level := level, entry := entry } ∧
        (∀ r ∈ (t.fq c q).inflight, r.drop = true) ∧ SameBytes v t ∧ t.posts = v.posts)

/-- A request whose data has come returns, and is in flight no more but while bytes of it wait for a host link. One that an abort or a fault has dropped does nothing else. Otherwise what its memory reports takes
effect, and its lines are written as they are cut at the lines of the destination: when all are, the rows that are complete are posted, and a line
that is refused or loses its poison ends the session. For a line moved between stores or die buffers of clean data without a report every byte of
the destination is the byte of the source, and every other byte stays. -/
def Sys2Proof.Claims.RequestReturnMovesBytes : Prop :=
  ∀ (s : State) (c : ClusterId) (q : FetchNo) (k : Nat) (r : Request) (evs : List LineEvent), s.dieOn c.die = true → InService s →
    s.fqBusy c q = true → (s.fq c q).inflight[k]? = some r → s.unanswered c r = false → (s.ses (s.fqSession c q)).pauseTo = none →
    let n := s.fqSession c q
    let e := evs.filter (fun e => e.dst || !r.zero)
    let u := s.putFq c q { s.fq c q with inflight := (s.fq c q).inflight.eraseIdx k }
    let m := u.requestEvents n r (e.filter (fun e => !lateEvent e))
    let w := m.moveRequest c q n r (m.failedLines r e)
    let v := w.1.requestEvents n r (e.filter lateEvent)
    (r.drop = true → ∃ t : State, exec (.fetchRequestReturn c q k evs) s = .next t ∧
      (t.fq c q).inflight = (s.fq c q).inflight.eraseIdx k ∧ SameBytes s t ∧ t.posts = s.posts) ∧
    (r.drop = false →
      if m.fqBusy c q then
        match w.2 with
        | none => ∃ t : State, exec (.fetchRequestReturn c q k evs) s = .next t ∧ SameBytes v t
        | some st => exec (.fetchRequestReturn c q k evs) s = .next (w.1.endSession n st (w.1.exeDetail c 0)).settle
      else exec (.fetchRequestReturn c q k evs) s = .next m.settle) ∧
    (∀ dst len, r.drop = false → r.zero = false → evs = [] → r.parts = [(0, dst, len)] → 0 < len → len ≤ 64 - dst % 64 →
      s.anyPoison r.src len = false → Unloaded s →
      (∃ d o, s.target r.src = .dbuf d o) ∨ (∃ d g l o, s.target r.src = .store d g l o) →
      (∃ d o, s.target dst = .dbuf d o) ∨ (∃ d g l o, s.target dst = .store d g l o) →
      ∃ t : State, exec (.fetchRequestReturn c q k evs) s = .next t ∧
        ∀ a, t.byte a = if dst ≤ a ∧ a < dst + len then s.byte (r.src + (a - dst)) else s.byte a)

/-- Requests of a fetch queue.
What the model chooses here: notes/assumptions/43.md. -/
def Obligations.FetchRequests : Prop :=
  RequestIssues ∧ RequestReturnMovesBytes

/-! ### The entropy units -/

/-- A channel takes its next record r, of a kind, having waited for it (state t): it stands inside the window of the session, is clean, of a kind
that its segment allows, and in order behind the record before it, if the channel has taken one. -/
def Sys2Proof.Claims.TakesRecord (s t : State) (ch : ChannelId) (kind r : Nat) : Prop :=
  let off := t.rf ch.base F.entChFeedBase + 8 * (t.chan ch).feedPos
  let last := t.rf ch.base F.entChStatusTag
  s.dieOn ch.die = true ∧ InService s ∧ s.chReady ch = true ∧ s.feedWait ch = some t ∧ t.chInside ch off 8 = true ∧
  r = t.le (t.chAddr ch off) 8 ∧ recKind r = kind ∧ t.anyPoison (t.chAddr ch off) 8 = false ∧
  badFeedRecord (t.decodes ch) (t.bit ch.base F.entChStatusOpen) r = false ∧
  ((t.chan ch).tagged = true → recTag r = last ∨ recTag r = (last + 1) % 256)

/-- The feed position after a record. -/
def Sys2Proof.Claims.nextFeed (t : State) (ch : ChannelId) : Nat := ((t.chan ch).feedPos + 1) % max 1 (t.rf ch.base F.entChFeedSize)

/-- The post of the results that a channel has written since the previous one (R101). -/
def Sys2Proof.Claims.resultPost (t : State) (ch : ChannelId) : List Post :=
  if (t.chan ch).unposted = 0 then []
  else [{ src := srcChannel ch, die := ch.die.val, sem := t.rf ch.base F.entChSemResReady, count := (t.chan ch).unposted }]

/-- The post that frees the slot of a record (R101). -/
def Sys2Proof.Claims.freePost (t : State) (ch : ChannelId) : Post :=
  { src := srcChannel ch, die := ch.die.val, sem := t.rf ch.base F.entChSemFeedFree, count := 1 }

/-- c_lo and f that a record names in an encode channel, for a symbol of its alphabet; a side code beyond ±31 is clamped (R87). -/
def Sys2Proof.Claims.recordPair (t : State) (ch : ChannelId) (p : Bool) (cmd : Instr) (r cLo f : Nat) : Prop :=
  (cmd = .latent ch p ∧ recKind r = 0 ∧ recSym r ≠ -128 ∧
    ∃ k : Nat, (k : Int) = recSym r + 127 ∧
      cLo = latentCdf (clampMuSigma (signedN 16 (recA r)) (recB r)).1 (clampMuSigma (signedN 16 (recA r)) (recB r)).2.1 k ∧
      cLo + f = latentCdf (clampMuSigma (signedN 16 (recA r)) (recB r)).1 (clampMuSigma (signedN 16 (recA r)) (recB r)).2.1 (k + 1)) ∨
  (cmd = .latentCdf ch p ∧ recKind r = 1 ∧ cLo = recA r ∧ f = recB r) ∨
  (cmd = .side ch p ∧ recKind r = 2 ∧
    ∃ k : Nat, (k : Int) = max (-31) (min 31 (recSym r)) + 31 ∧ cLo = t.sideCdf ch (recTable r) k ∧ cLo + f = t.sideCdf ch (recTable r) (k + 1))

/-- An encode channel takes a record: the lane whose turn it is codes the symbol with the c_lo and f of the record, its bytes stand behind those
the lane has, and the record's slot is free. A parity error that the unit meets is reported on a card and changes none of this.
What the model chooses here: notes/assumptions/23.md. -/
def Obligations.RecordsEncodeSymbols : Prop :=
  ∀ (s t : State) (ch : ChannelId) (p : Bool) (cmd : Instr) (r cLo f : Nat), TakesRecord s t ch (recKind r) r → t.decodes ch = false →
    recordPair t ch p cmd r cLo f →
    let l := t.laneOf ch
    let x := t.lane ch l
    degenerate x f = false → x.pos + (x.encode cLo f).2.length ≤ t.rf (ch.laneBase l) F.entLcLen →
    t.laneInside ch l x.pos (x.encode cLo f).2.length = true →
    ∃ u : State, exec cmd s = .next u ∧
      u.rf (ch.laneBase l) F.entLcLow = (x.encode cLo f).1.low % 2 ^ 32 ∧
      u.rf (ch.laneBase l) F.entLcRange = (x.encode cLo f).1.range % 2 ^ 32 ∧
      u.rf (ch.laneBase l) F.entLcPos = x.pos + (x.encode cLo f).2.length ∧
      (u.chan ch).feedPos = nextFeed t ch ∧ (u.chan ch).fed = false ∧ (u.chan ch).taken = (t.chan ch).taken + 1 ∧
      u.posts = s.posts ++ [freePost t ch] ∧ u.rf ch.base F.entChStatusTag = recTag r ∧
      (u.die ch.die).cardSeq = (s.die ch.die).cardSeq + (if p then 1 else 0) ∧
      ∀ a, u.byte a = if t.laneByte ch l x.pos ≤ a ∧ a < t.laneByte ch l x.pos + (x.encode cLo f).2.length then
        (x.encode cLo f).2.getD (a - t.laneByte ch l x.pos) 0 else s.byte a

/-- A decode channel takes a LATENT or SIDE record: the lane whose turn it is decodes the symbol of R85 in the record's alphabet, and its code
waits for the result ring. No byte of memory changes and no post is made yet. A parity error that the unit meets is reported on a card.
What the model chooses here: notes/assumptions/23.md. -/
def Obligations.RecordsDecodeSymbols : Prop :=
  ∀ (s t : State) (ch : ChannelId) (p : Bool) (cmd : Instr) (r n bias : Nat) (c : Nat → Nat), TakesRecord s t ch (recKind r) r → t.decodes ch = true →
    (cmd = .latent ch p ∧ recKind r = 0 ∧ n = 255 ∧ bias = 127 ∧
      c = latentCdf (clampMuSigma (signedN 16 (recA r)) (recB r)).1 (clampMuSigma (signedN 16 (recA r)) (recB r)).2.1 ∨
     cmd = .side ch p ∧ recKind r = 2 ∧ n = 63 ∧ bias = 31 ∧ c = t.sideCdf ch (recTable r)) →
    let l := t.laneOf ch
    let x := t.lane ch l
    let d := x.decode (t.laneRead ch l) c n
    degenerate x (c (d.2.1 + 1) - c d.2.1) = false → t.lanePoison ch l x.pos d.1.pos = false →
    t.laneInside ch l x.pos (min d.1.pos (t.rf (ch.laneBase l) F.entLcLen) - x.pos) = true →
    ∃ u : State, exec cmd s = .next u ∧ (u.chan ch).result = some (BitVec.ofInt 8 ((d.2.1 : Int) - bias)) ∧
      (u.chan ch).postAfter = recPost r ∧ (u.chan ch).clamped = ((t.chan ch).clamped || d.2.2) ∧
      u.rf (ch.laneBase l) F.entLcLow = d.1.low % 2 ^ 32 ∧ u.rf (ch.laneBase l) F.entLcRange = d.1.range % 2 ^ 32 ∧
      (u.chan ch).feedPos = nextFeed t ch ∧ (u.chan ch).fed = false ∧ (u.chan ch).taken = (t.chan ch).taken + 1 ∧
      (u.die ch.die).cardSeq = (s.die ch.die).cardSeq + (if p then 1 else 0) ∧ u.posts = s.posts ∧ SameBytes s u

/-- The synthesised CDF gives every symbol a frequency above 0, whatever the mean: it rises strictly from 0 to 65,536. -/
def Sys2Proof.Claims.LatentCdfRisesStrictly : Prop :=
  ∀ (mu : Int) (sigma k : Nat), 0 < sigma → k < 255 →
    latentCdf mu sigma 0 = 0 ∧ latentCdf mu sigma 255 = 65536 ∧ latentCdf mu sigma k < latentCdf mu sigma (k + 1)

/-- The code of a latent value, its reconstruction, and the CDF it is coded with. -/
def Obligations.LatentArithmetic : Prop :=
  LatentCodeErrorBound ∧ CodesReconstruct ∧ LatentCdfRisesStrictly

/-- Offset and length that lane l has in a lane descriptor table (R100). -/
def Sys2Proof.Claims.tableOff (t : State) (ch : ChannelId) (table l : Nat) : Nat := t.le (t.chAddr ch (table + 8 * l)) 4 % 2 ^ 24
def Sys2Proof.Claims.tableLen (t : State) (ch : ChannelId) (table l : Nat) : Nat := t.le (t.chAddr ch (table + 8 * l) + 4) 4 % 2 ^ 24

/-- A segment opens on the lanes that the channel holds: each has its offset and length from its descriptor, and the first state of R82 in an
encode channel, of R85 in a decode channel; with POST set, results that stand unposted are posted (R101). A segment of a decode channel closes with
its results posted, and every case of R86 that its lanes show is counted and shown; one of an encode channel closes with its lanes flushed, and the
byte count of a lane goes into its descriptor. -/
def Sys2Proof.Claims.SegmentsOpenAndClose : Prop :=
  (∀ (s t : State) (ch : ChannelId) (r : Nat), TakesRecord s t ch 3 r → recDesc r % 64 = 0 →
    t.chInside ch (recDesc r) 64 = true → t.anyPoison (t.chAddr ch (recDesc r)) 64 = false →
    (t.lanesOf ch).all (t.goodLane ch (recDesc r)) = true →
    (t.decodes ch = true → ∀ l ∈ t.lanesOf ch,
      t.anyPoison (t.chAddr ch (tableOff t ch (recDesc r) l)) (min 4 (tableLen t ch (recDesc r) l)) = false) →
    ∃ u : State, exec (.segmentStart ch) s = .next u ∧ u.bit ch.base F.entChStatusOpen = true ∧ u.rf ch.base F.entChStatusTag = recTag r ∧
      (u.chan ch).taken = 0 ∧ (u.chan ch).desc = recDesc r ∧ (u.chan ch).feedPos = nextFeed t ch ∧
      u.posts = s.posts ++ [freePost t ch] ++ (if recPost r then resultPost t ch else []) ∧
      SameBytes s u ∧ ∀ l, l ∈ t.lanesOf ch →
        let off := tableOff t ch (recDesc r) l
        let len := tableLen t ch (recDesc r) l
        let first := ({} : Lane).startDecode (fun i => if i < len then t.byte (t.chAddr ch (off + i)) else 0)
        u.rf (ch.laneBase l) F.entLcOffset = off ∧ u.rf (ch.laneBase l) F.entLcLen = len ∧ u.rf (ch.laneBase l) F.entLcRange = 0xFFFF_FFFF ∧
        u.rf (ch.laneBase l) F.entLcLow = (if t.decodes ch then first.low else 0) ∧
        u.rf (ch.laneBase l) F.entLcPos = if t.decodes ch then 4 else 0) ∧
  (∀ (s t : State) (ch : ChannelId) (r : Nat), TakesRecord s t ch 4 r → t.decodes ch = true →
    (∀ l ∈ t.lanesOf ch, t.laneInside ch l 0 (t.rf (ch.laneBase l) F.entLcLen) = true) →
    let surplus := (t.lanesOf ch).any (t.surplus ch)
    let trailing := (t.lanesOf ch).any (t.trailing ch)
    ∃ u : State, exec (.segmentEnd ch) s = .next u ∧ u.bit ch.base F.entChStatusOpen = false ∧ (u.chan ch).unposted = 0 ∧
      (u.chan ch).feedPos = nextFeed t ch ∧ SameBytes s u ∧ u.posts = s.posts ++ [freePost t ch] ++ resultPost t ch ∧
      (surplus = true → u.bit ch.unitBase F.entErrLaneSurplus = true) ∧
      (trailing = true → u.bit ch.unitBase F.entErrTrailingZero = true) ∧
      ((t.chan ch).clamped = true → u.bit ch.unitBase F.entErrTargetClamp = true) ∧
      u.rf ch.base F.entChDamage =
        if surplus || trailing || (t.chan ch).clamped then min (t.rf ch.base F.entChDamage + 1) (2 ^ 16 - 1) else t.rf ch.base F.entChDamage) ∧
  (∀ (s t : State) (ch : ChannelId) (r : Nat), TakesRecord s t ch 4 r → t.decodes ch = false →
    (∀ l ∈ t.lanesOf ch, t.laneInside ch l 0 (t.rf (ch.laneBase l) F.entLcLen) = true ∧ t.chInside ch ((t.chan ch).desc + 8 * l + 4) 4 = true) →
    let out := fun l => if t.rf (ch.laneBase l) F.entLcSyms = 0 then [] else (t.lane ch l).flush.2
    (∀ l ∈ t.lanesOf ch, (t.lane ch l).pos + (out l).length ≤ t.rf (ch.laneBase l) F.entLcLen) →
    ∃ u : State, exec (.segmentEnd ch) s = .next u ∧ u.bit ch.base F.entChStatusOpen = false ∧ (u.chan ch).feedPos = nextFeed t ch ∧
      u.posts = s.posts ++ [freePost t ch] ++ resultPost t ch ∧
      ∀ l, t.lanesOf ch = [l] → u.le (t.chAddr ch ((t.chan ch).desc + 8 * l) + 4) 4 =
        (trimZeros (t.bytes (t.laneByte ch l 0) (t.lane ch l).pos ++ out l)).length)

/-- A code that waits is written to the next place of the result ring once RES_FREE has been waited on, or now; with POST set the results since the
previous post are posted. -/
def Sys2Proof.Claims.ResultsAreWritten : Prop :=
  ∀ (s : State) (ch : ChannelId) (b : Byte), s.dieOn ch.die = true → InService s → s.bit ch.unitBase F.entCtrlEnable = true →
    s.bit ch.base F.entChCtrlEnable = true → (s.chan ch).result = some b →
    let x := s.chan ch
    let free := s.rf ch.base F.entChSemResFree
    let off := s.rf ch.base F.entChResBase + x.resPos
    (x.freed = true ∨ 1 ≤ s.sem ch.die free) → s.chInside ch off 1 = true →
    ∃ t : State, exec (.entResultWrite ch) s = .next t ∧ (t.chan ch).result = none ∧ (t.chan ch).freed = false ∧
      t.sem ch.die free = (if x.freed then s.sem ch.die free else s.sem ch.die free - 1) ∧
      (t.chan ch).resPos = (x.resPos + 1) % max 1 (s.rf ch.base F.entChResSize) ∧
      (t.chan ch).unposted = (if x.postAfter then 0 else x.unposted + 1) ∧
      t.posts = s.posts ++ [freePost s ch] ++ (if x.postAfter then
        [{ src := srcChannel ch, die := ch.die.val, sem := s.rf ch.base F.entChSemResReady, count := x.unposted + 1 }] else []) ∧
      ∀ a, t.byte a = if a = s.chAddr ch off then b else s.byte a

/-- Segments open and close, and decoded codes go to the result ring.
What the model chooses here: notes/assumptions/24.md, notes/assumptions/59.md. -/
def Obligations.SegmentsAndResults : Prop :=
  SegmentsOpenAndClose ∧ ResultsAreWritten

/-- What an error of a channel that ends no session may change: registers, and the events that wait for the die's scheduler core (R103, R430). -/
def Sys2Proof.Claims.OnlyRegsEvents (s t : State) : Prop := t = { s with regs := t.regs, dies := t.dies }

/-- ENABLE starts a channel whose rings and lanes are in order, at position 0 of its rings, and a segment that stands open goes on; ABORT discards an open segment, of an enabled channel or
of a disabled one, and returns the lanes to their first state. Without an open segment ABORT, and with ENABLE set ENABLE, changes nothing. -/
def Sys2Proof.Claims.ChannelEnableAndAbort : Prop :=
  (∀ (s : State) (ch : ChannelId), s.dieOn ch.die = true → Recovered s → s.bit ch.base F.entChCtrlEnable = false → s.goodChannel ch = true →
    ∃ t : State, exec (.entChEnable ch) s = .next t ∧ t.bit ch.base F.entChCtrlEnable = true ∧
      t.chan ch = (let x := s.chan ch
        if s.bit ch.base F.entChStatusOpen then
          { taken := x.taken, result := x.result, postAfter := x.postAfter, desc := x.desc, clamped := x.clamped, side := x.side } else {}) ∧
      RegsBut [ch.base + F.entChCtrlEnable.off] s t ∧ SameBytes s t ∧ t.sessions = s.sessions) ∧
  (∀ (s : State) (ch : ChannelId), s.dieOn ch.die = true → s.bit ch.base F.entChCtrlEnable = false → s.goodChannel ch = false →
    ∃ u : State, exec (.entChEnable ch) s = .next (u.endSession (s.chSession ch) St.entBadFeed).settle ∧
      u.bit ch.unitBase F.entErrBadFeed = true ∧ u.rf ch.unitBase F.entErrChannel = ch.chan.val ∧ OnlyRegsEvents s u) ∧
  (∀ (s : State) (ch : ChannelId), s.dieOn ch.die = true → Recovered s → s.bit ch.base F.entChCtrlEnable = true →
    exec (.entChEnable ch) s = .next s) ∧
  (∀ (s : State) (ch : ChannelId), s.dieOn ch.die = true → Recovered s →
    s.bit ch.base F.entChStatusOpen = true → (s.chan ch).fed = false → s.sem ch.die (s.rf ch.base F.entChSemFeedReady) = 0 →
    ∃ t : State, exec (.entChAbort ch) s = .next t ∧ t.bit ch.base F.entChStatusOpen = false ∧ (t.chan ch).result = none ∧ SameBytes s t ∧
      t.posts = s.posts ++ (if (s.chan ch).result.isSome then [freePost s ch] else []) ∧
      ∀ l, l < 8 → t.rf (ch.laneBase l) F.entLcLow = 0 ∧ t.rf (ch.laneBase l) F.entLcRange = 0xFFFF_FFFF ∧
        t.rf (ch.laneBase l) F.entLcPos = 0 ∧ t.rf (ch.laneBase l) F.entLcSyms = 0) ∧
  (∀ (s : State) (ch : ChannelId), s.dieOn ch.die = true → Recovered s → s.bit ch.base F.entChStatusOpen = false →
    exec (.entChAbort ch) s = .next s)

/-- Lane contexts are written while their channel is disabled, and a write of an enabled one is refused; side-table entries 1 to 62 are written
while no channel of the unit is enabled, entry 0 reads 0 and entry 63 reads 65,536, and no other entry changes; while a channel of the unit is
enabled the write is refused. -/
def Sys2Proof.Claims.LaneAndTableWrites : Prop :=
  (∀ (s : State) (ch : ChannelId) (l : Fin 8) (r : LaneReg) (v : W32), s.dieOn ch.die = true → Recovered s →
    s.bit ch.base F.entChCtrlEnable = false →
    ∃ t : State, exec (.laneContextWrite ch l r v) s = .next t ∧ OnlyRegs s t ∧
      match r with
      | .low => t.rf (ch.laneBase l) F.entLcLow = v.toNat ∧ RegsBut [ch.laneBase l + F.entLcLow.off] s t
      | .range => t.rf (ch.laneBase l) F.entLcRange = v.toNat ∧ RegsBut [ch.laneBase l + F.entLcRange.off] s t
      | .cache => t.rf (ch.laneBase l) F.entLcCacheCache = getF v 7 0 ∧ t.rf (ch.laneBase l) F.entLcCacheCarry = getF v 8 8 ∧
          t.rf (ch.laneBase l) F.entLcCacheStarted = getF v 9 9 ∧ RegsBut [ch.laneBase l + F.entLcCacheCache.off] s t
      | .pend => t.rf (ch.laneBase l) F.entLcPend = getF v 23 0 ∧ RegsBut [ch.laneBase l + F.entLcPend.off] s t
      | .pos => t.rf (ch.laneBase l) F.entLcPos = getF v 23 0 ∧ RegsBut [ch.laneBase l + F.entLcPos.off] s t
      | .offset => t.rf (ch.laneBase l) F.entLcOffset = getF v 23 0 ∧ RegsBut [ch.laneBase l + F.entLcOffset.off] s t
      | .len => t.rf (ch.laneBase l) F.entLcLen = getF v 23 0 ∧ RegsBut [ch.laneBase l + F.entLcLen.off] s t
      | .syms => t.rf (ch.laneBase l) F.entLcSyms = v.toNat ∧ RegsBut [ch.laneBase l + F.entLcSyms.off] s t) ∧
  (∀ (s : State) (ch : ChannelId) (l : Fin 8) (r : LaneReg) (v : W32), s.dieOn ch.die = true → Recovered s →
    s.bit ch.base F.entChCtrlEnable = true →
    ∃ t : State, exec (.laneContextWrite ch l r v) s = .next t ∧ OnlyRegsEvents s t ∧ t.bit ch.unitBase F.entErrCtxWriteWhileEnabled = true ∧
      RegsBut [ch.unitBase + F.entErrCtxWriteWhileEnabled.off, procBase ch.die scheduler + F.fwcEventLost.off] s t) ∧
  (∀ (s : State) (ch : ChannelId) (table : Fin 128) (k : Fin 64) (v : BitVec 16), s.dieOn ch.die = true → Recovered s →
    (∀ x : Fin 4, s.bit ({ ch with chan := x } : ChannelId).base F.entChCtrlEnable = false) →
    ∃ t : State, exec (.sideTableWrite ch.die ch.unit table k v) s = .next t ∧ OnlyRegs s t ∧
      t.sideCdf ch table 0 = 0 ∧ t.sideCdf ch table 63 = 65536 ∧
      (0 < k.val → k.val < 63 → t.sideCdf ch table k = v.toNat) ∧
      ∀ (table2 : Fin 128) (k2 : Fin 64), table2 ≠ table ∨ k2 ≠ k → t.sideCdf ch table2 k2 = s.sideCdf ch table2 k2) ∧
  (∀ (s : State) (ch : ChannelId) (table : Fin 128) (k : Fin 64) (v : BitVec 16), s.dieOn ch.die = true → Recovered s →
    s.bit ch.base F.entChCtrlEnable = true →
    ∃ t : State, exec (.sideTableWrite ch.die ch.unit table k v) s = .next t ∧ OnlyRegsEvents s t ∧
      t.bit ch.unitBase F.entErrTableWriteWhileActive = true ∧
      RegsBut [ch.unitBase + F.entErrTableWriteWhileActive.off, procBase ch.die scheduler + F.fwcEventLost.off] s t)

/-- The registers of an entropy unit: enable, abort, lane contexts and side tables.
What the model chooses here: notes/assumptions/39.md, notes/assumptions/59.md, notes/assumptions/69.md. -/
def Obligations.EntropyRegisters : Prop :=
  ChannelEnableAndAbort ∧ LaneAndTableWrites

/-! ### The stream -/

/-- The decoder of session n has a unit of a type at the front of its bytes, with the LENGTH of its own fields: the payload and the whole unit. -/
def Sys2Proof.Claims.Receives (s : State) (n type : Nat) (payload raw : List Byte) : Prop :=
  s.on = true ∧ (s.ses n).kind = .decode ∧ (s.runningJob n).isSome = true ∧ (s.ses n).dec.closing = none ∧
  frontOf (s.ses n).dec.inbuf = .unit type 1 payload raw ∧
  payload.length = lengthOf type payload (match (s.ses n).dec.stream with | some p => p.audit | none => false)

/-- The PIC of a unit's payload (R113 to R116). -/
def Sys2Proof.Claims.unitPic (payload : List Byte) : W32 := BitVec.ofNat 32 (beAt payload 0 4)

/-- The open picture counts in LOST, unless it has been counted (R75, R347). -/
def Sys2Proof.Claims.losesOpen (d : Decoder) (k : Counters) : Counters :=
  match d.current with
  | some p => if p.counted then k else addLost 1 k
  | none => k

/-- A stream unit that passes the checks of R112 is a refresh point: the decoder holds no reference and writes pictures again; before any picture it
expects PIC_BASE next, afterwards the PIC it expected (notes/assumptions/56.md). One that fails them leaves the decoder blocked. A picture that it
finds open is closed with slices missing. What follows is the check whether the job's bytes are used up. -/
def Sys2Proof.Claims.StreamUnitIsRefreshPoint : Prop :=
  ∀ (s : State) (n : SessionNo) (payload raw : List Byte), Receives s n Wu.stream payload raw →
    let d := (s.ses n).dec
    let good := checkStream (s.ses n).image (parseStream payload) = none
    ∃ u : State, exec (.streamUnit n) s = .next (u.decodeIdle n).settle ∧
      (u.ses n).dec.stream = some (parseStream payload) ∧ (u.ses n).dec.current = none ∧ (u.ses n).dec.fresh = true ∧
      (u.ses n).dec.refs = [] ∧ (u.ses n).dec.inbuf = d.inbuf.drop raw.length ∧ (u.ses n).hist = [] ∧
      (u.ses n).dec.expect = (if d.previous.isSome then d.expect else some (BitVec.ofNat 32 (parseStream payload).picBase)) ∧
      (u.ses n).counters = losesOpen d (s.ses n).counters ∧
      (good → (u.ses n).dec.blocked = false ∧ u.regs = s.regs ∧ SameBytes s u) ∧ (¬ good → (u.ses n).dec.blocked = true)

/-- A picture unit with the PIC that is expected, and as many slices as the stream has, opens that picture; directly after a stream unit it must be a
no-reference picture, and such a picture reads no reference. A PIC that was seen before counts as a duplicate; a gap counts its pictures in LOST; a
gap, another number of slices, or a picture left open blocks output, and a picture that opens while output is blocked counts in LOST. Before any
stream unit it counts in LOST. -/
def Sys2Proof.Claims.PictureUnitsOpenPictures : Prop :=
  ∀ (s : State) (n : SessionNo) (payload raw : List Byte), Receives s n Wu.picture payload raw →
    let d := (s.ses n).dec
    let pic := unitPic payload
    let slices := beAt payload 6 2
    let noref := bitN (beAt payload 4 1) 0
    let gap := skipped d.expect pic
    ∃ u : State, exec (.pictureUnit n) s = .next (u.decodeIdle n).settle ∧ SameBytes s u ∧ u.regs = s.regs ∧
      (d.stream = none → (u.ses n).counters = addLost 1 (s.ses n).counters ∧ (u.ses n).dec.blocked = true) ∧
      ∀ params, d.stream = some params →
        if d.current.map (·.pic) = some pic ∨ d.previous = some pic then
          (u.ses n).counters = addDuplicate (s.ses n).counters ∧ (u.ses n).dec.current = d.current
        else
          let open_ := d.current.isSome
          let bad := !open_ && gap == 0 && slices != sliceCount params
          let blocks := d.blocked || open_ || gap != 0 || bad || (d.fresh && !noref)
          (u.ses n).dec.current = some { pic := pic, slices := slices, noref := noref, unit := raw, side := lanesOfField payload 8
                                         reads := if noref then [] else d.refs, q := params.q, bad := bad, counted := blocks } ∧
          (u.ses n).dec.previous = some pic ∧ (u.ses n).dec.expect = some (pic + 1) ∧ (u.ses n).dec.blocked = blocks ∧
          (u.ses n).counters =
            if blocks then addLost 1 (addLost gap (losesOpen d (s.ses n).counters)) else (s.ses n).counters

/-- A slice unit of the open picture is held when no undamaged one of its index is held, or one of an earlier edition; another one counts as a
duplicate, one of another picture, or with no picture open, as late, and one of a slice that the picture has not is skipped and counted. -/
def Sys2Proof.Claims.SliceUnitsAreHeld : Prop :=
  ∀ (s : State) (n : SessionNo) (payload raw : List Byte), Receives s n Wu.slice payload raw →
    let d := (s.ses n).dec
    let i := beAt payload 4 2
    let e := beAt payload 6 1 % 8
    d.stream.isSome = true →
    ((∀ p, d.current = some p → p.pic ≠ unitPic payload) → ∃ u : State, exec (.sliceUnit n) s = .next (u.decodeIdle n).settle ∧
      (u.ses n).counters = addLate (s.ses n).counters ∧ (u.ses n).dec.current = d.current) ∧
    ∀ p, d.current = some p → p.pic = unitPic payload →
      (p.bad = true → ∃ u : State, exec (.sliceUnit n) s = .next (u.decodeIdle n).settle ∧ (u.ses n).counters = (s.ses n).counters ∧
        (u.ses n).dec.current = some p) ∧
      (p.bad = false → p.slices ≤ i → ∃ u : State, exec (.sliceUnit n) s = .next (u.decodeIdle n).settle ∧
        (u.ses n).counters = addUnknown (s.ses n).counters ∧ (u.ses n).dec.current = some p) ∧
      (p.bad = false → i < p.slices → (goodSlice p i = none ∨ ∃ old, goodSlice p i = some old ∧ old.edition < e) →
        ∃ u : State, exec (.sliceUnit n) s = .next ((u.sliceDone n i).decodeIdle n).settle ∧ SameBytes s u ∧
          ∃ q, (u.ses n).dec.current = some q ∧
            goodSlice q i = some { index := i, edition := e, lanes := lanesOfField payload 12, unit := raw } ∧
            ∀ k, k ≠ i → goodSlice q k = goodSlice p k) ∧
      (p.bad = false → i < p.slices → (∃ old, goodSlice p i = some old ∧ e ≤ old.edition) →
        ∃ u : State, exec (.sliceUnit n) s = .next (u.decodeIdle n).settle ∧ (u.ses n).counters = addDuplicate (s.ses n).counters ∧
          (u.ses n).dec.current = some p)

/-- The close unit of a picture whose slices are all held undamaged at their final editions lets its FINAL follow once the lists of the job have
ended; with a slice missing or damaged, or while output is blocked, the picture counts in LOST and no picture is written until the next refresh
point. One of another picture is late. -/
def Sys2Proof.Claims.CloseUnitsEndPictures : Prop :=
  ∀ (s : State) (n : SessionNo) (payload raw : List Byte), Receives s n Wu.close payload raw →
    let d := (s.ses n).dec
    d.stream.isSome = true →
    ((∀ p, d.current = some p → p.pic ≠ unitPic payload) → ∃ u : State, exec (.closeUnit n) s = .next (u.decodeIdle n).settle ∧
      (u.ses n).counters = addLate (s.ses n).counters ∧ (u.ses n).dec.current = d.current) ∧
    ∀ p, d.current = some p → p.bad = false → p.pic = unitPic payload →
      if d.blocked = false ∧ isDamaged p = false ∧ closesWhole p payload = true then
        ∃ u : State, exec (.closeUnit n) s = .next ((u.finishJob n).decodeIdle n).settle ∧ (u.ses n).dec.current = none ∧
          (u.ses n).dec.closing = some (p, decodedBytes p raw) ∧ (u.ses n).counters = (s.ses n).counters ∧ SameBytes s u
      else
        ∃ u : State, exec (.closeUnit n) s = .next (u.decodeIdle n).settle ∧ (u.ses n).dec.current = none ∧ (u.ses n).dec.blocked = true ∧
          (u.ses n).dec.closing = none ∧ (u.ses n).counters = losesOpen d (s.ses n).counters

/-- Units that a decoder receives.
What the model chooses here: notes/assumptions/16.md, notes/assumptions/56.md. -/
def Obligations.StreamUnits : Prop :=
  StreamUnitIsRefreshPoint ∧ PictureUnitsOpenPictures ∧ SliceUnitsAreHeld ∧ CloseUnitsEndPictures

/-- A dropped-picture unit of the open picture closes it without counting it as lost; one of the expected picture takes its place in the order, and
closes a picture that stands open with slices missing; one of another picture is late. -/
def Sys2Proof.Claims.DroppedUnitsCount : Prop :=
  ∀ (s : State) (n : SessionNo) (payload raw : List Byte), Receives s n Wu.dropped payload raw →
    let d := (s.ses n).dec
    let pic := unitPic payload
    d.stream.isSome = true →
    ∃ u : State, exec (.droppedPictureUnit n) s = .next (u.decodeIdle n).settle ∧ SameBytes s u ∧
      ((∃ p, d.current = some p ∧ p.pic = pic ∧ p.bad = false) →
        (u.ses n).dec.current = none ∧ (u.ses n).counters = (s.ses n).counters ∧ (u.ses n).dec.blocked = d.blocked) ∧
      (d.current.map (·.pic) ≠ some pic → d.expect = some pic → (u.ses n).dec.previous = some pic ∧ (u.ses n).dec.expect = some (pic + 1) ∧
        (u.ses n).dec.current = none ∧ (u.ses n).counters = losesOpen d (s.ses n).counters) ∧
      (d.current.map (·.pic) ≠ some pic → d.expect ≠ some pic → (u.ses n).counters = addLate (s.ses n).counters ∧
        (u.ses n).dec.expect = d.expect ∧ (u.ses n).dec.current = d.current)

/-- Bytes that begin no unit count once in CRC_ERR for a whole scan, which goes on from the next byte; a unit of a reserved TYPE or another VERSION
is skipped by its LENGTH and counted. -/
def Sys2Proof.Claims.BadAndUnknownUnitsCount : Prop :=
  ∀ (s : State) (n : SessionNo), s.on = true → (s.ses n).kind = .decode → (s.runningJob n).isSome = true → (s.ses n).dec.closing = none →
    let d := (s.ses n).dec
    (frontOf d.inbuf = .bad → ∃ u : State, exec (.crcError n) s = .next (u.decodeIdle n).settle ∧ SameBytes s u ∧
      (u.ses n).dec.inbuf = scanForward (d.inbuf.drop 1) ∧ (u.ses n).dec.scanning = true ∧
      (u.ses n).counters = if d.scanning then (s.ses n).counters else addCrc (s.ses n).counters) ∧
    (∀ t v payload raw, frontOf d.inbuf = .unit t v payload raw → ¬ (v = 1 ∧ 1 ≤ t ∧ t ≤ 5) →
      ∃ u : State, exec (.unknownUnit n) s = .next (u.decodeIdle n).settle ∧ SameBytes s u ∧
        (u.ses n).dec.inbuf = d.inbuf.drop raw.length ∧ (u.ses n).counters = addUnknown (s.ses n).counters)

/-- Dropped-picture units, bytes that are no unit, and units of no known kind.
What the model chooses here: notes/assumptions/16.md. -/
def Obligations.OtherUnits : Prop :=
  DroppedUnitsCount ∧ BadAndUnknownUnitsCount

/-- The session codes a picture, nothing of whose work is to start again, and its lane descriptor tables are inside its window and clean. -/
def Sys2Proof.Claims.Encodes (s : State) (n : SessionNo) (side lanes : LaneTable) (p : EncPicture) : Prop :=
  s.on = true ∧ (s.ses n).kind = .encode ∧ (s.ses n).enc.current = some p ∧ (s.runningJob n).isSome = true ∧ p.restart = false ∧
  s.tableInside n lanes = true ∧ s.tablePoison n lanes = false ∧
  (p.unitOut = false → s.tableInside n side = true ∧ s.tablePoison n side = false)

/-- The next slice unit of the picture that an encoder codes leaves with edition 0, its lanes in it and its cap by R129 and R130; the first follows
the picture unit, with the side lanes. With EMISSION 1 it waits until its checks are done. No other session changes. -/
def Sys2Proof.Claims.SlicesLeaveInOrder : Prop :=
  ∀ (s : State) (n : SessionNo) (side lanes : LaneTable) (ls : List LatentSym) (p : EncPicture), Encodes s n side lanes p → p.recode = none →
    let i := p.slices.length
    let v := if p.unitOut then s else s.emitPicture n (s.laneList n side)
    i < sliceCount (s.ses n).enc.params →
    ((s.ses n).enc.params.emission = true → s.checksDone n = true ∧ s.tileOpen n = false) →
    ∀ q, (v.ses n).enc.current = some q →
      let k := capOf (v.ses n).enc q i ls
      let sats := if k.1 then cappedSats (v.ses n).enc.params i k.2.1 ls else 0
      let out := (v.saturate n sats).sliceLanes n i lanes ls k
      let payload := slicePayload q.pic i 0 k.1 k.2.1 k.2.2 out
      let maxima := sliceMaxima (v.ses n).enc.params i (firstCap k) ls
      ∃ u w : State, exec (.sliceEmit n side lanes ls) s = .next w.settle ∧
        w = (if i = 0 then (u.emitUnit n Wu.slice payload).noteFirstSlice n else u.emitUnit n Wu.slice payload) ∧ SameBytes v u ∧
        (∃ r, (u.ses n).enc.current = some r ∧ r.pic = q.pic ∧ r.unitOut = true ∧ r.slices.getLast? = some
            { index := i, edition := 0, lanes := out, unit := wsfUnit Wu.slice n payload, cap := k.2.2, maxima := maxima }) ∧
        (u.ses n).enc.reeditions = hold32 (v.ses n).enc.reeditions 0 ∧ ∀ m, m ≠ n.val → u.ses m = v.ses m

/-- A slice coded again after a vote leaves with its next edition when the bytes of one of its lanes differ, and not otherwise; the next slice that has
left is coded again after it. A slice that would need edition 8 drops the picture. -/
def Sys2Proof.Claims.ChangedSlicesLeaveAgain : Prop :=
  ∀ (s : State) (n : SessionNo) (side lanes : LaneTable) (ls : List LatentSym) (p : EncPicture) (i : Nat) (old : Slice) (j : Job),
    Encodes s n side lanes p → p.recode = some i → p.slices.find? (fun x => x.index == i) = some old → s.runningJob n = some j →
    let next := if i + 1 < p.slices.length then some (i + 1) else none
    let k := capOf (s.ses n).enc p i ls
    let out := s.sliceLanes n i lanes ls k
    let payload := slicePayload p.pic i (old.edition + 1) k.1 k.2.1 k.2.2 out
    (old.lanes = out → ∃ t : State, exec (.sliceEmit n side lanes ls) s = .next t ∧ SameBytes s t ∧
      (t.ses n).enc.current = some { p with recode := next }) ∧
    (old.lanes ≠ out → old.edition < 7 → ∃ u : State, exec (.sliceEmit n side lanes ls) s = .next (u.emitUnit n Wu.slice payload).settle ∧
      SameBytes s u ∧ (u.ses n).enc.reeditions = hold32 (s.ses n).enc.reeditions 1 ∧
      ∃ r, (u.ses n).enc.current = some r ∧ r.recode = next ∧ r.slices.getLast? = some
        { index := i, edition := old.edition + 1, lanes := out, unit := wsfUnit Wu.slice n payload, cap := k.2.2
          maxima := sliceMaxima (s.ses n).enc.params i (firstCap k) ls }) ∧
    (old.lanes ≠ out → 7 ≤ old.edition → ∃ u : State,
      exec (.sliceEmit n side lanes ls) s = .next ((u.dropRunning n j 2).afterJob n).settle ∧ SameBytes s u)

/-- After every slice, check and re-emission the close unit ends the picture: it joins the references as its synthesis gives it, the next picture has
the next PIC, its sizes count in the rate period, and its job is posted and over. -/
def Sys2Proof.Claims.CloseUnitEndsPicture : Prop :=
  ∀ (s : State) (n : SessionNo) (p : EncPicture) (j : Job), s.on = true →
    let ses := s.ses n
    let count := sliceCount ses.enc.params
    let slice := fun i => p.slices.find? (fun x => x.index == i)
    ses.kind = .encode → ses.enc.current = some p → s.runningJob n = some j → s.jobWaits n j = false → p.restart = false →
    p.slices.length = count → p.recode = none →
    s.listsEnded n = true → s.checksDone n = true → s.nanDue n = false → j.tainted = false →
    let dig := if ses.enc.params.audit then some (resultDigest ses.image j.input (s.sessionStep n).toNat) else none
    let editions := (List.range count).map (fun i => match slice i with | some x => x.edition | none => 0)
    let lanes := (List.range count).map (fun i => match slice i with | some x => x.lanes | none => [])
    let payload := closePayload p.pic count (s.sessionStep n) (ses.sat.toNat - ses.enc.satAtClose.toNat) (p.slices.map (·.cap)).sum editions dig
    ((s.emitUnit n Wu.close payload).ses n).kind = .encode →
    ∃ u : State, exec (.closeUnitEmit n) s = .next (((u.postJob n j { tag := j.tag, session := n, kind := Ck.done, sqHead := j.sqHead, seq := j.seq }
        p.pic (s.sessionStep n).toNat false j.input).dropJob n).afterJob n).settle ∧
      (u.ses n).enc.current = none ∧ (u.ses n).enc.nextPic = p.pic + 1 ∧ (u.ses n).enc.noneClosed = false ∧
      (u.ses n).enc.refs = ({ pic := p.pic, planes := ses.synthPicture p.q p.sideLanes lanes p.reads } :: ses.enc.refs).take ses.enc.params.refs ∧
      (u.ses n).enc.periodSpent = ses.enc.periodSpent + 8 * (sizeBefore p count + 16 + payload.length) ∧
      (u.ses n).counters.pictures = hold32 ses.counters.pictures 1 ∧ (u.ses n).counters.lastSeq = p.pic

/-- Units that an encoder emits.
What the model chooses here: notes/assumptions/17.md, notes/assumptions/70.md, notes/assumptions/73.md. -/
def Obligations.EncoderUnits : Prop :=
  SlicesLeaveInOrder ∧ ChangedSlicesLeaveAgain ∧ CloseUnitEndsPicture

/-! ### Host commands -/

/-- The command c stands in front of what queue q has fetched, with opcode op, and may start: the queue is active and a FENCE finds every earlier
command completed. -/
def Sys2Proof.Claims.NextCommand (s : State) (q : QueueNo) (op : Nat) (c : HostCmd) (rest : List HostCmd) : Prop :=
  s.dieOn (s.qDie q) = true ∧ Recovered s ∧ s.qState q = Qs.active ∧ (s.que q).fetched = c :: rest ∧ c.opcode.toNat = op ∧
  (c.flags.getLsbD 0 = true → (s.que q).openCmds = 0)

/-- The same for a command of an open session, on a queue that shares its homeroom. -/
def Sys2Proof.Claims.SessionCommand (s : State) (q : QueueNo) (op : Nat) (c : HostCmd) (rest : List HostCmd) (n : Nat) : Prop :=
  NextCommand s q op c rest ∧ n = c.session.toNat ∧ (s.ses n).kind ≠ .none ∧ s.sharesHomeroom q n = true

/-- The queue after its first command has been taken. -/
def Sys2Proof.Claims.popped (s : State) (q : QueueNo) (rest : List HostCmd) : HostQueue := { s.que q with fetched := rest }

/-- A completion of an active queue that has room, a route over a link with nothing in front and nothing to wait for is written at the next place of
its completion ring, with the PHASE of that pass, as a host write that is not yet acknowledged.
What the model chooses here: notes/assumptions/18.md, notes/assumptions/66.md. -/
def Obligations.CompletionsGoToRing : Prop :=
  ∀ (s : State) (q l : Nat) (c : Completion), s.qState q = Qs.active → (s.que q).held = [] → c.record = [] → c.refused = false →
    s.qDie q < 25 → (s.que q).cq % 4096 = 0 → (s.lnk l).waiting = [] → 1 ≤ (s.lnk l).credits.getD 2 0 → (s.lnk l).unacked < 256 →
    let x := s.que q
    x.written - x.consumed < 2 ^ x.cqLog2 → s.route (s.qDie q) = some l → s.unacked c.session = false →
    let a := hostAddr (x.cq + 32 * (x.written % 2 ^ x.cqLog2))
    let b := completionBytes c (phaseOf x.written (2 ^ x.cqLog2))
    b.length = 32 ∧ ((s.complete q c).que q).written = x.written + 1 ∧ ((s.complete q c).que q).held = [] ∧
    (s.complete q c).hostw = s.hostw ++ [{ die := s.qDie q, link := l, ses := noSessionMark,
                                           addr := x.cq + 32 * (x.written % 2 ^ x.cqLog2), bytes := b }] ∧
    ∀ e, (s.complete q c).byte e = if a ≤ e ∧ e < a + 32 then b.getD (e - a) 0 else s.byte e

/-- CREATE_QUEUE on queue 0 makes an unused queue active with the rings, homeroom and priority of its arguments; stalled when the scheduler core of
its homeroom restarts (R352). -/
def Sys2Proof.Claims.CreateQueueActivates : Prop :=
  ∀ (s : State) (c : HostCmd) (rest : List HostCmd), NextCommand s 0 0x01 c rest →
    let a := c.arg 2
    let q := fieldN a 9 0
    q ≠ 0 → s.queueUsed q = false → c.arg 0 % 4096 = 0 → c.arg 1 % 4096 = 0 → 4 ≤ fieldN a 20 16 → fieldN a 20 16 ≤ 16 →
    4 ≤ fieldN a 28 24 → fieldN a 28 24 ≤ 16 → fieldN a 36 32 < 25 →
    ∃ u : State, exec (.createQueue 0) s = .next (u.reply 0 c St.ok).settle ∧ SameBytes s u ∧
      u.qState q = (if s.schedulerRestarts (fieldN a 36 32) then Qs.stalled else Qs.active) ∧
      u.que q = { sq := c.arg 0, cq := c.arg 1, sqLog2 := fieldN a 20 16, cqLog2 := fieldN a 28 24, homeroom := fieldN a 36 32,
                  priority := fieldN a 42 40 } ∧
      u.rf (u.qBase q) F.fwcQOwnerHomeroom = fieldN a 36 32 ∧ u.rf (u.qBase q) F.fwcQOwnerPriority = fieldN a 42 40 ∧
      u.que 0 = popped s 0 rest ∧ u.sessions = s.sessions

/-- DELETE_QUEUE makes a queue that is in use, and not the last of its homeroom's sessions, unused. -/
def Sys2Proof.Claims.DeleteQueueFrees : Prop :=
  ∀ (s : State) (c : HostCmd) (rest : List HostCmd), NextCommand s 0 0x02 c rest →
    let q := fieldN (c.arg 2) 9 0
    q ≠ 0 → s.queueUsed q = true → s.lastQueue q = false →
    ∃ u : State, exec (.deleteQueue 0) s = .next (u.reply 0 c St.ok).settle ∧ SameBytes s u ∧ u.rf (s.qBase q) F.fwcQStatusState = 0 ∧
      u.que q = {} ∧ u.que 0 = popped s 0 rest ∧ u.sessions = s.sessions

/-- TEST moves a partition in SERVICE without sessions into TEST, and back, at once or when its exams in progress are over; a request for no such
partition, and a queue other than 0, are refused. -/
def Sys2Proof.Claims.TestEntersAndLeaves : Prop :=
  (∀ (s : State) (c : HostCmd) (rest : List HostCmd), NextCommand s 0 0x05 c rest → bitN (c.arg 1) 0 = true →
    let m := BitVec.ofNat 25 (c.arg 0)
    if s.parts.any (fun p => p.dies == m && p.state == .service) = true
        ∧ s.sessions.any (fun e => e.2.kind != .none && (e.2.dies &&& m) != 0) = false then
      ∃ u : State, exec (.test 0) s = .next (u.reply 0 c St.ok).settle ∧ u.regs = s.regs ∧ SameBytes s u ∧
        u.parts = s.parts.map (fun p =>
          if p.dies = m then { p with state := .test, exams := if bitN (c.arg 1) 1 then s.examList m else [], leaving := none } else p)
    else exec (.test 0) s = .next ((s.setQue 0 (popped s 0 rest)).reply 0 c St.badPartition).settle) ∧
  (∀ (s : State) (c : HostCmd) (rest : List HostCmd), NextCommand s 0 0x05 c rest → bitN (c.arg 1) 0 = false →
    let m := BitVec.ofNat 25 (c.arg 0)
    (s.parts.any (fun p => p.dies == m && p.state == .test) = false →
      exec (.test 0) s = .next ((s.setQue 0 (popped s 0 rest)).reply 0 c St.badPartition).settle) ∧
    ∀ p, s.parts.find? (fun p => p.dies == m && p.state == .test) = some p →
      (s.inRecess m = true → ∃ t : State, exec (.test 0) s = .next t ∧ t.regs = s.regs ∧ SameBytes s t ∧
        (t.que 0).openCmds = (s.que 0).openCmds + 1 ∧
        (s.pkg.drain = none → t.parts = s.parts.map (fun x =>
          if x.dies = m then { x with exams := [], leaving := some (p.leaving.getD [] ++ [(c.tag, c.head)]) } else x))) ∧
      (s.inRecess m = false → p.leaving.getD [] = [] → s.anySession = false →
        ∃ u : State, exec (.test 0) s = .next (((u.closeCmd 0).complete 0 { tag := c.tag, kind := Ck.done, sqHead := c.head })).settle ∧
          u.regs = s.regs ∧ SameBytes s u ∧ (u.que 0).openCmds = (s.que 0).openCmds + 1 ∧
          u.parts = s.parts.map (fun x => if x.dies = m then { x with state := .service, exams := [], leaving := none } else x))) ∧
  (∀ (s : State) (q : QueueNo) (c : HostCmd) (rest : List HostCmd), q ≠ 0 → NextCommand s q 0x05 c rest →
    ∃ u : State, exec (.test q) s = .next (u.reply q c St.badQueue).settle ∧ u = s.setQue q (popped s q rest))

/-- The commands that only queue 0 takes.
What the model chooses here: notes/assumptions/18.md. -/
def Obligations.QueueCommands : Prop :=
  CreateQueueActivates ∧ DeleteQueueFrees ∧ TestEntersAndLeaves

/-- OPEN_SESSION that finds nothing to refuse opens a free session number with the parameters of its block and its image, and answers with its number
and SAVE_BYTES; what its checks refuse it answers with their status, a drained package with DEVICE_DRAINED. -/
def Sys2Proof.Claims.OpenSessionOpens : Prop :=
  (∀ (s t : State) (q : QueueNo) (c : HostCmd) (rest : List HostCmd) (detail n : Nat), NextCommand s q 0x03 c rest →
    (s.setQue q (popped s q rest)).openWith (s.qDie q) c.args = (t, St.ok, detail, n) →
    exec (.openSession q) s = .next (t.complete q { answerTo c Ck.done St.ok detail with session := n, order := (t.ses n).orderChanged }).settle ∧
      (s.ses n).kind = .none ∧ s.pkg.drained = false ∧
      (c.arg 4 = 0 → (t.ses n).kind ≠ .none ∧ detail = (t.ses n).saveBytes ∧ ∀ m, m ≠ n → t.ses m = s.ses m)) ∧
  (∀ (s t : State) (q : QueueNo) (c : HostCmd) (rest : List HostCmd) (st detail n : Nat), NextCommand s q 0x03 c rest → st ≠ St.ok →
    (s.setQue q (popped s q rest)).openWith (s.qDie q) c.args = (t, st, detail, n) →
    exec (.openSession q) s = .next (t.complete q { answerTo c Ck.error st detail with session := 0 }).settle) ∧
  (∀ (s : State) (q : QueueNo) (c : HostCmd) (rest : List HostCmd), NextCommand s q 0x03 c rest → s.pkg.drained = true → s.activating = false →
    exec (.openSession q) s = .next ((s.setQue q (popped s q rest)).complete q { answerTo c Ck.error St.deviceDrained with session := 0 }).settle)

/-- A command for a session that is not open is answered NO_SESSION, and does nothing else. -/
def Sys2Proof.Claims.UnknownSessionIsRefused : Prop :=
  ∀ (s : State) (q : QueueNo) (i : Instr) (op : Nat) (c : HostCmd) (rest : List HostCmd),
    (i, op) ∈ [(Instr.closeSession q, 0x04), (.submit q, 0x10), (.withdraw q, 0x11), (.refresh q, 0x12), (.pause q, 0x13), (.resume q, 0x14),
      (.query q, 0x15), (.bell q, 0x16)] →
    NextCommand s q op c rest → (s.ses c.session.toNat).kind = .none →
    exec i s = .next ((s.setQue q (popped s q rest)).reply q c St.noSession).settle

/-- CLOSE_SESSION ends a session that runs no job, or any session with ABORT; one that runs a job is ending and keeps that job, while its queued
jobs are answered. A second one is refused, and so is one of a stream that STOP ends. -/
def Sys2Proof.Claims.CloseSessionEnds : Prop :=
  ∀ (s : State) (q : QueueNo) (c : HostCmd) (rest : List HostCmd) (n : Nat), SessionCommand s q 0x04 c rest n →
    ((s.ses n).closing.isSome = true ∨ (s.ses n).stopAtBell = some St.sessionEnded →
      exec (.closeSession q) s = .next ((s.setQue q (popped s q rest)).reply q c St.sessionEnded).settle) ∧
    ((s.ses n).closing = none → (s.ses n).stopAtBell ≠ some St.sessionEnded → ∃ u : State,
      exec (.closeSession q) s = .next (if c.flags.getLsbD 1 || (s.runningJob n).isNone then u.endSession n St.ok else u).settle ∧
      (u.ses n).closing = some (c.tag, q.val, c.head) ∧ (u.ses n).state = .ending ∧
      (u.ses n).jobs = (s.ses n).jobs.filter (fun j => j.phase != .queued) ∧
      ((s.ses n).jobs.all (fun j => j.phase != .queued) = true →
        (u.que q).openCmds = (s.que q).openCmds + 1 ∧ u.regs = s.regs ∧ SameBytes s u))

/-- A session opens and closes.
What the model chooses here: notes/assumptions/19.md. -/
def Obligations.SessionCommands : Prop :=
  OpenSessionOpens ∧ UnknownSessionIsRefused ∧ CloseSessionEnds

/-- SUBMIT puts a job behind those of its session, with the buffers that its lists name; it is answered when the job is complete. One whose picture
layout R46 refuses is answered at once and is no job; so is one of a session that is ending, and in a drained package one of a session that is not
live. -/
def Sys2Proof.Claims.SubmitAddsJob : Prop :=
  ∀ (s : State) (q : QueueNo) (c : HostCmd) (rest : List HostCmd) (n : Nat), SessionCommand s q 0x10 c rest n →
    let v := s.setQue q (popped s q rest)
    let ins := v.bufferList n (c.arg 0)
    let outs := ins.2.bufferList n (c.arg 1)
    let w := outs.2
    let j : Job := { tag := c.tag, queue := q, sqHead := c.head, seq := BitVec.ofNat 32 (c.arg 3), ins := ins.1, outs := outs.1,
                     audit := c.arg 2, due := c.due, order := s.pkg.submitted }
    if (s.ses n).state = .ending then exec (.submit q) s = .next (v.reply q c St.sessionEnded).settle
    else if s.pkg.drained = true ∧ (s.ses n).live = false then exec (.submit q) s = .next (v.reply q c St.deviceDrained).settle
    else if badLayout (s.ses n) j then
      exec (.submit q) s = .next (w.complete q { answerTo c Ck.error St.badPictureLayout with seq := j.seq }).settle
    else w.pev = [] ∨ InService s → ∃ t : State, exec (.submit q) s = .next t ∧ t.regs = w.regs ∧ SameBytes w t ∧ t.hostw = w.hostw ∧
      (t.ses n).jobs = (s.ses n).jobs ++ [j] ∧
      (t.que q).openCmds = (s.que q).openCmds + 1 ∧ (t.que q).fetched = rest ∧ t.pkg.submitted = s.pkg.submitted + 1 ∧
      ∀ m, m ≠ n → t.ses m = s.ses m

/-- WITHDRAW drops the job that runs or comes next, and marks one that waits behind others, so that it is dropped in its turn; a queued job whose
layout R46 refuses is refused instead, and a SEQ of no job answers JOB_NOT_FOUND. REFRESH asks an encoder for a refresh point; BELL answers whether
a bell rang as it was fetched. -/
def Sys2Proof.Claims.WithdrawRefreshBell : Prop :=
  (∀ (s : State) (q : QueueNo) (c : HostCmd) (rest : List HostCmd) (n : Nat), SessionCommand s q 0x11 c rest n →
    let v := s.setQue q (popped s q rest)
    let found := (s.ses n).jobs.find? (fun j => j.seq.toNat == c.arg 3 % 2 ^ 32 && !j.withdrawn && !jobComplete (s.ses n) j)
    (found = none → exec (.withdraw q) s = .next (v.complete q (answerTo c Ck.done St.jobNotFound)).settle) ∧
    ∀ j, found = some j → ∃ u : State, exec (.withdraw q) s = .next (u.reply q c St.ok).settle ∧
      if j.phase = .queued ∧ badLayout (s.ses n) j then u = v.refuseLayout n j
      else if (s.ses n).jobs.head? = some j then u = (v.dropRunning n j 3).afterJob n
      else u.regs = s.regs ∧ SameBytes s u ∧
        (u.ses n).jobs = (s.ses n).jobs.map (fun x => if x = j then { x with withdrawn := true } else x)) ∧
  (∀ (s : State) (q : QueueNo) (c : HostCmd) (rest : List HostCmd) (n : Nat), SessionCommand s q 0x12 c rest n →
    ((s.ses n).kind = .encode → ∃ u : State, exec (.refresh q) s = .next (u.reply q c St.ok).settle ∧ (u.ses n).enc.refreshDue = true ∧
      u.regs = s.regs ∧ SameBytes s u) ∧
    ((s.ses n).kind ≠ .encode → exec (.refresh q) s = .next ((s.setQue q (popped s q rest)).reply q c St.badCommand).settle)) ∧
  (∀ (s : State) (q : QueueNo) (c : HostCmd) (rest : List HostCmd) (n : Nat), SessionCommand s q 0x16 c rest n →
    exec (.bell q) s = .next ((s.setQue q (popped s q rest)).reply q c (if c.rang then St.ok else St.badCommand)).settle)

/-- PAUSE of an open session with room for its record asks every engine that works for it to stop at a pause point, and waits for that; RESUME of a
paused session from a record that is in order sets the session going again. Each is refused in another state of its session, PAUSE with too little
room, RESUME from a record that is not in order.
What the model chooses here: notes/assumptions/6.md, notes/assumptions/42.md, notes/assumptions/78.md. -/
def Obligations.PauseAndResume : Prop :=
  (∀ (s : State) (q : QueueNo) (c : HostCmd) (rest : List HostCmd) (n : Nat), SessionCommand s q 0x13 c rest n →
    let v := s.setQue q (popped s q rest)
    if (s.ses n).state ≠ .open_ ∨ (s.ses n).pauseTo.isSome = true then exec (.pause q) s = .next (v.reply q c St.badCommand).settle
    else if c.arg 1 < (s.ses n).saveBytes then exec (.pause q) s = .next (v.reply q c St.saveTooSmall).settle
    else ∃ u : State, exec (.pause q) s = .next (u.tryPause n).settle ∧ (u.ses n).pauseTo = some (c.tag, q.val, c.head, c.arg 0) ∧
      (u.que q).openCmds = (s.que q).openCmds + 1 ∧ SameBytes s u ∧
      ∀ k, k ∈ s.clustersOfSession n → s.rf k.base F.exeSession = n → s.engineBusy k = true → u.bit k.base F.exeCtrlPauseReq = true) ∧
  (∀ (s : State) (q : QueueNo) (c : HostCmd) (rest : List HostCmd) (n : Nat), SessionCommand s q 0x14 c rest n →
    let v := s.setQue q (popped s q rest)
    let r := v.virtRead (s.ses n).homeroom n (c.arg 0) (s.ses n).saveBytes
    ((s.ses n).state ≠ .paused → exec (.resume q) s = .next (v.reply q c St.badCommand).settle) ∧
    ((s.ses n).state = .paused →
      (∀ st, r.2.2.readSave n r.1 = (st, none) → exec (.resume q) s = .next (r.2.2.reply q c st).settle) ∧
      ∀ x, r.2.2.readSave n r.1 = (St.ok, some x) →
        ∃ u : State, exec (.resume q) s = .next (u.complete q { answerTo c Ck.done St.ok with order := (u.ses n).orderChanged }).settle ∧
          (u.ses n).state = .open_ ∧ (u.ses n).orderChanged = r.2.2.orderChangedBy n x))

/-- QUERY writes the status block at the session's address when its capacity is enough, and nothing when it is not; an address that cannot be
written ends the session. -/
def Sys2Proof.Claims.QueryWritesStatus : Prop :=
  ∀ (s : State) (q : QueueNo) (c : HostCmd) (rest : List HostCmd) (n : Nat), SessionCommand s q 0x15 c rest n →
    let t := s.setQue q (popped s q rest)
    let w := t.virtWrite (s.ses n).homeroom n (c.arg 0) (s.statusBlock n)
    ((s.statusBlock n).length ≤ c.arg 1 → exec (.query q) s =
      .next (if w.2 then w.1.reply q c St.ok else (w.1.reply q c St.fetDstFault).endSession n St.fetDstFault).settle) ∧
    (c.arg 1 < (s.statusBlock n).length → exec (.query q) s = .next (t.reply q c St.saveTooSmall).settle) ∧
    (s.statusBlock n).take 4 = natLe 1 (match (s.ses n).state with | .paused => 2 | .ending => 3 | _ => 1)
      ++ natLe 1 (s.ses n).kind.code ++ natLe 2 n

/-- Jobs are submitted, withdrawn and refreshed; the status of a session is written.
What the model chooses here: notes/assumptions/19.md. -/
def Obligations.JobCommands : Prop :=
  SubmitAddsJob ∧ WithdrawRefreshBell ∧ QueryWritesStatus

/-! ### Queues, jobs and bells -/

/-- A submission doorbell inside the ring of an active queue with a route, whose homeroom runs no live stream, fetches every command up to the new
tail, while no host write waits at a link; one outside the ring sets BAD_DOORBELL; one for a stalled queue is kept and shown; one for an unused or deleted queue is ignored. -/
def Sys2Proof.Claims.SubmissionDoorbell : Prop :=
  (∀ (s : State) (q : QueueNo) (v : W32), s.dieOn (s.qDie q) = true → Recovered s → s.qState q = Qs.active →
    let x := s.que q
    let size := 2 ^ x.sqLog2
    let tail := getF v 15 0
    let head := s.rf (s.qBase q) F.fwcQStatusHead
    tail < size → head < size → x.sqLog2 ≤ 16 → (s.route (s.qDie q)).isSome = true →
    (∀ n, s.sharesHomeroom q n = true → (s.ses n).live = false) → (∀ e ∈ s.links, e.2.waitingWrites = []) →
    ∃ t : State, exec (.fwcSqTailWrite q v) s = .next t ∧ t.rf (s.qBase q) F.fwcSqTail = tail ∧
      t.rf (s.qBase q) F.fwcQStatusHead = tail ∧ SameBytes s t ∧ t.sessions = s.sessions ∧
      t.que q = { x with fetched := x.fetched ++ (List.range ((tail + size - head) % size)).map (fun i =>
        parseCmd (s.bytes (hostAddr (x.sq + 64 * ((head + i) % size))) 64) ((head + i + 1) % size)) }) ∧
  ∀ (s : State) (q : QueueNo) (v : W32), s.dieOn (s.qDie q) = true → Recovered s →
    let size := 2 ^ (s.que q).sqLog2
    ((s.qState q = Qs.active ∨ s.qState q = Qs.stalled) → size ≤ getF v 15 0 →
      exec (.fwcSqTailWrite q v) s = .next (s.raise (s.qBase q) F.fwcQStatusBadDoorbell)) ∧
    (s.qState q = Qs.stalled → getF v 15 0 < size →
      exec (.fwcSqTailWrite q v) s =
        .next ((s.setQue q { s.que q with kept := some (BitVec.ofNat 32 (getF v 15 0)) }).sf (s.qBase q) F.fwcSqTail (getF v 15 0))) ∧
    ((s.qState q = Qs.unused ∨ s.qState q = Qs.deletedByReset) → exec (.fwcSqTailWrite q v) s = .next s)

/-- A completion doorbell inside the ring consumes the completions up to the new head; one outside the ring sets BAD_DOORBELL. -/
def Sys2Proof.Claims.CompletionDoorbell : Prop :=
  ∀ (s : State) (q : QueueNo) (v : W32), s.dieOn (s.qDie q) = true → Recovered s → (s.qState q = Qs.active ∨ s.qState q = Qs.stalled) →
    let x := s.que q
    let size := 2 ^ x.cqLog2
    let head := getF v 15 0
    let moved := (head + size - s.rf (s.qBase q) F.fwcCqHead) % size
    let waiting := x.written - x.consumed
    (size ≤ head → exec (.fwcCqHeadWrite q v) s = .next (s.raise (s.qBase q) F.fwcQStatusBadDoorbell)) ∧
    (head < size → x.held = [] →
      ∃ t : State, exec (.fwcCqHeadWrite q v) s = .next t ∧ t.rf (s.qBase q) F.fwcCqHead = head ∧
        RegsBut [s.qBase q + F.fwcCqHead.off] s t ∧ SameBytes s t ∧ t.sessions = s.sessions ∧
        t.que q = { x with consumed := x.consumed + (if moved = 0 ∧ waiting = size then size else min moved waiting) })

/-- The doorbells of a queue.
What the model chooses here: notes/assumptions/18.md. -/
def Obligations.Doorbells : Prop :=
  SubmissionDoorbell ∧ CompletionDoorbell

/-- The scheduler core of a session's homeroom runs, and the session is ready and comes first (R330). -/
def Sys2Proof.Claims.ReadyFirst (s : State) (n : Nat) : Prop :=
  s.procRuns (s.ses n).homeroom scheduler = true ∧ s.ready n = true ∧ s.comesFirst n = true

/-- A job is dispatched when the scheduler core runs and its session is ready and comes first: one with a picture layout that is refused is answered
and counts for nothing, a withdrawn one is dropped, any other starts with its input as read; else nothing happens. -/
def Sys2Proof.Claims.JobsStartInTurn : Prop :=
  ∀ (s : State) (n : SessionNo), s.on = true →
    (¬ ReadyFirst s n → s.mustRestart n = false → s.claims n = false → (s.ses n).yields = [] → (s.ses n).yielding = false → Recovered s →
      exec (.jobDispatch n) s = .next s) ∧
    ∀ (j : Job) (rest : List Job), ReadyFirst s n → (s.ses n).jobs = j :: rest →
      (badLayout (s.ses n) j = true →
        ∃ u : State, exec (.jobDispatch n) s = .next (u.complete j.queue
            { tag := j.tag, session := n, kind := Ck.error, status := St.badPictureLayout, sqHead := j.sqHead, seq := j.seq }).settle ∧
          (u.ses n).jobs = (j :: rest).filter (fun x => x != j) ∧ (u.ses n).jobNumber = (s.ses n).jobNumber ∧ u.regs = s.regs ∧ SameBytes s u) ∧
      (badLayout (s.ses n) j = false → j.withdrawn = true →
        exec (.jobDispatch n) s = .next ((s.dropRunning n j 3).afterJob n).settle) ∧
      (badLayout (s.ses n) j = false → j.withdrawn = false →
        ∃ (u : State) (k : Job), exec (.jobDispatch n) s = .next (u.startJob n k).settle ∧ (u, k) = s.readJob n j ∧
          (Unloaded s → SameBytes s u) ∧ (u.ses n).image = (s.ses n).image ∧ k = { j with input := k.input, tainted := k.tainted })

/-- The work of an open picture that R71 discarded starts again at its scheduler core's next turn: the engine of its list runs from index 0, with the
step counter that the job began with, and the picture is the same but for what its engines had left. -/
def Sys2Proof.Claims.DiscardedWorkRestarts : Prop :=
  ∀ (s : State) (n : SessionNo) (l : ListPlace) (c : ClusterId) (p : EncPicture), s.on = true → Recovered s → (s.ses n).kind = .encode →
    s.procRuns (s.ses n).homeroom scheduler = true → s.mayRestart n = true → (s.ses n).enc.current = some p →
    (s.ses n).image.lists = [l] → (∀ e ∈ (s.ses n).image.descs, e.1 ≠ l.lclus) → s.physOf l.lclus.toNat = some c →
    fused c.die c.region = false → s.rf c.base F.exeSession = n →
    (∀ ch ∈ s.channelsOfSession n, s.bit ch.base F.entChStatusOpen = false) →
    ∃ t : State, exec (.jobDispatch n) s = .next t ∧ t.exe c = Ex.running ∧ (t.cl c).issue = 0 ∧ (t.cl c).unitPipe = [] ∧
      (t.cl c).finPipe = [] ∧ t.stepCopy c = (s.cl c).jobStep ∧ (t.ses n).jobs = (s.ses n).jobs ∧ (t.ses n).hist = (s.ses n).histAtJob ∧
      (t.ses n).enc.current = some { p with restart := false, side := [], recode := none }

/-- A live job asks the job that holds its clusters and is not live to yield them: every engine that runs for that job is to stop at its next
pause point. A job that has yielded goes on when its clusters are free and it comes first: its engine runs from the instruction it stood at. -/
def Sys2Proof.Claims.JobsYieldToLive : Prop :=
  (∀ (s : State) (n : SessionNo) (m : Nat), s.on = true → Recovered s → s.procRuns (s.ses n).homeroom scheduler = true →
    s.claims n = true → s.holders n = [m] → s.enginesStill m = false →
    ∃ t : State, exec (.jobDispatch n) s = .next t ∧ (t.ses n).jobs = (s.ses n).jobs ∧ (t.ses m).jobs = (s.ses m).jobs ∧ SameBytes s t ∧
      ∀ k, k ∈ s.clustersOfSession m → s.rf k.base F.exeSession = m → s.exe k = Ex.running ∨ s.exe k = Ex.waiting →
        t.bit k.base F.exeCtrlPauseReq = true) ∧
  ∀ (s : State) (n : SessionNo) (c : ClusterId) (l : ListPlace) (y : Yielded), s.on = true → Recovered s →
    s.procRuns (s.ses n).homeroom scheduler = true → (s.runningJob n).isSome = true → s.mustRestart n = false → s.resumable n = true →
    s.comesFirst n = true →
    (s.ses n).pauseTo = none → (s.ses n).image.lists = [l] → (s.ses n).yields = [y] → y.lclus = l.lclus → y.ended = false → y.fetch = [] →
    s.physOf l.lclus.toNat = some c →
    ∃ t : State, exec (.jobDispatch n) s = .next t ∧ t.exe c = Ex.running ∧ (t.cl c).issue = y.cluster.issue ∧
      t.rf c.base F.exeSession = n ∧ t.bit c.base F.exeCtrlPauseReq = false ∧ (t.ses n).yields = [] ∧ (t.ses n).jobs = (s.ses n).jobs

/-- A list that starts runs from its first instruction, in the ring that its PLACE word gives, and a resident list lies there; a cluster that
is the session's already keeps its step counter. -/
def Sys2Proof.Claims.StartedListRuns : Prop :=
  ∀ (s : State) (n : Nat) (l : ListPlace) (c : ClusterId), s.physOf l.lclus.toNat = some c → fused c.die c.region = false →
    s.rf c.base F.exeSession = n → (∀ e ∈ (s.ses n).image.descs, e.1 ≠ l.lclus) →
    let t := s.startJobList n l
    t.exe c = Ex.running ∧ (t.cl c).issue = 0 ∧ t.rf c.base F.exePc = 0 ∧ (t.cl c).unitPipe = [] ∧ (t.cl c).finPipe = [] ∧
    (t.cl c).fn0 = [] ∧ (t.cl c).fn1 = [] ∧ t.rf c.base F.exeListBase = 64 * l.line % 2 ^ 19 ∧
    t.rf c.base F.exeListSize = 2 ^ l.sizeLog2 % 2 ^ 15 ∧ t.rf c.base F.exeListLen = l.len % 2 ^ 24 ∧
    t.rf c.base F.exeWaitLimit = waitLimit (s.ses n) % 2 ^ 24 ∧ t.bit c.base F.exeCtrlOrdered = (s.ses n).ordered ∧
    t.bit c.base F.exeCtrlPauseReq = (s.ses n).pauseTo.isSome ∧
    t.bit c.base F.exeListSemStreamed = false ∧ t.stepCopy c = s.stepCopy c ∧ t.sessions = s.sessions ∧ t.posts = s.posts ∧
    ∀ a, t.byte a = if l.streamed = false ∧ c.store + 64 * l.line ≤ a ∧ a < c.store + 64 * l.line + l.words.length
      then l.words.getD (a - (c.store + 64 * l.line)) 0 else s.byte a

/-- Jobs start in turn, their lists run, discarded work starts again, and a job that is not live yields its clusters to a live one.
What the model chooses here: notes/assumptions/19.md, notes/assumptions/20.md, notes/assumptions/73.md. -/
def Obligations.JobDispatch : Prop :=
  JobsStartInTurn ∧ DiscardedWorkRestarts ∧ JobsYieldToLive ∧ StartedListRuns

/-- The bells of a live stream count on while its homeroom has its reference clock; the job due at a bell that is not complete is dropped, or marked late while the scheduler core restarts, and
a stream that is to stop ends; the load of a partition is the greater of its two fractions, in 0.1 %.
What the model chooses here: notes/assumptions/20.md. -/
def Obligations.BellsAndLoad : Prop :=
  (∀ (s : State) (n : SessionNo) (b : Nat), s.on = true → (s.ses n).live = true → (s.ses n).bellHost = false → (s.ses n).bell = some b →
    s.bit (key (s.ses n).homeroom 0) F.pwrStatusRefclkLost = false →
    let u := s.setSes n { s.ses n with bell := some (b + 1), bellStamp := s.stamp (s.ses n).homeroom }
    let stop := fun (v : State) => match (s.ses n).stopAtBell with | some st => v.endSession n st | none => v
    (dueJob (s.ses n) (b + 1) = none →
      exec (.bellRing n) s = .next (stop (u.afterDrop n)).settle ∧
      (Recovered s → (s.ses n).stopAtBell = none → (s.ses n).closing = none → (s.ses n).pauseTo = none → exec (.bellRing n) s = .next u)) ∧
    ∀ j, (s.ses n).jobs = [j] → dueJob (s.ses n) (b + 1) = some j →
      (s.schedulerRestarts (s.ses n).homeroom = false → exec (.bellRing n) s = .next (stop ((u.dropOrRefuse n j 1).afterDrop n)).settle) ∧
      (s.schedulerRestarts (s.ses n).homeroom = true →
        exec (.bellRing n) s = .next (stop ((u.setSes n { u.ses n with jobs := [{ j with late := true }] }).afterDrop n)).settle)) ∧
  (∀ (s : State) (n : SessionNo), s.on = true → Recovered s →
    (s.ses n).live = false ∨ (s.ses n).bellHost = true ∨ (s.ses n).bell = none ∨
      s.bit (key (s.ses n).homeroom 0) F.pwrStatusRefclkLost = true → exec (.bellRing n) s = .next s) ∧
  ∀ (s : State) (d : Die) (busy active used most : Nat), s.on = true → Recovered s →
    let load := max (if active = 0 then 0 else 1000 * busy / active) (if most = 0 then 0 else 1000 * used / most)
    exec (.loadUpdate d busy active used most) s =
      .next { s with parts := s.parts.map (fun p => if p.dies.getLsbD d then { p with load := load } else p) }

/-! ### Health -/

/-- Logical cluster n of a region that is neither fused nor LOST is physical slot 16 when SUB_VALID is 1 and SUB_FOR equals n, and otherwise slot n;
on a die that has not failed that slot stands for it. -/
def Sys2Proof.Claims.LogicalClusterSlots : Prop :=
  ∀ (s : State) (d : Die) (r : Fin 8) (n : Fin 16), fused d r = false → s.lost d r = false →
    let w := s.regionWord d r
    ∃ c : ClusterId, s.physOf (lclusOf d r n) = some c ∧ c.die = d ∧ c.region = r ∧
      c.slot.val = (if bitN w 51 = true ∧ fieldN w 55 52 = n.val then 16 else n.val) ∧
      (s.chart.failedDies.getLsbD d = false → s.logical d r c.slot = some n.val ∧ s.lclusOfCluster c = lclusOf d r n)

/-- A tile-step is checked and replayed by its logical cluster in other regions of the same die. -/
def Sys2Proof.Claims.ChecksRunElsewhere : Prop :=
  ∀ (s : State) (c k : ClusterId) (t : Tile), k ∈ s.checkers c t →
    k.die = c.die ∧ k.region ≠ c.region ∧ s.regionOk c.die k.region = true ∧
    k.slot.val = s.seat c.die k.region (fieldN (s.lclusOfCluster c) 11 8)

/-- The slot of a logical cluster, and where a tile-step is checked. -/
def Obligations.ClustersAndChecks : Prop :=
  LogicalClusterSlots ∧ ChecksRunElsewhere

/-- A duplicate with the same digest settles its tile-step; one with another digest is counted and waits for the vote. -/
def Sys2Proof.Claims.DuplicatesCompare : Prop :=
  ∀ (s : State) (c : ClusterId) (t : Fin 2) (x : Tile) (digest : W64), s.dieOn c.die = true → s.windowTile c t = some x →
    x.sampled = true → x.compared = false → x.checker = none → s.checkers c x ≠ [] →
    let b := key c.die 0
    let more := fun (n : Nat) => min (n + 1) (2 ^ 16 - 1)
    (digest = x.digest → ∃ u : State, exec (.duplicateCompare c t digest) s = .next (u.finishJob x.session).settle ∧
      u.windowTile c t = some { x with compared := true } ∧ u.rf b F.hltChecks = min (s.rf b F.hltChecks + 1) (2 ^ 32 - 1) ∧
      u.rf b F.hltMismatch = s.rf b F.hltMismatch ∧ SameBytes s u ∧ u.sessions = s.sessions) ∧
    (digest ≠ x.digest → Recovered s → ∃ u : State, exec (.duplicateCompare c t digest) s = .next u ∧
      u.windowTile c t = some { x with checker := some digest, moment := some (x.moment.getD (s.capture c x.session)) } ∧
      u.rf b F.hltChecks = min (s.rf b F.hltChecks + 1) (2 ^ 32 - 1) ∧
      u.rf b F.hltMismatch = more (s.rf b F.hltMismatch) ∧ SameBytes s u ∧ u.sessions = s.sessions)

/-- What the digests decide: with two replays that agree, the original is right exactly when they agree with it. -/
def Sys2Proof.Claims.VoteTable : Prop :=
  ∀ (o k x y : W64) (trapped : Bool) (c : Option W64) (a : Replay),
    (x ≠ y → decideVote trapped o c (.digest x) (.digest y) = 6) ∧
    ((∀ z, a ≠ .digest z) → decideVote trapped o c a (.digest y) = 6 ∧ decideVote trapped o c (.digest x) a = 6) ∧
    decideVote true o c (.digest x) (.digest x) = 5 ∧
    (k = x → x ≠ o → decideVote false o (some k) (.digest x) (.digest x) = 1) ∧
    (o = x → x ≠ k → decideVote false o (some k) (.digest x) (.digest x) = 2) ∧
    (x ≠ o → x ≠ k → decideVote false o (some k) (.digest x) (.digest x) = 3) ∧
    (x = o → x = k → decideVote false o (some k) (.digest x) (.digest x) = 4)

/-- A vote on a tile-step of the replay window settles it; one whose replays trap too ends its session. -/
def Sys2Proof.Claims.VotesSettleTiles : Prop :=
  ∀ (s : State) (c : ClusterId) (t : Fin 2) (x : Tile) (a b : Replay) (result : List (List (Nat × Byte))), s.dieOn c.die = true →
    s.windowTile c t = some x → (x.trap.isSome = true ∨ x.checker.isSome = true) →
    let cs := s.checkers c x
    let skip := if x.checker.isSome then 1 else 0
    let a' := s.replayer cs[skip]? a
    let b' := s.replayer cs[skip + 1]? b
    let parts := c :: cs.take (skip + 2)
    let v := decideVote x.trap.isSome x.digest x.checker a' b'
    ∃ u : State, u.windowTile c t = some { x with trap := none, checker := none, compared := true } ∧
      u.rf (key c.die 0) F.hltVotes = min (s.rf (key c.die 0) F.hltVotes + 1) (2 ^ 16 - 1) ∧ SameBytes s u ∧ u.sessions = s.sessions ∧
      (∀ st, x.trap.bind trapStatus = some st → a' = .trapped → b' = .trapped →
        exec (.voteDecide c t a b result) s = .next (u.endSession x.session st (u.exeDetail c x.instr)).settle) ∧
      (x.trap.bind trapStatus = none ∨ a' ≠ .trapped ∨ b' ≠ .trapped →
        exec (.voteDecide c t a b result) s =
          .next ((((u.voteOutcome c x v parts (result.getD 0 [])).settleChecker x v a' parts[1]?).replayReaders x result).finishJob
            x.session).settle)

/-- A vote that decides against the original, or on an event, replaces the bytes that the agreed replay gives; one that finds the original right
replaces none, and of work that has been dropped none is replaced. No drain follows while too few cards stand against the clusters (R461). -/
def Sys2Proof.Claims.VoteReplacesResult : Prop :=
  ∀ (s : State) (c : ClusterId) (x : Tile) (v : Nat) (cs : List ClusterId) (result : List (Nat × Byte)), 1 ≤ v → v ≤ 5 →
    (∀ k, (s.recentCards k).length + 2 < s.rf (key k.die 0) F.hltSuspectN) →
    let t := s.voteOutcome c x v cs result
    t.pkg = s.pkg ∧ t.chart = s.chart ∧
    ∀ e, t.byte e = if v = 2 ∨ v = 4 ∨ x.dropped = true then s.byte e
      else match result.reverse.find? (fun p => p.1 == e) with | some p => p.2 | none => s.byte e

/-- After the last vote of a step the tile-step that read a replaced result is replayed, and its bytes are those of its replay; while another vote of
the step is open, nothing is replayed. -/
def Sys2Proof.Claims.ReadersAreReplayed : Prop :=
  ∀ (s : State) (x : Tile) (result : List (List (Nat × Byte))),
    (s.otherVote x = true → s.replayReaders x result = s) ∧
    ∀ id, s.redo ≠ [] → s.otherVote x = false → s.readers s.redo = [id] →
      let t := s.replayReaders x result
      t.redo = [] ∧ t.pkg = s.pkg ∧
      ∀ e, t.byte e = match (result.getD 1 []).reverse.find? (fun p => p.1 == e) with | some p => p.2 | none => s.byte e

/-- A cluster does not come to tile-step t + 2 until tile-step t is settled: it has ended and been compared where it was sampled, no event of it is
open, and the same holds of every tile-step whose results it read. -/
def Sys2Proof.Claims.UnsettledTileStepHoldsCluster : Prop :=
  ∀ (s : State) (c : ClusterId) (a b : Tile) (rest : List Tile), (s.cl c).tile.begun = false → (s.cl c).window = a :: b :: rest →
    (s.canIssue c = true → b.isChecked = true ∧ (b.sources.length < 4096 → ∀ id ∈ b.sources, ∀ t, s.tileAt id = some t → t.isChecked = true)) ∧
    (b.isChecked = false → s.dieOn c.die = true → Recovered s → exec (.nop c) s = .next s)

/-- Sampled duplicates and the vote, what a vote replaces, and what waits for a tile-step to be settled.
What the model chooses here: notes/assumptions/15.md, notes/assumptions/80.md, notes/assumptions/81.md, notes/assumptions/88.md. -/
def Obligations.DuplicatesAndVotes : Prop :=
  DuplicatesCompare ∧ VoteTable ∧ VotesSettleTiles ∧ VoteReplacesResult ∧ ReadersAreReplayed ∧ UnsettledTileStepHoldsCluster

/-- What a drain leaves of the package: DRAINED, the pins DRAINED_N and FAULT_N low, READY gone. -/
def Sys2Proof.Claims.Draining (t : State) : Prop :=
  t.pkg.drained = true ∧ t.pkg.drainedN = false ∧ t.pkg.faultN = false ∧ t.pkg.ready = false ∧ t.pkg.drain.isSome = true

/-- DRAIN_NOW of the host or the session core drains the package: sessions that are not live lose the jobs that wait, live ones end at their
next bell; of another writer it does nothing. -/
def Sys2Proof.Claims.DrainNowDrains : Prop :=
  (∀ (s : State) (by_ : Agent), s.dieOn 12 = true → InService s → s.pkg.drain = none → (by_ = .host ∨ by_ = .sessionCore) →
    ∃ t : State, exec (.drainNow by_) s = .next t ∧ Draining t ∧
      ∀ n, (s.ses n).kind ≠ .none → (t.ses n).kind = (s.ses n).kind ∧
        ((s.ses n).live = true → (t.ses n).stopAtBell = some St.deviceDrained ∧ (t.ses n).jobs = (s.ses n).jobs) ∧
        ((s.ses n).live = false → (t.ses n).jobs = (s.ses n).jobs.filter (fun j => j.phase != .queued))) ∧
  ∀ (s : State) (by_ : Agent), s.dieOn 12 = true → Recovered s → by_ ≠ .host → by_ ≠ .sessionCore → exec (.drainNow by_) s = .next s

/-- CLEAR_RECORD of the session core erases the drain record; of another writer it sets CFG_REFUSED. The record is written once in a drain. -/
def Sys2Proof.Claims.DrainRecordInFlash : Prop :=
  (∀ s : State, s.dieOn 12 = true → Recovered s →
    ∃ t : State, exec (.clearRecord .sessionCore) s = .next t ∧ t = { s with flash := t.flash } ∧
      ∀ a, t.flashByte a = if drainBase ≤ a ∧ a < drainBase + 0x1_0000 then 0xFF else s.flashByte a) ∧
  (∀ (s : State) (by_ : Agent), s.dieOn 12 = true → Recovered s → by_ ≠ .sessionCore →
    exec (.clearRecord by_) s = .next (s.raise die12 F.hltErrCfgRefused)) ∧
  (∀ (s : State) (d : Drain), s.dieOn 12 = true → Recovered s → s.pkg.drain = some d → d.written = false → d.card.length = 64 →
    ∃ t : State, exec .drainRecordWrite s = .next t ∧ t.pkg = { s.pkg with drain := some { d with written := true } } ∧ t.regs = s.regs ∧
      t.mem = s.mem ∧ t.sessions = s.sessions ∧ t.flashBytes drainBase 64 = d.card ∧
      (∀ i, i < 16 → ∀ c, d.flagged[i]? = some c →
        t.flashBytes (drainBase + 64 + 2 * i) 2 = natLe 2 (punitOf c.die c.region c.slot 0)) ∧
      ∀ a, a < drainBase ∨ drainBase + 0x1_0000 ≤ a → t.flashByte a = s.flashByte a) ∧
  ∀ s : State, s.dieOn 12 = true → Recovered s → (∀ d, s.pkg.drain = some d → d.written = true) → exec .drainRecordWrite s = .next s

/-- The oldest card that die 12 has not taken goes to the next place of the archive; a card that the flash does not take stays, and FLASH_WRITE_FAIL
shows it (notes/assumptions/89.md). -/
def Sys2Proof.Claims.CardsAreArchived : Prop :=
  ∀ (s : State) (d : Die) (card : List Byte), s.dieOn d = true → Recovered s →
    let x := s.die d
    let a := archiveBase + 64 * (s.pkg.archived % archiveCards)
    x.unsent ≠ 0 → s.procRuns d healthCore = true → s.procRuns 12 healthCore = true →
    exec (.cardArchive ⟨d, false⟩) s = .next (s.raise die12 F.hltErrFlashWriteFail) ∧
    (s.procRuns 12 sessionCore = true → x.cards[x.cards.length - x.unsent]? = some card → card.length = 64 → s.ect.emergencies.length < 16 →
    ∃ t : State, exec (.cardArchive ⟨d, true⟩) s = .next t ∧ t.regs = s.regs ∧ SameBytes s t ∧ t.sessions = s.sessions ∧
      t.die d = { x with unsent := x.unsent - 1 } ∧ t.pkg.archived = s.pkg.archived + 1 ∧
      t.ect.emergencies = s.ect.emergencies ++ [(BitVec.ofNat 16 (0xFF00 + leAt card 30 1), BitVec.ofNat 16 (leAt card 32 2))] ∧
      ∀ e, t.flashByte e = if a ≤ e ∧ e < a + 64 then card.getD (e - a) 0 else s.flashByte e)

/-- Every HLT_WDIG_N steps of a session a die reads its copy of a weight section and compares its digest with the load digest of that section: the
same costs the bytes that its die absorbs, another drains the package, with every session of the same weights that the die holds. Before that, or
of a section that the die does not hold, nothing happens. From die 12 the load digests of a session that spans devices go out every HLT_WDIG_N
steps. -/
def Sys2Proof.Claims.WeightCopiesAreChecked : Prop :=
  (∀ (s : State) (n : SessionNo) (d : Die) (k : Nat), s.dieOn d = true → d.val ≠ 12 → (s.ses n).kind ≠ .none →
    let x := s.ses n
    let last := Sparse.get (fun _ => 0) x.wdigAt (65536 * d.val + k)
    let u := s.setSes n { x with wdigAt := Sparse.put (fun _ => 0) x.wdigAt (65536 * d.val + k) (s.sessionStep n).toNat }
    ((∀ w, x.image.weights[k]? = some w →
        s.wdigDue n last = false ∨ s.holdsCopy n d (Config.weightTarget w).1 (Config.weightTarget w).2 = false) → Recovered s →
      exec (.weightDigestCheck n d k) s = .next s) ∧
    ∀ w, x.image.weights[k]? = some w → s.wdigDue n last = true →
      let place := Config.weightTarget w
      let r := u.virtRead d n place.1 place.2
      s.holdsCopy n d place.1 place.2 = true →
      (digest32 r.1 = digest32 (weightPart w) → exec (.weightDigestCheck n d k) s = .next (r.2.2.absorb d place.2).settle) ∧
      (digest32 r.1 ≠ digest32 (weightPart w) → InService s → Unloaded s → s.pkg.drain = none →
        ∃ t : State, exec (.weightDigestCheck n d k) s = .next t ∧ Draining t ∧ t.bit (key d 0) F.hltErrWeightCopy = true ∧
          (t.ses n).kind = .none)) ∧
  ∀ (s : State) (n : SessionNo) (k : Nat), s.dieOn 12 = true → Recovered s → (s.ses n).kind ≠ .none → (s.ses n).image.weights[k]? = none →
    (s.spans n = false ∨ s.wdigDue n (s.ses n).wdigSent = false → exec (.weightDigestCheck n 12 k) s = .next s) ∧
    (s.spans n = true → s.wdigDue n (s.ses n).wdigSent = true →
      ∃ t : State, exec (.weightDigestCheck n 12 k) s = .next t ∧ (t.ses n).wdigSent = (s.sessionStep n).toNat ∧
        ∀ l, s.oneEach (s.sessionLinks n) = [l] → (s.lnk l).waiting = [] →
          let ps := managementPieces 32 (s.ses n).image.loadDigests
          let f := (ps.map (fun p => flitsFor (32 * p.length))).sum
          linkDie l < 25 → f ≤ (s.lnk l).credits.getD 3 0 → (s.lnk l).unacked + f ≤ 256 →
          t.out = s.out ++ ps.map (fun p => .digests l n p))

/-- Drain, the drain record, the card archive and weight digests.
What the model chooses here: notes/assumptions/29.md, notes/assumptions/38.md. -/
def Obligations.DrainAndCards : Prop := DrainNowDrains ∧ DrainRecordInFlash ∧ CardsAreArchived ∧ WeightCopiesAreChecked

/-- An exam takes its cluster into RECESS at the supply of an exam; its end brings the cluster back, with LAST_PASS after a pass; a spare that fails
is DISABLED, a seated cluster that fails drains the package, and a slot that only TEST examines stays as it was. While the health core restarts no end
of an exam counts (R441). -/
def Sys2Proof.Claims.ExamsInRecess : Prop :=
  (∀ (s : State) (c : ClusterId), s.dieOn c.die = true → Recovered s → s.mayExam c = true →
    ∃ t : State, exec (.examStart c) s = .next t ∧ (t.die c.die).recess.mem (examNo c) = true ∧ t.slotState c.die c.region c.slot = 4 ∧
      t.seatState c = s.slotState c.die c.region c.slot ∧ t.rf (key c.die 0) F.hltExamStatusState = 3 ∧ SameBytes s t ∧
      t.sessions = s.sessions ∧
      (fused c.die c.region = false → t.vApplied c.die c.region = examSupply c.die c.region) ∧
      ((s.partState c.die = some .service ∧ s.junction c.die < 680) → t.bit (key c.die 0) F.hltErrBandMissed = true)) ∧
  (∀ (s : State) (c : ClusterId), s.dieOn c.die = true → Recovered s → (s.die c.die).recess = [examNo c] →
    (∀ p ∈ s.parts, p.leaving = none) → s.seatState c < 8 →
    (s.procRuns c.die healthCore = false → ∀ pass, exec (.examComplete c pass) s = .next s) ∧
    (s.procRuns c.die healthCore = true →
    let now := if s.slotState c.die c.region c.slot = 4 then s.seatState c else s.slotState c.die c.region c.slot
    let done := min (s.rf (key c.die 0) F.hltExamDone + 1) (2 ^ 16 - 1)
    (∃ t : State, exec (.examComplete c true) s = .next t ∧ (t.die c.die).recess = [] ∧
      t.slotState c.die c.region c.slot = now ∧ (t.cl c).lastPass = s.stamp c.die ∧ (t.cl c).lastExam = s.stamp c.die ∧
      t.rf (key c.die 0) F.hltExamDone = done ∧ t.rf (key c.die 0) F.hltExamStatusState = 0 ∧
      (fused c.die c.region = false → t.vApplied c.die c.region = s.vWanted c.die c.region) ∧ SameBytes s t ∧ t.sessions = s.sessions) ∧
    (s.seatState c = 1 →
      ∃ t : State, exec (.examComplete c false) s = .next t ∧ t.slotState c.die c.region c.slot = 3 ∧ t.pkg = s.pkg ∧
        t.bit (key c.die 0) F.hltErrExamFail = true ∧ (t.cl c).lastPass = (s.cl c).lastPass ∧ t.sessions = s.sessions) ∧
    (s.seatState c ≠ 0 → s.seatState c ≠ 1 → s.seatState c ≠ 2 →
      ∃ t : State, exec (.examComplete c false) s = .next t ∧ t.slotState c.die c.region c.slot = now ∧ t.pkg = s.pkg ∧
        t.bit (key c.die 0) F.hltErrExamFail = true ∧ (t.cl c).lastPass = (s.cl c).lastPass ∧ t.sessions = s.sessions) ∧
    ((s.seatState c = 0 ∨ s.seatState c = 2) → InService s → s.pkg.drain = none →
      ∃ t : State, exec (.examComplete c false) s = .next t ∧ Draining t ∧ t.slotState c.die c.region c.slot = 5 ∧
        t.bit (key c.die 0) F.hltErrExamFail = true ∧ ∀ n, s.usesCluster n c = true → (t.ses n).kind = .none)))

/-- GO reads a library from the host into the bank that is not active, unless one is being written or verified; only one that fails no check
becomes the active one. With FORWARD its pieces go to the group's other devices, as many at once as the link has credits for. -/
def Sys2Proof.Claims.LibraryInstall : Prop :=
  (∀ s : State, s.dieOn 12 = true → Recovered s →
    let st := s.rf die12 F.hltLibStatusCode
    let len := s.rf die12 F.hltLibLen
    let src := s.rf die12 F.hltLibSrcLo + s.rf die12 F.hltLibSrcHi * 2 ^ 32
    ((st = Lib.writing ∨ st = Lib.verifying) → exec .hltLibGo s = .next s) ∧
    (st ≠ Lib.writing → st ≠ Lib.verifying → s.ect.staging = false →
      (bankSize < len → ∃ t : State, exec .hltLibGo s = .next t ∧ t.rf die12 F.hltLibStatusCode = Lib.tooLarge ∧ t.flash = s.flash) ∧
      (len ≤ bankSize → (s.hostRead 12 src len).2 = true →
        ∃ t : State, exec .hltLibGo s = .next t ∧ t.rf die12 F.hltLibStatusCode = Lib.hostReadFail ∧ t.flash = s.flash) ∧
      (len ≤ bankSize → (s.hostRead 12 src len).2 = false →
        ∃ t : State, exec .hltLibGo s = .next t ∧ t.rf die12 F.hltLibStatusCode = Lib.writing ∧
          t.pkg.install = some { bank := s.inactiveBank, len := len, staged := false } ∧
          (∀ i, i < len → t.flashByte (bankBase s.inactiveBank + i) = (s.hostRead 12 src len).1.getD i 0) ∧
          (∀ a, a < bankBase s.inactiveBank ∨ bankBase s.inactiveBank + bankSize ≤ a → t.flashByte a = s.flashByte a)))) ∧
  ∀ (s : State) (i : Install), s.dieOn 12 = true → Recovered s → s.pkg.install = some i →
    let b := s.flashBytes (bankBase i.bank) i.len
    let floor := s.selectedBank.map (fun k => leNat (s.flashBytes (bankBase k + 8) 4))
    (∃ t : State, exec (.libInstallComplete false) s = .next t ∧ t.rf die12 F.hltLibStatusCode = Lib.flashFail ∧ t.flash = s.flash ∧
      t.pkg = { s.pkg with install := none }) ∧
    (∀ code, s.libFailure b i.len floor = some code →
      ∃ t : State, exec (.libInstallComplete true) s = .next t ∧ t.rf die12 F.hltLibStatusCode = code ∧ t.flash = s.flash ∧
        t.pkg = { s.pkg with install := none }) ∧
    (s.libFailure b i.len floor = none → s.phase ≠ 5 → i.bank ≤ 1 →
      ∃ t : State, exec (.libInstallComplete true) s = .next t ∧ t.rf die12 F.hltLibStatusCode = Lib.done ∧
        t.rf die12 F.hltLibVersion = leAt b 8 4 ∧ t.selectedBank = some i.bank ∧
        (∀ a, a < selectBase ∨ selectBase + 0x1_0000 ≤ a → t.flashByte a = s.flashByte a) ∧
        (s.bit die12 F.hltLibCtrlForward = false → t.out = s.out) ∧
        ∀ l, s.bit die12 F.hltLibCtrlForward = true → (List.range 40).filter (fun l => s.linkUp l && (s.lnk l).role == 1) = [l] →
          (s.lnk l).waiting = [] →
          let ps := managementPieces 1 b
          let f := flitsFor (ps.headD []).length
          ∃ k, t.out = s.out ++ (ps.take k).map (fun p => .library l p) ∧
            (t.lnk l).waiting.map (·.reply) = (ps.drop k).map (fun p => .library l p) ∧
            (f ≤ (s.lnk l).credits.getD 3 0 → (s.lnk l).unacked + f ≤ 256 → 0 < k))

/-- Exams and the exam library.
What the model chooses here: notes/assumptions/38.md. -/
def Obligations.ExamsAndLibrary : Prop := ExamsInRecess ∧ LibraryInstall

/-! ### Firmware -/

/-- The memories of a processor. -/
def Sys2Proof.Claims.memoriesOf (s : State) (d p : Nat) : ProcMem := Sparse.get (fun _ => {}) (s.die d).procs p

/-- GO loads a package that passes every check and starts every processor with its section in code memory; one that fails a check starts none and
says why; a GO while BUSY sets GO_WHILE_BUSY. -/
def Sys2Proof.Claims.BootLoads : Prop :=
  ∀ s : State, s.dieOn 12 = true → Recovered s →
    let st := s.rf die12 F.fwcBootStatusCode
    let len := s.rf die12 F.fwcBootLen
    let b := s.bytes (dbufAddr 12 0) len
    (st = Fw.busy → exec .fwcBootGo s = .next (s.raise die12 F.fwcBootStatusGoWhileBusy)) ∧
    (st ≠ Fw.busy → st ≠ Fw.ok → (s.phase = 3 ∨ s.phase = 4) →
      (s.fwFailure b len = none → ∃ t : State, exec .fwcBootGo s = .next t ∧ t.phase = 4 ∧ t.rf die12 F.fwcBootStatusCode = Fw.busy ∧
        t.fw.shadow0 = b ∧ t.fw.active = 0 ∧ t.pkg = s.pkg ∧ SameBytes s t ∧
        ∀ x ∈ allProcs, t.proc x.1 x.2 = Ps.starting ∧ memoriesOf t x.1 x.2 = { code := t.codeSection x.2 }) ∧
      ∀ code, s.fwFailure b len = some code → ∃ t : State, exec .fwcBootGo s = .next t ∧ t.phase = 4 ∧
        t.rf die12 F.fwcBootStatusCode = code ∧ (code = Fw.badDigest → t.rf die12 F.fwcBootStatusDie = 12) ∧
        (∀ x ∈ allProcs, t.proc x.1 x.2 = Ps.stopped) ∧ t.pkg.faultN = false ∧ t.fw = s.fw)

/-- A processor that starts runs, from its section of the active bank, and takes the events held for it; when the last of a load does, the load is OK, every die shows the version and the library phase begins. A die or a
processor that does not report fails the load. -/
def Sys2Proof.Claims.ProcessorsStart : Prop :=
  (∀ (s : State) (d : Die) (p : ProcNo), s.dieOn d = true → Recovered s → s.proc d p = Ps.starting → hasProc d p = true →
    ∃ t : State, exec (.procReady d p) s = .next t ∧ t.proc d p = Ps.running ∧ t.mem = s.mem ∧ t.sessions = s.sessions ∧
      memoriesOf t d p = { code := s.codeSection p } ∧ Sparse.get (fun _ => []) (t.die d).events p = [] ∧
      ((s.rf die12 F.fwcBootStatusCode = Fw.busy ∧ ∀ x ∈ allProcs, x ≠ (d.val, p.val) → s.proc x.1 x.2 = Ps.running) →
        t.rf die12 F.fwcBootStatusCode = Fw.ok ∧ t.phase = 5 ∧
        ∀ e, e < 25 → t.rf (key e 0) F.fwcFwVersion = fwVersionOf s.fw.shadow0) ∧
      (s.rf die12 F.fwcBootStatusCode ≠ Fw.busy → t.phase = s.phase ∧ t.rf die12 F.fwcBootStatusCode = s.rf die12 F.fwcBootStatusCode)) ∧
  (∀ (s : State) (d : Die), s.dieOn 12 = true → Recovered s →
    (s.rf die12 F.fwcBootStatusCode = Fw.busy → ∃ t : State, exec (.dieTimeout d) s = .next t ∧
      t.rf die12 F.fwcBootStatusCode = Fw.dieTimeout ∧ t.rf die12 F.fwcBootStatusDie = d.val ∧ t.pkg.faultN = false ∧
      ∀ x ∈ allProcs, t.proc x.1 x.2 = Ps.stopped) ∧
    (s.rf die12 F.fwcBootStatusCode ≠ Fw.busy → s.rf die12 F.fwcActStatusCode = Fw.loading →
      exec (.dieTimeout d) s = .next (s.actStatus Fw.dieTimeout))) ∧
  ∀ (s : State) (d : Die) (p : ProcNo), s.dieOn 12 = true → Recovered s → hasProc d p = true →
    (s.rf die12 F.fwcBootStatusCode = Fw.busy → s.proc d p = Ps.starting → ∃ t : State, exec (.procFail d p) s = .next t ∧
      t.rf die12 F.fwcBootStatusCode = Fw.procFail ∧ t.rf die12 F.fwcBootStatusDie = d.val ∧ t.pkg.faultN = false ∧
      ∀ x ∈ allProcs, t.proc x.1 x.2 = Ps.stopped) ∧
    (s.rf die12 F.fwcBootStatusCode ≠ Fw.busy → s.rf die12 F.fwcActStatusCode = Fw.committing → s.proc d p = Ps.restarting →
      exec (.procFail d p) s = .next s.rollBack.settle)

/-- The load of the firmware.
What the model chooses here: notes/assumptions/32.md, notes/assumptions/41.md. -/
def Obligations.FirmwareLoad : Prop := BootLoads ∧ ProcessorsStart

/-- The commands that restart a processor: the processor, the cause they record and the program counter. -/
def Sys2Proof.Claims.restarts : Instr → Option (Die × ProcNo × Nat × W32)
  | .watchdog d p pc => some (d, p, Cause.watchdog, pc)
  | .protection d p pc _ => some (d, p, Cause.protection, pc)
  | .memoryUe d p pc => some (d, p, Cause.memoryUe, pc)
  | .illegal d p pc => some (d, p, Cause.illegal, pc)
  | .restart d p pc => some (d, p, Cause.host, pc)
  | _ => none

/-- A processor that is neither stopped nor failed restarts on its events, an access that no region permits among them: its section is copied into
code memory, its data memory is cleared and the queues it owns stall; the fourth restart within 10 s fails it, its die and its partition; during
the boot load a restart fails the load. An access that a region permits restarts nothing.
What the model chooses here: notes/assumptions/39.md. -/
def Obligations.ProcessorsRestart : Prop :=
  ∀ (i : Instr) (d : Die) (p : ProcNo) (cause : Nat) (pc : W32), restarts i = some (d, p, cause, pc) →
    ∀ s : State, s.dieOn d = true → hasProc d p = true → s.proc d p ≠ Ps.stopped → s.proc d p ≠ Ps.failed →
    (s.proc d p = Ps.restarting → cause ≠ Cause.host) →
    (∀ at_ x, i = .protection d p at_ x → s.permits d p x.toNat = true → Recovered s → exec i s = .next s) ∧
    ((∀ at_ x, i = .protection d p at_ x → s.permits d p x.toNat = false) →
    let few := (s.recentRestarts d p).length < 3
    let log := dbufAddr d (0xF0_0000 + 32 * s.rf (key d 0) F.fwcLogHead)
    (s.rf die12 F.fwcBootStatusCode = Fw.busy → Recovered s → ∃ t : State, exec i s = .next t ∧
      t.rf die12 F.fwcBootStatusCode = Fw.procFail ∧ t.rf die12 F.fwcBootStatusDie = d.val ∧ t.pkg.faultN = false) ∧
    (s.rf die12 F.fwcBootStatusCode ≠ Fw.busy → few → Recovered s → ∃ t : State, exec i s = .next t ∧ t.proc d p = Ps.restarting ∧
      t.rf (procBase d p) F.fwcProcCause = cause ∧ t.rf (procBase d p) F.fwcProcPc = pc.toNat ∧
      t.rf (procBase d p) F.fwcProcRestarts = min (s.rf (procBase d p) F.fwcProcRestarts + 1) (2 ^ 16 - 1) ∧
      (∀ at_ x, i = .protection d p at_ x → t.rf (procBase d p) F.fwcProcMpu = x.toNat) ∧
      (t.recentRestarts d p).length = (s.recentRestarts d p).length + 1 ∧ t.sessions = s.sessions ∧ t.pkg = s.pkg ∧
      memoriesOf t d p = { code := s.codeSection p } ∧ t.rf (key d 0) F.secDigBytes = s.rf (key d 0) F.secDigBytes ∧
      (p = 3 → s.qState 0 = Qs.active → t.qState 0 = Qs.stalled) ∧
      (p = 0 → ∀ q : QueueNo, q ≠ 0 → (s.queues.any (fun e => e.1 == q.val)) = true → s.qDie q = d → s.qState q = Qs.active →
        t.qState q = Qs.stalled) ∧
      ∀ a, (a < log ∨ log + 32 ≤ a) → t.byte a = s.byte a) ∧
    (s.rf die12 F.fwcBootStatusCode ≠ Fw.busy → ¬ few → ∃ u : State, exec i s = .next u.settle ∧ u.proc d p = Ps.failed ∧
      u.pkg.faultN = false ∧ u.chart.failedDies.getLsbD d = true ∧ (∀ x ∈ u.parts, x.dies.getLsbD d = false) ∧
      ∀ x ∈ s.parts, x.dies.getLsbD d = true → ∀ n, (s.ses n).dies &&& x.dies ≠ 0 → (u.ses n).kind = .none))

/-- A processor whose restart is done runs again and takes the events held for it; die 12's session core takes queue 0 up again and answers the
mailbox request that was held. RESTART of a processor that restarts only sets its bit. -/
def Sys2Proof.Claims.RestartsEnd : Prop :=
  (∀ (s : State) (d : Die) (p : ProcNo), s.dieOn d = true → s.proc d p = Ps.restarting →
    (p ≠ 3 → ∃ u : State, exec (.procRestartDone d p) s = .next u.settle ∧ u.proc d p = Ps.running ∧
      ((p = 2 ∨ p = 1 ∧ (s.die d).answers = []) →
        Sparse.get (fun _ => []) (u.die d).events p = [] ∧ u.sessions = s.sessions ∧ u.queues = s.queues)) ∧
    (p = 3 → d = 12 → s.sec.held = false →
      ∃ u : State, u.proc d p = Ps.running ∧ (s.qState 0 = Qs.stalled → u.qState 0 = Qs.active) ∧ u.ect.held = [] ∧
        ((s.que 0).kept = none → (s.que 0).held = [] → s.rf (s.qBase 0) F.fwcQStatusHead = s.rf (s.qBase 0) F.fwcSqTail →
          u.sessions = s.sessions) ∧
        (s.ect.held = [] → exec (.procRestartDone d p) s = .next u.settle) ∧
        ∀ i, s.ect.held = [i] → exec (.procRestartDone d p) s = .next (u.answer i).settle)) ∧
  ∀ (s : State) (d : Die) (p : ProcNo) (pc : W32), s.dieOn d = true → Recovered s → hasProc d p = true → s.proc d p = Ps.restarting →
    exec (.restart d p pc) s = .next (s.raise (procBase d p) F.fwcProcStatusRestartWhileRestarting)

/-- Every processor runs and has room for one more restart. -/
def Sys2Proof.Claims.AllMayRestart (s : State) : Prop :=
  ∀ x ∈ allProcs, s.proc x.1 x.2 = Ps.running ∧ (s.recentRestarts x.1 x.2).length < 3

/-- An activation: refused while a session is open, while one is in progress and before a load; the package is read, checked and kept in
the bank that is not active; the commit waits for 100 ms without an emergency and restarts every processor from the new bank; the last one to run
again shows the new version, and 100 ms later the bank changes; once a processor has restarted since the commit, everything restarts from the old
bank; ABORT and ten seconds of emergency end it before the commit. -/
def Sys2Proof.Claims.ActivationGoes : Prop :=
  ∀ s : State, s.dieOn 12 = true → Recovered s →
    let st := s.rf die12 F.fwcActStatusCode
    let waits := st = Fw.loading ∨ st = Fw.waitEmergency
    let len := s.rf die12 F.fwcActLen
    let src := s.rf die12 F.fwcActSrcLo + s.rf die12 F.fwcActSrcHi * 2 ^ 32
    let r := s.hostRead 12 src len
    let a := s.askHost 12 src len
    ((s.rf die12 F.fwcBootStatusCode ≠ Fw.ok ∨ s.activating = true) → exec .fwcActGo s = .next s) ∧
    (s.rf die12 F.fwcBootStatusCode = Fw.ok → s.activating = false →
      (s.anySession = true → exec .fwcActGo s = .next (s.actStatus Fw.actBusy)) ∧
      (s.anySession = false → r.2 = true → exec .fwcActGo s = .next (a.actStatus Fw.hostReadFail)) ∧
      (∀ code, s.anySession = false → r.2 = false → s.fwFailure r.1 len = some code →
        exec .fwcActGo s = .next ((a.absorbPackage r.1 (some code)).actStatus code)) ∧
      (s.anySession = false → r.2 = false → s.fwFailure r.1 len = none →
        ∃ t : State, exec .fwcActGo s = .next t ∧ t.fw.active = s.fw.active ∧
          t.rf die12 F.fwcActStatusCode = (if s.emergencyNow then Fw.waitEmergency else Fw.loading) ∧
          (if s.fw.active = 0 then t.fw.shadow1 = r.1 ∧ t.fw.shadow0 = s.fw.shadow0 else t.fw.shadow0 = r.1 ∧ t.fw.shadow1 = s.fw.shadow1) ∧
          RegsBut ((die12 + F.fwcActStatusCode.off) :: allDies.map (fun d => key d 0 + F.secDigBytes.off)) a t ∧
          ∀ d : Die, t.rf (key d 0) F.secDigBytes =
            min (s.rf (key d 0) F.secDigBytes + ((fwSections r.1).map (·.len)).sum) (2 ^ 32 - 1))) ∧
    (waits → exec .fwcActAbort s = .next (s.actStatus Fw.aborted)) ∧ (¬ waits → exec .fwcActAbort s = .next s) ∧
    (∀ e, waits → s.fw.firstEmergency = some e → e.toNat + tenSeconds ≤ (s.stamp 12).toNat →
      exec .emergencyTimeout s = .next (s.actStatus Fw.emergencyTimeout)) ∧
    (waits → AllMayRestart s → s.rf die12 F.fwcBootStatusCode = Fw.ok → s.emergencyNow = false →
      (∀ e, s.fw.lastEmergency = some e → e.toNat + hundredMs ≤ (s.stamp 12).toNat) →
      ∃ t : State, exec .actCommit s = .next t ∧ t.rf die12 F.fwcActStatusCode = Fw.committing ∧ t.fw.active = s.fw.active ∧
        t.fw.commitStamp = some (s.stamp 12) ∧ t.fw.readyStamp = none ∧ t.fw.commitRestart = false ∧
        ∀ x ∈ allProcs, t.proc x.1 x.2 = Ps.restarting ∧ t.rf (procBase x.1 x.2) F.fwcProcCause = Cause.activation ∧
          memoriesOf t x.1 x.2 = { code := t.codeSection x.2 }) ∧
    (s.emergencyNow = true → exec .actCommit s = .next s) ∧
    (∀ (d : Die) (p : ProcNo), st = Fw.committing → s.dieOn d = true → s.proc d p = Ps.restarting →
      (p = 2 ∨ p = 1 ∧ (s.die d).answers = []) → (∀ x ∈ allProcs, x ≠ (d.val, p.val) → s.proc x.1 x.2 = Ps.running) →
      ∃ t : State, exec (.procRestartDone d p) s = .next t ∧ t.fw = { s.fw with readyStamp := some (s.fw.readyStamp.getD (s.stamp 12)) } ∧
        ∀ e, e < 25 → t.rf (key e 0) F.fwcFwVersion = fwVersionOf (if s.fw.active = 0 then s.fw.shadow1 else s.fw.shadow0)) ∧
    (st ≠ Fw.committing → exec .actConfirm s = .next s) ∧
    (st = Fw.committing →
      (s.fw.commitRestart = false → (∀ e, s.fw.readyStamp = some e → (s.stamp 12).toNat < e.toNat + hundredMs) →
        exec .actConfirm s = .next s) ∧
      (∀ e, s.fw.commitRestart = false → s.fw.readyStamp = some e → e.toNat + hundredMs ≤ (s.stamp 12).toNat →
        ∃ t : State, exec .actConfirm s = .next t ∧ t.rf die12 F.fwcActStatusCode = Fw.done ∧
          t.fw.active = 1 - s.fw.active ∧ t.fw.shadow0 = s.fw.shadow0 ∧ t.fw.shadow1 = s.fw.shadow1) ∧
      (s.fw.commitRestart = true → s.rf die12 F.fwcBootStatusCode = Fw.ok → AllMayRestart s → ∃ t : State, exec .actConfirm s = .next t ∧
        t.rf die12 F.fwcActStatusCode = Fw.rolledBack ∧ t.fw.active = s.fw.active ∧
        (∀ e, e < 25 → t.rf (key e 0) F.fwcFwVersion = fwVersionOf (if s.fw.active = 0 then s.fw.shadow0 else s.fw.shadow1)) ∧
        ∀ x ∈ allProcs, t.proc x.1 x.2 = Ps.restarting ∧ t.rf (procBase x.1 x.2) F.fwcProcCause = Cause.activation ∧
          memoriesOf t x.1 x.2 = { code := t.codeSection x.2 }))

/-- Restarts end, and updates are activated.
What the model chooses here: notes/assumptions/41.md. -/
def Obligations.ActivationAndRestartEnd : Prop := RestartsEnd ∧ ActivationGoes

/-! ### Package reset and start-up -/

/-- The package after it has left reset: it is in the hardware phase, with DRAINED as the flash has it. -/
def Sys2Proof.Claims.Leaves (s t : State) : Prop :=
  t.on = true ∧ t.pkg = { s.pkg with resetLow := false, keyReset := false, drained := s.hasDrainRecord, drainedN := !s.hasDrainRecord } ∧
  RegsBut [die12 + F.hltLibVersion.off] s t ∧ t.flash = s.flash ∧ SameBytes s t ∧ t.sessions = s.sessions ∧ t.parts = s.parts

/-- A package reset resets every register, session, queue and partition; SRAM and GDDR7 list nothing (the model's choice for GDDR7,
notes/assumptions/2.md), CXL expanders, host memory, flash and fuses keep what they hold. -/
def Sys2Proof.Claims.Wiped (s t : State) : Prop :=
  t.regs = [] ∧ t.bank = [] ∧ t.sessions = [] ∧ t.queues = [] ∧ t.parts = [] ∧ t.clusters = [] ∧ t.fetch = [] ∧ t.channels = [] ∧ t.posts = [] ∧
  t.links = [] ∧ t.chart = {} ∧ t.fw = {} ∧ t.flash = s.flash ∧ t.sec.revokedFw = s.sec.revokedFw ∧
  t.sec.revokedExam = s.sec.revokedExam ∧ t.pending = s.pending ∧ t.on = false ∧ t.pkg.ready = false ∧
  (∀ d, (t.die d).cards = [] ∧ (t.die d).stamp = 0) ∧
  (Memory.wf s.mem = true → ∀ a, t.byte a = if survives a then s.byte a else 0)

/-- RESET_N low, the removal of power and the reset key wipe the package, and each leaves it off until its own end: RESET_N rising, or the release of
the key's reset, brings it to the first phase of a start. A write of FWC_PKG_RESET without the key does nothing.
What the model chooses here: notes/assumptions/2.md, notes/assumptions/10.md. -/
def Obligations.PackageResets : Prop :=
  (∀ s : State, ∃ t : State, exec .packageReset s = .next t ∧ Wiped s t ∧ t.pkg.powered = true ∧ t.pkg.resetLow = true ∧ t.jtag = s.jtag) ∧
  (∀ s : State, ∃ t : State, exec .vddAuxRemoved s = .next t ∧ Wiped s t ∧ t.pkg.powered = false ∧ t.jtag = {}) ∧
  (∀ s : State, s.dieOn 12 = true → ∃ t : State, exec (.fwcPkgReset 0x5053_5421) s = .next t ∧ Wiped s t ∧ t.pkg.powered = true ∧
    t.pkg.keyReset = true ∧ t.pkg.resetLow = false) ∧
  (∀ (s : State) (v : W32), s.dieOn 12 = true → Recovered s → v ≠ 0x5053_5421 → exec (.fwcPkgReset v) s = .next s) ∧
  (∀ s : State, s.pkg.powered = true → s.pkg.resetLow = true → ∃ t : State, exec .resetNRise s = .next t ∧ Leaves s t) ∧
  (∀ s : State, s.pkg.powered = true → s.pkg.keyReset = true → s.pkg.resetLow = false →
    ∃ t : State, exec .packageResetRelease s = .next t ∧ Leaves s t)

/-- The phases of a start follow each other: hardware, links, (firmware), library, exams with memory training, chart. -/
def Sys2Proof.Claims.StartPhases : Prop :=
  ∀ s : State, s.on = true → Recovered s →
    (∀ ok, s.phase = 1 → ∃ t : State, exec (.startupHardwareDone ok) s = .next t ∧ t.phase = 2 ∧ t.sec.identityFault = !ok ∧
      t.rf die12 F.hltSkeyLo + t.rf die12 F.hltSkeyHi * 2 ^ 32 =
        (if s.bit die12 F.secErrRngHealth then 0 else (Config.freeValue s.fresh).toNat) ∧ t.mem = s.mem) ∧
    (∀ found, s.phase = 2 → ∃ t : State, exec (.linkTrainingDone found) s = .next t ∧ t.phase = 3 ∧
      (hostRoles found = [] → t.bit die12 F.fwcStartStatusNoHostLink = true) ∧
      (hostRoles found ≠ [] → t.rf die12 F.fwcStartStatusNoHostLink = s.rf die12 F.fwcStartStatusNoHostLink) ∧
      ∀ l ∈ hostRoles found, t.rf (lnkBase l) F.lnkCfgRole = 2) ∧
    (s.phase = 5 →
      (s.bankPasses (s.selectedBank.getD 0) = true → ∃ t : State, exec .librarySelect s = .next t ∧ t.phase = 6 ∧
        t.pkg.library = some (s.selectedBank.getD 0) ∧
        t.rf die12 F.fwcStartStatusLibFallback = s.rf die12 F.fwcStartStatusLibFallback ∧ t.flash = s.flash) ∧
      (s.bankPasses (s.selectedBank.getD 0) = false → s.bankPasses (1 - s.selectedBank.getD 0) = true →
        ∃ t : State, exec .librarySelect s = .next t ∧ t.phase = 6 ∧ t.pkg.library = some (1 - s.selectedBank.getD 0) ∧
          t.bit die12 F.fwcStartStatusLibFallback = true ∧ t.flash = s.flash) ∧
      (s.bankPasses (s.selectedBank.getD 0) = false → s.bankPasses (1 - s.selectedBank.getD 0) = false →
        ∃ t : State, exec .librarySelect s = .next t ∧ t.phase = 5 ∧ t.bit die12 F.fwcStartStatusNoLibrary = true ∧ t.pkg = s.pkg)) ∧
    (∀ failed, s.phase = 6 → s.pkg.examsDone = false → s.emergencyNow = false →
      ∃ t : State, exec (.startupExamsDone failed) s = .next t ∧ t.phase = (if s.pkg.trained then 7 else 6) ∧ t.pkg.examsDone = true ∧
        t.pkg.failedExam = failed ∧
        ∀ c : ClusterId, fused c.die c.region = false →
          (t.cl c).lastExam = s.stamp c.die ∧ (c ∉ failed → (t.cl c).lastPass = s.stamp c.die) ∧
          (c ∈ failed → (t.cl c).lastPass = (s.cl c).lastPass ∧ t.bit (key c.die 0) F.hltErrExamFail = true)) ∧
    ∀ (gddr : List GddrTraining) (cxl : List CxlTraining), 5 ≤ s.phase → s.pkg.trained = false → (gddr.map (·.die)).Nodup →
      (cxl.map (·.port)).Nodup →
      ∃ t : State, exec (.gddr7TrainingDone gddr cxl) s = .next t ∧ t.pkg.trained = true ∧
        t.phase = (if s.pkg.examsDone then 7 else s.phase) ∧
        (∀ x ∈ gddr, isPerimeter x.die = true → s.bit (key x.die 0) F.pwrStatusRefclkLost = true → t.gddrSize x.die = 0) ∧
        (∀ x ∈ gddr, isPerimeter x.die = true → s.bit (key x.die 0) F.pwrStatusRefclkLost = false → x.dev0 = x.dev1 → x.dev0 ≠ 0 →
          t.rf (key x.die 0) F.memGdStatusAbsent = 0 ∧ t.rf (key x.die 0) F.memGdStatusTrained = 3 ∧
          t.rf (key x.die 0) F.memGdCfgDensity = x.dev0.val ∧
          t.gddrSize x.die = if x.dev0 = 2 then 0x2_0000_0000 else 0x1_8000_0000) ∧
        (∀ x ∈ gddr, isPerimeter x.die = true → (x.dev0 ≠ x.dev1 ∨ x.dev0 = 0) → t.gddrSize x.die = 0) ∧
        ∀ x ∈ cxl, (x.width = 8 ∨ x.width = 16) → x.gib ≤ 1024 → t.cxlSize x.port = x.gib * 2 ^ 30

/-- The word of a region follows the first row of R472 that holds: slot k is DISABLED and slot 16 stands for it exactly when k alone of slots
0 to 15 failed and slot 16 passed. -/
def Sys2Proof.Claims.RegionWordFollowsTable : Prop :=
  (∀ k, k < 16 → ∀ sl, sl < 17 →
    let w := (buildRegion [k]).1
    (buildRegion [k]).2 = false ∧ bitN w 51 = true ∧ fieldN w 55 52 = k ∧
    fieldN w (3 * sl + 2) (3 * sl) = if sl = k then 3 else if sl = 16 then 2 else 0) ∧
  (∀ sl, sl < 17 → fieldN (buildRegion []).1 (3 * sl + 2) (3 * sl) = (if sl = 16 then 1 else 0) ∧
    fieldN (buildRegion [16]).1 (3 * sl + 2) (3 * sl) = if sl = 16 then 3 else 0) ∧
  ∀ (bad : List Nat) (j k : Nat), j ∈ bad → k ∈ bad → j < k → k ≤ 16 → (buildRegion bad).2 = true ∧
    ∀ sl, sl < 17 → fieldN (buildRegion bad).1 (3 * sl + 2) (3 * sl) = 3

/-- The chart of a start: every region as its exams leave it, a partition in SERVICE for each connected set of dies, READY unless DRAINED. -/
def Sys2Proof.Claims.ChartIsBuilt : Prop :=
  ∀ s : State, s.on = true → Recovered s → s.phase = 7 → s.hasDrainRecord = false → s.pkg.drain = none →
    ∃ t : State, exec .chartBuild s = .next t ∧ t.phase = 8 ∧ t.chart.built = true ∧ t.chart.generation = s.chart.generation + 1 ∧
      t.chart.buildStamp = s.stamp 12 ∧
      t.pkg.ready = !s.pkg.drained ∧ t.pkg.drainedN = (!s.pkg.drained) ∧ t.pkg.drained = s.pkg.drained ∧
      t.parts = (components (~~~ s.chart.failedDies)).map (fun m => { dies := m, state := .service }) ∧
      ∀ d r, d < 25 → r < 8 →
        t.regionWord d r = if fused d r then allDisabled else (buildRegion (s.badSlots [] d r)).1

/-- Queue 0 is enabled on the rings of FWC_ADMIN_*; an address or size out of range sets BAD_ADMIN. -/
def Sys2Proof.Claims.AdminQueueEnables : Prop :=
  ∀ s : State, s.dieOn 12 = true → Recovered s →
    let sq := s.rf die12 F.fwcAdminSqLo + s.rf die12 F.fwcAdminSqHi * 2 ^ 32
    let cq := s.rf die12 F.fwcAdminCqLo + s.rf die12 F.fwcAdminCqHi * 2 ^ 32
    let a := s.rf die12 F.fwcAdminSizeSq
    let b := s.rf die12 F.fwcAdminSizeCq
    ((s.rf die12 F.fwcBootStatusCode ≠ Fw.ok ∨ s.qState 0 ≠ Qs.unused) → exec .fwcAdminEnable s = .next s) ∧
    (s.rf die12 F.fwcBootStatusCode = Fw.ok → s.qState 0 = Qs.unused →
      ((sq % 4096 ≠ 0 ∨ cq % 4096 ≠ 0 ∨ a < 4 ∨ 16 < a ∨ b < 4 ∨ 16 < b) →
        exec .fwcAdminEnable s = .next (s.raise die12 F.fwcAdminCtrlBadAdmin)) ∧
      (sq % 4096 = 0 → cq % 4096 = 0 → 4 ≤ a → a ≤ 16 → 4 ≤ b → b ≤ 16 →
        ∃ t : State, exec .fwcAdminEnable s = .next t ∧ t.qState 0 = s.firstQState 0 ∧
          (s.procRuns 12 sessionCore = true → t.qState 0 = Qs.active) ∧ t.rf (t.qBase 0) F.fwcQOwnerCore = 1 ∧
          t.que 0 = { sq := sq, cq := cq, sqLog2 := a, cqLog2 := b, homeroom := 12 } ∧ t.rf (t.qBase 0) F.fwcQOwnerHomeroom = 12 ∧
          t.rf (t.qBase 0) F.fwcSqTail = 0 ∧ t.rf (t.qBase 0) F.fwcCqHead = 0 ∧ SameBytes s t ∧ t.sessions = s.sessions))

/-- A start: its phases, the chart and the admin queue.
What the model chooses here: notes/assumptions/10.md, notes/assumptions/33.md. -/
def Obligations.StartUpPhases : Prop := StartPhases ∧ RegionWordFollowsTable ∧ ChartIsBuilt ∧ AdminQueueEnables

/-- A requested partition reset: refused while one is in progress, with an unconnected mask or a FAILED die; else its sessions end, its dies form
one partition in START-UP with their stores and buffers zeroed; ready cores bring it, or one in RECOVERY, to SERVICE, or to RECOVERY after a
drain; one that poison keeps in START-UP stays there.
What the model chooses here: notes/assumptions/33.md. -/
def Obligations.PartitionResets : Prop :=
  (∀ s : State, s.dieOn 12 = true →
    let m := BitVec.ofNat 25 (s.rf die12 F.fwcPartDies)
    (s.phase ≠ 8 → Recovered s → exec .fwcPartReset s = .next s) ∧
    (s.phase = 8 → s.partBusy = true → Recovered s → exec .fwcPartReset s = .next (s.raise die12 F.fwcPartStatusPartWhileBusy)) ∧
    (s.phase = 8 → s.partBusy = false → (connected m = false ∨ m &&& s.chart.failedDies ≠ 0) → Recovered s →
      exec .fwcPartReset s = .next (s.raise die12 F.fwcPartStatusBadMask)) ∧
    (s.phase = 8 → s.partBusy = false → connected m = true → m &&& s.chart.failedDies = 0 →
      ∃ u : State, exec .fwcPartReset s = .next u.settle ∧
        u.parts = s.parts.filter (fun p => p.dies &&& (s.affected m ||| m) == 0) ++
          [{ dies := m, waiting := m, poisonResets := (if s.parts.any (fun p => p.dies &&& m != 0 && decide (3 ≤ p.poisonResets)) then 3 else 0) }]
          ++ (components (s.affected m &&& ~~~ m)).map (fun c => { dies := c, waiting := c }) ∧
        u.chart = s.chart ∧
        (∀ n, (s.ses n).dies &&& s.affected m ≠ 0 → (u.ses n).kind = .none) ∧
        ∀ c : ClusterId, m.getLsbD c.die = true → u.exe c = Ex.idle ∧ ∀ a, a < storeSize → u.byte (c.store + a) = 0)) ∧
  ∀ (s : State) (d : Die) (p : Partition), s.dieOn d = true → Recovered s → s.partOf d = some p → (p.state = .startUp ∨ p.state = .recovery) →
    p.waiting ≠ 0 → (diesOf p.dies).all s.coresRun = true →
    (3 ≤ p.poisonResets → ∃ t : State, exec (.partitionReady d) s = .next t ∧ t.partState d = some p.state ∧ t.regs = s.regs ∧
      t.mem = s.mem ∧ t.sessions = s.sessions) ∧
    (p.poisonResets < 3 → ∃ t : State, exec (.partitionReady d) s = .next t ∧ t.regs = s.regs ∧ t.mem = s.mem ∧ t.sessions = s.sessions ∧
      t.partState d = some (if s.pkg.drained || s.pkg.drain.isSome then .recovery else .service) ∧
      ∀ q, t.partOf d = some q → q.dies = p.dies ∧ q.waiting = 0 ∧ q.poisonResets = 0)

/-! ### Memory -/

/-- The entry of a page table that a walk reads at a level. -/
def Sys2Proof.Claims.entryAt (s : State) (table level va : Nat) : Nat := leNat (s.bytes (table + 8 * walkIndex level va) 8)

/-- A table lies where a walk may read it, and its entry for an address is there, well formed and of use for the access. -/
def Sys2Proof.Claims.GoodEntry (s : State) (dies : BitVec 25) (table level va : Nat) (write : Bool) : Prop :=
  let a := table + 8 * walkIndex level va
  s.mayWalk dies table = true ∧ s.mayWalk dies a = true ∧ (∃ d, s.target a = .gddr d) ∧ s.anyPoison a 8 = false ∧
  bitN (entryAt s table level va) 0 = true ∧ badEntry level (entryAt s table level va) = false ∧
  (write = true → bitN (entryAt s table level va) 2 = true)

/-- A walk of four good entries in GDDR7 gives the page of the last and the low bits of the address, writable when every entry is; an entry of level 3
with LEAF maps 2 MiB; an address from 2^48 on, and an entry that is not valid, fault. -/
def Obligations.WalksFollowTables : Prop :=
  ∀ (s : State) (d n va : Nat) (write : Bool),
    let dies := (s.ses n).dies
    let t1 := (s.ses n).root
    let e1 := entryAt s t1 1 va
    let t2 := fieldN e1 51 8 * 256
    let e2 := entryAt s t2 2 va
    let t3 := fieldN e2 51 8 * 256
    let e3 := entryAt s t3 3 va
    let t4 := fieldN e3 51 8 * 256
    let e4 := entryAt s t4 4 va
    let page := fieldN e4 51 8 * 256
    let w3 := bitN e1 2 && bitN e2 2 && bitN e3 2
    (2 ^ 48 ≤ va → s.walk d n va write = .fault Fk.badTarget 1 0) ∧
    (va < 2 ^ 48 → GoodEntry s dies t1 1 va write → GoodEntry s dies t2 2 va write → GoodEntry s dies t3 3 va write →
      (bitN e3 1 = true → s.mayHold dies t4 = true → s.walk d n va write = .ok (t4 + va % 2 ^ 21) w3) ∧
      (bitN e3 1 = false → GoodEntry s dies t4 4 va write → s.mayHold dies page = true →
        s.walk d n va write = .ok (page + va % 2 ^ 16) (w3 && bitN e4 2))) ∧
    (va < 2 ^ 48 → s.mayWalk dies (t1 + 8 * walkIndex 1 va) = true → (∃ g, s.target (t1 + 8 * walkIndex 1 va) = .gddr g) →
      s.anyPoison (t1 + 8 * walkIndex 1 va) 8 = false → bitN e1 0 = false → s.walk d n va write = .fault Fk.notValid 1 (BitVec.ofNat 64 e1))

/-- A queue is parked on a fault that the service core has not yet put into a record, and no packet waits at a link. -/
def Sys2Proof.Claims.Unreported (s : State) (c : ClusterId) (q : FetchNo) (f : QueueFault) : Prop :=
  s.dieOn c.die = true ∧ InService s ∧ Unloaded s ∧ (s.fq c q).fault = some f ∧ s.fqState c q = Fq.parkedFault ∧
  s.procRuns c.die serviceCore = true ∧
  ∀ g ∈ (s.die c.die).faults, c.fetchNo q ∉ g.queues

/-- A fault report whose second walk fails opens a record, which goes into the ring when there is room and a route, or joins the open record of its
page; one whose second walk succeeds lets the queue go on. -/
def Sys2Proof.Claims.FaultsAreReported : Prop :=
  ∀ (s : State) (c : ClusterId) (q : FetchNo) (f : QueueFault), Unreported s c q f →
    let d := c.die.val
    let x := s.die d
    let n := s.fqSession c q
    let size := s.faultSize d
    let g : FaultRecord := { id := x.faultNext, session := n, kind := f.kind, write := f.write, va := f.va, level := f.level,
                             lclus := BitVec.ofNat 16 (s.lclusOfCluster c), queues := [c.fetchNo q], entry := f.entry }
    let i := x.faultWritten % size
    let a := hostAddr (s.rf (key d 0) F.memFaultRingLo + s.rf (key d 0) F.memFaultRingHi * 2 ^ 32 + 32 * i)
    ((s.retryWalk c q).1 = true → ∃ t : State, exec (.serviceFaultReport c q) s = .next t ∧ t.fqState c q = Fq.active ∧
      (t.fq c q).fault = none ∧ (t.die d).faults = x.faults ∧ SameBytes s t ∧ t.sessions = s.sessions) ∧
    ((s.retryWalk c q).1 = false → x.faults.find? (fun g => g.session == n && g.va / 2 ^ 16 == f.va / 2 ^ 16) = none →
      (∀ y ∈ x.faults, y.id ≠ x.faultNext ∧ y.ring = true) →
      (x.faultWritten - x.faultRead < size → ∀ l, s.route d = some l → 2 ≤ (s.lnk l).credits.getD 2 0 → (s.lnk l).unacked ≤ 240 →
        ∃ t : State, exec (.serviceFaultReport c q) s = .next t ∧ (t.die d).faults = x.faults ++ [{ g with ring := true }] ∧
          (t.die d).faultNext = x.faultNext + 1 ∧ (t.die d).faultWritten = x.faultWritten + 1 ∧
          t.rf (key d 0) F.memFaultTail = (x.faultWritten + 1) % size % 4096 ∧ t.fqState c q = Fq.parkedFault ∧
          ∀ e, t.byte e = if a ≤ e ∧ e < a + 32 then (faultBytes d g (phaseOf x.faultWritten size)).getD (e - a) 0 else s.byte e) ∧
      (size ≤ x.faultWritten - x.faultRead →
        ∃ t : State, exec (.serviceFaultReport c q) s = .next t ∧ (t.die d).faults = x.faults ++ [g] ∧
          (t.die d).faultWritten = x.faultWritten ∧ t.bit (key d 0) F.memFaultErrFaultRingFull = true ∧ SameBytes s t)) ∧
    ∀ h, (s.retryWalk c q).1 = false → x.faults.find? (fun g => g.session == n && g.va / 2 ^ 16 == f.va / 2 ^ 16) = some h →
      ∃ t : State, exec (.serviceFaultReport c q) s = .next t ∧ SameBytes s t ∧ (t.die d).faultWritten = x.faultWritten ∧
        (t.die d).faults = x.faults.map (fun y => if y.id = h.id then { h with queues := h.queues ++ [c.fetchNo q] } else y)

/-- An answer closes the record that it names: the queue goes on when its walk succeeds, or is given up: poisoned zeros for a source, the session's end
for a destination. One that names no open record sets STALE_RESP. The limit closes a record as GIVE_UP does. While the service core restarts an
answer waits for it. -/
def Sys2Proof.Claims.FaultsAreAnswered : Prop :=
  (∀ (s : State) (d : Die) (v : W32) (cmd : Instr), s.dieOn d = true → Recovered s → (cmd = .faultResponse d v ∨ cmd = .faultGiveUp d v) →
    (s.die d).faults.find? (fun f => f.ring && f.id.toNat % 65536 == getF v 15 0) = none →
    exec cmd s = .next (s.raise (key d 0) F.memFaultErrStaleResp)) ∧
  ∀ (s : State) (d : Die) (cmd : Instr) (f : FaultRecord) (giveUp : Bool), s.dieOn d = true →
    ((∃ v, (cmd = .faultResponse d v ∨ cmd = .faultGiveUp d v) ∧ giveUp = (getF v 16 16 == 1) ∧
        (s.die d).faults.find? (fun f => f.ring && f.id.toNat % 65536 == getF v 15 0) = some f) ∨
      (cmd = .faultLimitExpiry d f.id ∧ giveUp = true ∧ (s.die d).faults.find? (fun g => g.ring && g.id == f.id) = some f)) →
    (s.rf (procBase d serviceCore) F.fwcProcStatusState = Ps.restarting → Recovered s →
      exec cmd s = .next (s.setDie d { s.die d with answers := (s.die d).answers ++ [(f.id, giveUp)] })) ∧
    ∀ (c : ClusterId) (q : FetchNo) (x : QueueFault), s.rf (procBase d serviceCore) F.fwcProcStatusState ≠ Ps.restarting → InService s →
    Unloaded s → c.die = d → f.queues = [c.fetchNo q] → s.fqState c q = Fq.parkedFault → (s.fq c q).fault = some x →
    let left := (s.die d).faults.filter (fun g => g.id != f.id)
    (giveUp = false → (s.retryWalk c q).1 = true → ∃ t : State, exec cmd s = .next t ∧ t.fqState c q = Fq.active ∧
      t.fq c q = { s.fq c q with fault := none } ∧ (t.die d).faults = left ∧ SameBytes s t ∧ t.sessions = s.sessions) ∧
    ((giveUp = true ∨ (s.retryWalk c q).1 = false) →
      (x.write = false → ∃ t : State, exec cmd s = .next t ∧ t.fqState c q = Fq.active ∧
        t.fq c q = { s.fq c q with fault := none, poisoned := true } ∧ t.bit c.base F.fetErrSrcFaultUnresolved = true ∧
        (t.die d).faults = left ∧ SameBytes s t ∧ t.sessions = s.sessions) ∧
      (x.write = true → ∃ u : State, exec cmd s = .next (u.endSession (s.fqSession c q) St.fetDstFault (u.exeDetail c 0)).settle ∧
        u.bit c.base F.fetErrDstFaultUnresolved = true ∧ (u.die d).faults = left ∧ SameBytes s u ∧ u.sessions = s.sessions))

/-- MEM_FAULT_HEAD consumes the records up to its index. -/
def Sys2Proof.Claims.FaultRingIsConsumed : Prop :=
  ∀ (s : State) (d : Die) (v : W32), s.dieOn d = true → Recovered s →
    let x := s.die d
    let size := s.faultSize d
    let i := getF v 11 0
    let step := (i + size - x.faultRead % size) % size
    i < size → 0 < step → step ≤ x.faultWritten - x.faultRead → (∀ f ∈ x.faults, f.ring = true) →
    ∃ t : State, exec (.memFaultHeadWrite d v) s = .next t ∧ (t.die d).faultRead = x.faultRead + step ∧ (t.die d).faultRead % size = i ∧
      t.rf (key d 0) F.memFaultHead = i ∧ (t.die d).faults = x.faults ∧ RegsBut [key d 0 + F.memFaultHead.off] s t ∧ SameBytes s t ∧
      t.sessions = s.sessions

/-- Translation faults from report to answer.
What the model chooses here: notes/assumptions/34.md, notes/assumptions/43.md. -/
def Obligations.TranslationFaults : Prop := FaultsAreReported ∧ FaultsAreAnswered ∧ FaultRingIsConsumed

/-- GO starts an invalidation, unless one runs or the session is none of this homeroom, and marks the requests in flight that were translated through
what it drops; it completes once none of these is in flight, and then no cache of the partition holds what it drops. -/
def Sys2Proof.Claims.InvalidationRuns : Prop :=
  (∀ (s : State) (d : Die), s.dieOn d = true → Recovered s →
    let b := key d 0
    let n := s.rf b F.memInvCtrlSession
    (s.bit b F.memInvStatusBusy = true → exec (.memInvGo d) s = .next (s.raise b F.memInvStatusInvWhileBusy)) ∧
    (s.bit b F.memInvStatusBusy = false → ((s.ses n).kind = .none ∨ (s.ses n).homeroom ≠ d) →
      exec (.memInvGo d) s = .next (s.raise b F.memInvStatusInvBadSession)) ∧
    (s.bit b F.memInvStatusBusy = false → (s.ses n).kind ≠ .none → (s.ses n).homeroom = d →
      s.bit b F.memInvCtrlAll = false → s.rf b F.memInvLen = 0 → exec (.memInvGo d) s = .next s) ∧
    (s.bit b F.memInvStatusBusy = false → (s.ses n).kind ≠ .none → (s.ses n).homeroom = d →
      (s.bit b F.memInvCtrlAll = true ∨ s.rf b F.memInvLen ≠ 0) →
      ∃ t : State, exec (.memInvGo d) s = .next t ∧ t.bit b F.memInvStatusBusy = true ∧ RegsBut [b + F.memInvStatusBusy.off] s t ∧
        SameBytes s t ∧ t.sessions = s.sessions ∧
        let i : Invalidation := { session := n, first := (s.rf b F.memInvLo + s.rf b F.memInvHi * 2 ^ 32) / 2 ^ 16,
                                  pages := s.rf b F.memInvLen, all := s.bit b F.memInvCtrlAll }
        (t.die d).invalid = some i ∧
        ∀ p, s.partOf d = some p → ∀ (c : ClusterId) (q : FetchNo), p.dies.getLsbD c.die = true → (t.fq c q).inflight =
          (s.fq c q).inflight.map (fun r => if r.pages.any (i.covers (s.fqSession c q)) then { r with old := true } else r))) ∧
  ∀ (s : State) (d : Die) (i : Invalidation) (p : Partition), s.dieOn d = true → Recovered s → (s.die d).invalid = some i →
    s.partOf d = some p → s.oldRequests p.dies i = false →
    ∃ t : State, exec (.invalidationComplete d) s = .next t ∧ t.bit (key d 0) F.memInvStatusBusy = false ∧ (t.die d).invalid = none ∧
      (∀ c : ClusterId, p.dies.getLsbD c.die = true → ∀ x ∈ (t.cl c).cache, x ∈ (s.cl c).cache ∧ i.covers x.session x.page = false) ∧
      (∀ e, e < 25 → p.dies.getLsbD e = true → ∀ x ∈ (t.die e).cache, x ∈ (s.die e).cache ∧ i.covers x.session x.page = false) ∧
      RegsBut [key d 0 + F.memInvStatusBusy.off] s t ∧ SameBytes s t ∧ t.sessions = s.sessions

/-- A write through the SRAM aperture lands in a store while no list may run there and in a die buffer where no window owns the granule, and is
refused with its bit elsewhere; an address that does not exist is recorded. -/
def Sys2Proof.Claims.ApertureWrites : Prop :=
  ∀ (s : State) (by_ : Agent) (entry : Die) (a : Nat) (data : List Byte), s.dieOn entry = true → Recovered s →
    let written := ∃ t : State, exec (.sramApertureWrite by_ entry a data) s = .next t ∧ t.regs = s.regs ∧ t.sessions = s.sessions ∧
      ∀ e, t.byte e = if a ≤ e ∧ e < a + data.length then data.getD (e - a) 0 else s.byte e
    (∀ d r sl o, s.target a = .store d r sl o →
      let b := key d (clusterOff r sl)
      let st := s.rf b F.exeStatusState
      ((st = Ex.idle ∨ st = Ex.ended ∨ st = Ex.halted) → written) ∧
      ((st ≠ Ex.idle ∧ st ≠ Ex.ended ∧ st ≠ Ex.halted) →
        exec (.sramApertureWrite by_ entry a data) s = .next (s.raise b F.clsErrStoreWriteWhileRunning))) ∧
    (∀ d o, s.target a = .dbuf d o → (by_ ≠ .host ∨ o < 0xF0_0000) →
      (s.granuleOwned d o = false → written) ∧
      (s.granuleOwned d o = true →
        exec (.sramApertureWrite by_ entry a data) s = .next ((s.raise (key d 0) F.memErrSramWriteOwned).noteAddr d a))) ∧
    (∀ d o, s.target a = .dbuf d o → by_ = .host → 0xF0_0000 ≤ o → exec (.sramApertureWrite by_ entry a data) s = .next s) ∧
    (s.target a = .absent → ∃ t : State, exec (.sramApertureWrite by_ entry a data) s = .next t ∧ SameBytes s t ∧
      t.bit (key entry 0) F.memGdErrBadAddr = true ∧ t.rf (key entry 0) F.memErrLo = a % 2 ^ 32 ∧
      t.rf (key entry 0) F.memErrHi = a / 2 ^ 32 % 2 ^ 20)

/-- A refresh shows the temperatures of the devices and doubles the rate above 85 °C; a patrol counts the errors it corrects. A slot that is not up
has neither. -/
def Sys2Proof.Claims.RefreshAndPatrol : Prop :=
  (∀ (s : State) (d : Die) (t0 t1 : BitVec 8) (p : Option (Nat × ScrubResult)), s.dieOn d = true → Recovered s → s.gddrUp d = false →
    exec (.gddr7Refresh d t0 t1 p) s = .next s) ∧
  ∀ (s : State) (d : Die) (t0 t1 : BitVec 8), s.dieOn d = true → Recovered s → s.gddrUp d = true →
    let b := key d 0
    (∃ t : State, exec (.gddr7Refresh d t0 t1 none) s = .next t ∧ t.rf b F.memGdTempDev0 = t0.toNat ∧ t.rf b F.memGdTempDev1 = t1.toNat ∧
      t.bit b F.memGdStatusDoubled = decide (85 < t0.toNat ∨ 85 < t1.toNat) ∧ OnlyRegs s t ∧
      RegsBut [b + F.memGdTempDev0.off, b + F.memGdStatusDoubled.off] s t) ∧
    ∀ line, s.bit b F.memGdCfgPatrolEn = true → 64 * line < s.gddrSize d →
      (∃ t : State, exec (.gddr7Refresh d t0 t1 (some (line, .corrected))) s = .next t ∧
        t.rf b F.memGdCe = min (s.rf b F.memGdCe + 1) (2 ^ 16 - 1) ∧ t.bit b F.memGdErrCorrected = true ∧ OnlyRegs s t) ∧
      ∃ u : State, exec (.gddr7Refresh d t0 t1 (some (line, .uncorrectable))) s = .next u.settle ∧
        u.rf b F.memGdUe = min (s.rf b F.memGdUe + 1) (2 ^ 16 - 1) ∧ u.bit b F.memGdErrUncorrectable = true ∧ SameBytes s u ∧
        (s.pdirCount d < 16384 → u.poison.mem (ordinalOf d * 0x800_0000 + line) = true)

/-- A CXL port that goes down shows LINK_DOWN and keeps its capacity; one that trains again is up with its width. -/
def Sys2Proof.Claims.CxlPorts : Prop :=
  ∀ (s : State) (p : Fin 4) (width : Nat), s.dieOn (corners.getD p 0) = true → Recovered s →
    let b := portBase p
    (s.bit b F.memCxlStatusLinkUp = false → exec (.cxlLinkDown p) s = .next s) ∧
    (s.bit b F.memCxlStatusDevicePresent = false ∨ s.bit b F.memCxlStatusLinkUp = true ∨ width ≠ 8 ∧ width ≠ 16 →
      exec (.cxlRetrainDone p width) s = .next s) ∧
    (s.bit b F.memCxlStatusLinkUp = true → ∃ t : State, exec (.cxlLinkDown p) s = .next t ∧ t.bit b F.memCxlStatusLinkUp = false ∧
      t.rf b F.memCxlStatusWidth = 0 ∧ t.bit b F.memCxlErrLinkDown = true ∧ t.cxlSize p = s.cxlSize p ∧ OnlyRegs s t) ∧
    (s.bit b F.memCxlStatusDevicePresent = true → s.bit b F.memCxlStatusLinkUp = false → (width = 8 ∨ width = 16) →
      ∃ t : State, exec (.cxlRetrainDone p width) s = .next t ∧ t.bit b F.memCxlStatusLinkUp = true ∧
        t.rf b F.memCxlStatusWidth = width ∧ RegsBut [b + F.memCxlStatusLinkUp.off] s t ∧ OnlyRegs s t)

/-- Invalidations, the SRAM aperture, GDDR7 and the CXL ports.
What the model chooses here: notes/assumptions/22.md, notes/assumptions/43.md, notes/assumptions/79.md. -/
def Obligations.MemoryUnits : Prop := InvalidationRuns ∧ ApertureWrites ∧ RefreshAndPatrol ∧ CxlPorts

/-! ### Links -/

/-- What the error correction answers is a codeword that differs from the received one in at most four places, and a codeword is answered as it is. -/
def Sys2Proof.Claims.FecStaysClose : Prop :=
  (∀ w : List Nat, (∀ x ∈ syndromes w, x = 0) → rsDecode w = some (w, false)) ∧
  ∀ (w v : List Nat) (fixed : Bool), rsDecode w = some (v, fixed) →
    (∀ x ∈ syndromes v, x = 0) ∧ v.length = w.length ∧
    ((List.range w.length).filter (fun i => v.getD i 0 != w.getD i 0)).length ≤ 4

/-- A flit that is corrected or clean, passes its CRC and carries the next sequence number is accepted: its acknowledgement frees the replay buffer,
its credits count, and unless it is IDLE its payload is counted and a flit goes back with its acknowledgement and credit. One that cannot be
corrected, fails its CRC or comes out of order is refused with a NAK in a flit of its own. A NAK has every flit of the replay buffer sent again as it
was, and takes the link down when one of them has been sent 8 times. -/
def Sys2Proof.Claims.FlitsAreAccepted : Prop :=
  ∀ (s : State) (l : LinkNo) (flit f : List Byte) (fixed : Bool), s.dieOn (linkDie l) = true → Recovered s → s.linkUp l = true →
    let b := lnkBase l
    let x := s.lnk l
    let h := leNat (f.take 8)
    let good := (crc64 (f.take 232)).toNat = beNat (sliceB f 232 8)
    let next := fieldN h 11 0 = (x.rxSeq + 1).toNat
    let full := 256 ≤ x.unacked
    let refused : Link := if full then x else ({ x with nakSent := true } : Link).push true true 0 []
    let nak : List Reply := if full then [] else [.flit l (flitBytes (flitHeader x.txSeq x.rxSeq true true 0 x.owed) [])]
    (fecDecode flit = none → ∃ t : State, exec (.flitReceive l flit) s = .next t ∧ t.lnk l = refused ∧ t.out = s.out ++ nak ∧
      t.regs = s.regs ∧ SameBytes s t) ∧
    (fecDecode flit = some (f, fixed) →
      (¬ good → ∃ t : State, exec (.flitReceive l flit) s = .next t ∧ t.lnk l = refused ∧ t.out = s.out ++ nak ∧
        t.bit b F.lnkErrCrcFail = true ∧ SameBytes s t) ∧
      (good → ¬ next → ∃ t : State, exec (.flitReceive l flit) s = .next t ∧ t.lnk l = (if x.nakSent then x else refused) ∧
        t.out = s.out ++ (if x.nakSent then [] else nak) ∧ SameBytes s t) ∧
      (good → next → x.waiting = [] → NoneHeld s →
        let n := (fieldN h 23 12 + 1 + 4096 - (x.txSeq - BitVec.ofNat 12 x.unacked).toNat) % 4096
        let idle := bitN h 25
        let vc := fieldN h 27 26
        let kept := if n ≤ x.unacked then x.replay.drop n else x.replay
        let y : Link := { x with rxSeq := x.rxSeq + 1, nakSent := false
                                 replay := if bitN h 24 then kept.map (fun g => { g with sends := g.sends + 1 }) else kept
                                 credits := (List.range 4).map (fun i =>
                                   min (x.credits.getD i 0 + fieldN h (39 + 8 * i) (32 + 8 * i)) ([64, 128, 256, 64].getD i 0))
                                 owed := if idle then x.owed else x.owed.set vc (min (x.owed.getD vc 0 + 1) 255) }
        let answers := idle = false ∧ y.unacked < 256
        ((bitN h 24 = true → ∀ g ∈ kept, g.sends < 8) → ∃ t : State, exec (.flitReceive l flit) s = .next t ∧
          t.lnk l = (if answers then y.push false true 0 [] else y) ∧
          t.out = s.out ++ (if bitN h 24 then kept.map (fun g => .flit l g.bytes) else []) ++
            (if answers then [.flit l (flitBytes (flitHeader y.txSeq y.rxSeq false true 0 y.owed) [])] else []) ∧
          t.rf b F.lnkRxBytes = (if idle then s.rf b F.lnkRxBytes else min (s.rf b F.lnkRxBytes + 224) (2 ^ 32 - 1)) ∧
          t.bit b F.lnkErrFecCorrected = (fixed || s.bit b F.lnkErrFecCorrected) ∧
          t.bit b F.lnkErrRetry = (bitN h 24 || s.bit b F.lnkErrRetry) ∧
          t.rf b F.lnkRetries = (if bitN h 24 then min (s.rf b F.lnkRetries + 1) (2 ^ 16 - 1) else s.rf b F.lnkRetries) ∧ SameBytes s t) ∧
        (bitN h 24 = true → (∃ g ∈ kept, 8 ≤ g.sends) → ∃ t : State, exec (.flitReceive l flit) s = .next t ∧
          t.bit b F.lnkErrLinkDown = true ∧ t.linkUp l = false)))

/-- A host link is up on a die whose clocks run, and a packet of n bytes can leave it at once on VC 1. -/
def Sys2Proof.Claims.HostLinkReady (s : State) (l : LinkNo) (n : Nat) : Prop :=
  s.dieOn (linkDie l) = true ∧ s.hostLinkUp l = true ∧ (s.lnk l).waiting = [] ∧ flitsFor n ≤ (s.lnk l).credits.getD 1 0 ∧
  (s.lnk l).unacked + flitsFor n ≤ 256

/-- The posts of 1 that a link channel makes to its semaphore: between dies of its session's partition, or on its own die (R30). -/
def Sys2Proof.Claims.linkPosts (s : State) (l : LinkNo) (r : Bool) (ch k : Nat) : List Post :=
  let d := s.crf l r ch F.lnkChSemDie
  let dies := (s.ses (s.crf l r ch F.lnkChCtrlSession)).dies
  if d = linkDie l ∨ (dies.getLsbD d = true ∧ dies.getLsbD (linkDie l) = true) then
    List.replicate k { src := srcLink l, die := d, sem := s.crf l r ch F.lnkChSemSem, count := 1 }
  else []

/-- Requests of the host: reads are answered with the bytes and the poison of their lines, an absent address with poisoned zeros; writes land; a message
reads or writes one register; host data and acknowledgements are taken. -/
def Sys2Proof.Claims.HostPackets : Prop :=
  (∀ (s : State) (l : LinkNo) (a n : Nat), HostLinkReady s l n → InService s →
    (∀ d, s.target a = .gddr d → ∃ t : State, exec (.readReq l a n) s = .next t ∧
      t.out = s.out ++ [.readData a (s.bytes a n) (s.linePoison a n)] ∧ SameBytes s t ∧ t.sessions = s.sessions) ∧
    (s.target a = .absent → ∃ t : State, exec (.readReq l a n) s = .next t ∧
      t.out = s.out ++ [.readData a (List.replicate n 0) ((linesOf a n).map (fun _ => true))] ∧ SameBytes s t ∧
      t.bit (key (linkDie l) 0) F.memGdErrBadAddr = true)) ∧
  (∀ (s : State) (l : LinkNo) (a : Nat) (data : List Byte), s.dieOn (linkDie l) = true → Recovered s → s.hostLinkUp l = true →
    (∀ d, s.target a = .gddr d → ∃ t : State, exec (.write l a data false) s = .next t ∧ t.regs = s.regs ∧ t.sessions = s.sessions ∧
      ∀ e, t.byte e = if a ≤ e ∧ e < a + data.length then data.getD (e - a) 0 else s.byte e) ∧
    (∀ d off, s.target a = .control d off → off % 4 = 0 → data.length = 4 → s.dieOn (dieNo d) = true →
      exec (.write l a data false) s = .next (s.writeReg .host (dieNo d) off (BitVec.ofNat 32 (leNat data))).settle)) ∧
  (∀ (s : State) (l : LinkNo) (d : Die) (off : BitVec 24) (v : W32), HostLinkReady s l 4 → s.dieOn d = true →
    exec (.msg l true d off v) s = .next (s.writeReg .host d off.toNat v).settle ∧
    (Recovered s → ∃ t : State, exec (.msg l false d off v) s = .next t ∧
      t.out = s.out ++ [.register d off.toNat (s.readReg d off.toNat).1] ∧ SameBytes s t)) ∧
  (∀ (s : State) (l : LinkNo) (addr : Nat) (data : List Byte) (poison : List Bool) (error : Bool), s.dieOn (linkDie l) = true →
    Recovered s → s.hostLinkUp l = true →
    ∃ t : State, exec (.readData l addr data poison error) s = .next t ∧ t.regs = s.regs ∧ t.sessions = s.sessions ∧
      ∀ e, t.byte e = (if hostAddr addr ≤ e ∧ e < hostAddr addr + data.length then (if error then 0 else data.getD (e - hostAddr addr) 0)
        else s.byte e) ∧
        (error = true → hostAddr addr ≤ e → e < hostAddr addr + data.length → t.poisoned e = true)) ∧
  (∀ (s : State) (l : LinkNo) (n : Nat), s.dieOn (linkDie l) = true → s.linkUp l = true →
    ∃ u : State, exec (.ack l n none) s = .next u.flushAll.settle ∧ u = { s with hostw := u.hostw } ∧
      u.hostw.filter (fun w => w.link != l.val) = s.hostw.filter (fun w => w.link != l.val) ∧
      u.hostw.filter (fun w => w.link == l.val) = (s.hostw.filter (fun w => w.link == l.val)).drop n) ∧
  ∀ (s : State) (l : LinkNo) (ch : Fin 32) (k : Nat), s.dieOn (linkDie l) = true → s.linkUp l = true →
    s.crf l false ch F.lnkChStatusActive = 1 → (s.ses (s.crf l false ch F.lnkChCtrlSession)).pauseTo = none →
    let c := Sparse.get (fun _ => {}) (s.lnk l).tx ch
    k ≤ c.sent - c.credited →
    ∃ u : State, exec (.ack l 0 (some (ch, k))) s = .next u.flushAll.settle ∧ u.regs = s.regs ∧
      (Sparse.get (fun _ => {}) (u.lnk l).tx ch : LinkChannel) = { c with credited := c.credited + k } ∧
      u.posts = s.posts ++ linkPosts s l false ch k

/-- The dies whose packets wait at a link take turns: the one served goes on for the lines left of its turn, then the next with packets that may be sent
has as many lines as its share, 0 counting as 1. -/
def Sys2Proof.Claims.DiesTakeTurns : Prop :=
  (∀ (weight : Nat → Nat) (busy : Nat → Bool) (turn left : Nat),
    (busy turn = true → left ≠ 0 → nextTurn weight busy turn left = some (turn, left)) ∧
    ∀ d k, turn < 25 → (busy turn = false ∨ left = 0) → nextTurn weight busy turn left = some (d, k) →
      busy d = true ∧ k = weight d ∧ d < 25 ∧ ∀ e, e < 25 → busy e = true → e ≠ d → (d + 25 - turn - 1) % 25 < (e + 25 - turn - 1) % 25) ∧
  ∀ (s : State) (l : LinkNo) (p : Packet), (s.lnk l).waiting = [p] → (s.lnk l).mayServe p = true → p.src < 25 → 0 < p.lines →
    ((s.pump l).lnk l).waiting = [] ∧ (s.pump l).out = s.out ++ [p.reply]

/-- Flits and the packets between a host and the device.
What the model chooses here: notes/assumptions/30.md, notes/assumptions/31.md, notes/assumptions/76.md. -/
def Obligations.FlitsAndPackets : Prop := FecStaysClose ∧ FlitsAreAccepted ∧ DiesTakeTurns ∧ HostPackets

/-- Nothing of the host's traffic is under way: no packet, write or request waits, and every write is acknowledged. -/
def Sys2Proof.Claims.NoHostTraffic (s : State) : Prop :=
  Unloaded s ∧ NoneHeld s ∧ s.hostw = [] ∧ ∀ d, (s.die d).hostHeld = []

/-- A link that goes down shows it, trains again when AUTO_RETRAIN is 1 and it is not expelled, and a die whose primary it was switches to a secondary
that is up and sends its unacknowledged writes again there. -/
def Sys2Proof.Claims.WentDown (s t : State) (l : LinkNo) : Prop :=
  let b := lnkBase l
  t.bit b F.lnkErrLinkDown = true ∧ t.rf b F.lnkDowns = min (s.rf b F.lnkDowns + 1) (2 ^ 16 - 1) ∧ t.rf b F.lnkStatusLanes = 0 ∧
  t.rf b F.lnkStatusState = (if s.bit b F.lnkCfgAutoRetrain && !(s.lnk l).expelled then 1 else 0) ∧
  (t.lnk l).waiting = (s.lnk l).waiting.filter (fun p => match p.reply with
    | .chanAbort _ _ _ => true | .digests _ _ _ => true | .library _ _ => true | _ => false) ∧ (t.lnk l).credits = [0, 0, 0, 0] ∧
  (t.lnk l).replay = [] ∧ (NoHostTraffic s → SameBytes s t) ∧ t.sessions = s.sessions ∧
  ∀ d q, d < 25 → s.bit (key d 0) F.lnkHrouteUsingSecondary = false → s.bit (key d 0) F.lnkHroutePrimaryValid = true →
    s.rf (key d 0) F.lnkHroutePrimary = l → s.bit (key d 0) F.lnkHrouteSecondaryValid = true →
    q = s.rf (key d 0) F.lnkHrouteSecondary → s.hostLinkUp q = true → q ≠ l →
    t.bit (key d 0) F.lnkHrouteUsingSecondary = true ∧ t.bit b F.lnkErrHostFailover = true ∧
    ∀ w ∈ s.hostw, w.die = d → w.link = l → { w with link := q, again := true } ∈ t.hostw ++ (t.lnk q).waitingWrites

/-- The events that take a link down, and its training, in which its identity word goes out: a link of an expelled device, and one of a die without its
reference clock, stays down. -/
def Sys2Proof.Claims.LinksGoDownAndTrain : Prop :=
  (∀ (s : State) (l : LinkNo), s.dieOn (linkDie l) = true → Recovered s → NoneHeld s → s.linkUp l = true →
    (∃ t : State, exec (.linkSilenceTimeout l) s = .next t ∧ WentDown s t l ∧ (t.lnk l).keepHalf = (s.lnk l).keepHalf) ∧
    (s.rf (lnkBase l) F.lnkStatusState = 2 → ∃ t : State, exec (.laneLockLoss l) s = .next t ∧ WentDown s t l ∧
      (t.lnk l).keepHalf = true) ∧
    ∃ t : State, exec (.retrain l) s = .next t ∧
      (s.bit (key (linkDie l) 0) F.pwrStatusRefclkLost = false → t.rf (lnkBase l) F.lnkStatusState = 1) ∧ t.bit (lnkBase l) F.lnkErrLinkDown = true ∧
      (t.lnk l).keepHalf = false ∧ (t.lnk l).expelled = false ∧ (NoHostTraffic s → SameBytes s t) ∧ t.sessions = s.sessions) ∧
  ∀ (s : State) (x : Training), s.dieOn (linkDie x.link) = true → s.rf (lnkBase x.link) F.lnkStatusState = 1 →
    let l := x.link
    let b := lnkBase l
    let role := s.rf b F.lnkCfgRole
    let lanes := if x.lowOk && x.highOk && !(s.lnk l).keepHalf then 8 else 4
    let g := key (linkDie l) 0
    let trains := (x.lowOk = true ∨ x.highOk = true) ∧ x.partner ≠ .none ∧ (s.lnk l).expelled = false ∧ s.bit g F.pwrStatusRefclkLost = false
    let sent := s.out ++ [.identity l (BitVec.ofNat 16 (s.rf g F.lnkGroupGroup)) (s.rf g F.lnkGroupDevice)]
    let others := s.otherHostLinks l
    let up := ∃ v : State, exec (.linkTrainDone x) s = .next v.routesUp.settle ∧ v.rf b F.lnkStatusState = (if lanes = 8 then 2 else 3) ∧
      v.rf b F.lnkStatusLanes = lanes ∧ (v.lnk l).role = role ∧ (v.lnk l).keepHalf = decide (lanes = 4) ∧
      v.rf b F.lnkRtt = min x.rttNs 0xFFFF ∧ (NoHostTraffic s → SameBytes s v) ∧ v.sessions = s.sessions ∧ ∃ more, v.out = sent ++ more
    let stays := fun (f : Fld) (state : Nat) => ∃ t : State, exec (.linkTrainDone x) s = .next t ∧ t.rf b F.lnkStatusState = state ∧
      t.bit b f = true ∧ t = { s with regs := t.regs, out := sent }
    let fails := ∃ t : State, exec (.linkTrainDone x) s = .next t ∧ t.rf b F.lnkStatusState = 0 ∧ t = { s with regs := t.regs, out := sent }
    (Recovered s → ¬ trains → fails) ∧
    (Recovered s → trains → x.rttNs ≤ 400 → role ≠ 2 → (role ≠ 1 ∨ ∃ a p, x.partner = .mha4 a p) → fails) ∧
    (Recovered s → trains → 400 < x.rttNs → stays F.lnkErrRttTooLong 0) ∧
    (trains → x.rttNs ≤ 400 →
      (∀ a p, x.partner = .mha4 a p → role = 2 → others.length < 4 → (∀ k ∈ others, linkDie k ≠ linkDie l) → up) ∧
      (∀ a p, Recovered s → x.partner = .mha4 a p → role = 2 → (4 ≤ others.length ∨ ∃ k ∈ others, linkDie k = linkDie l) →
        stays F.lnkErrRoleRefused 4) ∧
      (∀ g d k, Recovered s → x.partner = .cq25 g d k → role = 2 → stays F.lnkErrRoleRefused 4) ∧
      (∀ g d k, x.partner = .cq25 g d k → role = 1 → g.toNat = s.rf (key (linkDie l) 0) F.lnkGroupGroup → up) ∧
      (∀ g d k, Recovered s → x.partner = .cq25 g d k → role = 1 → g.toNat ≠ s.rf (key (linkDie l) 0) F.lnkGroupGroup →
        stays F.lnkErrGroupMismatch 0))

/-- A die without a host link up for 10 µs loses the host writes of sessions, which end, with WRITE_REFUSED at the queue that made one; a die told to return
to its primary does so. -/
def Sys2Proof.Claims.HostRoutes : Prop :=
  (∀ (s : State) (d : Die), s.dieOn d = true →
    (Recovered s → s.anyHostLink d = true → exec (.hostRouteTimeout d) s = .next s) ∧
    (s.anyHostLink d = false →
      let ws := (s.die d).hostHeld ++ s.hostw.filter (fun w => w.die == d.val)
      let lost := ((ws.filter (fun w => w.ses != noSessionMark)).map (·.ses)).eraseDups
      ∃ u : State, exec (.hostRouteTimeout d) s = .next (lost.foldl (fun s n => s.endSession n St.fetDstFault) u).settle ∧
        (u.die d).noRoute = true ∧ (u.die d).hostHeld = (s.die d).hostHeld.filter (fun w => w.ses == noSessionMark) ∧
        u.hostw = s.hostw.filter (fun w => !(w.die == d.val && w.ses != noSessionMark)) ∧ SameBytes s u ∧
        ((∀ w ∈ ws, w.ses ≠ noSessionMark → w.queue = none) → u.regs = s.regs) ∧
        ∀ w ∈ ws, w.ses ≠ noSessionMark → ∀ (c : ClusterId) (q : FetchNo), w.queue = some (c.fetchNo q) →
          u.bit c.base F.fetErrWriteRefused = true)) ∧
  ∀ (s : State) (d : Die), s.dieOn d = true → s.bit (key d 0) F.lnkHrouteUsingSecondary = true →
    let p := s.rf (key d 0) F.lnkHroutePrimary
    let usable := s.bit (key d 0) F.lnkHroutePrimaryValid && s.hostLinkUp p
    ∃ v : State, v.bit (key d 0) F.lnkHrouteUsingSecondary = false ∧
      (usable = true → v.route d = some p ∧ OnlyRegs s v ∧ RegsBut [key d 0 + F.lnkHroutePrimary.off] s v ∧
        exec (.usingSecondaryClear d) s = .next v.routesUp.settle) ∧
      (usable = false → Recovered s → v.route d = none ∧ v.bit (key d 0) F.lnkDieErrHostLost = true ∧ OnlyRegs s v ∧
        exec (.usingSecondaryClear d) s = .next v)

/-- Loss and training of links, and the routes to the host.
What the model chooses here: notes/assumptions/40.md, notes/assumptions/76.md. -/
def Obligations.LinksAndRoutes : Prop := LinksGoDownAndTrain ∧ HostRoutes

/-- Lines go from a transmit ring to a receive ring in order, each once written whole, into free lines only; a repeated line is discarded, and so is one
for a place that has not been read whole. -/
def Sys2Proof.Claims.LinesGoInOrder : Prop :=
  (∀ (s : State) (l : LinkNo) (ch : Fin 32) (line : List Byte), s.dieOn (linkDie l) = true → Recovered s → s.groupLinkUp l = true →
    s.crf l true ch F.lnkChStatusActive = 1 → line.length = 64 →
    let c := Sparse.get (fun _ => ({} : LinkChannel)) (s.lnk l).rx ch
    let a := c.base + 64 * (c.written % max 1 c.lines)
    let due := decide (s.crf l true ch F.lnkChSemPostLines ≤ c.unposted + 1)
    (0 < c.skip → ∃ t : State, exec (.chan l ch line) s = .next t ∧ SameBytes s t ∧ t.posts = s.posts ∧ t.regs = s.regs ∧
      (Sparse.get (fun _ => {}) (t.lnk l).rx ch : LinkChannel) = { c with skip := c.skip - 1 }) ∧
    (c.skip = 0 → c.full.mem (c.written % max 1 c.lines) = true → exec (.chan l ch line) s = .next s) ∧
    (c.skip = 0 → c.full.mem (c.written % max 1 c.lines) = false →
      ∃ t : State, exec (.chan l ch line) s = .next t ∧ t.regs = s.regs ∧ t.sessions = s.sessions ∧
        (Sparse.get (fun _ => ({} : LinkChannel)) (t.lnk l).rx ch).written = c.written + 1 ∧
        (Sparse.get (fun _ => ({} : LinkChannel)) (t.lnk l).rx ch).freed = c.freed ∧
        (Sparse.get (fun _ => ({} : LinkChannel)) (t.lnk l).rx ch).full.mem (c.written % max 1 c.lines) = true ∧
        t.posts = s.posts ++ (if due then linkPosts s l true ch 1 else []) ∧
        ∀ e, t.byte e = if a ≤ e ∧ e < a + 64 then line.getD (e - a) 0 else s.byte e)) ∧
  ∀ (s : State) (l : LinkNo) (ch : Fin 32), s.dieOn (linkDie l) = true → s.groupLinkUp l = true →
    s.crf l false ch F.lnkChStatusActive = 1 →
    let c := Sparse.get (fun _ => ({} : LinkChannel)) (s.lnk l).tx ch
    let a := c.base + 64 * (c.sent % max 1 c.lines)
    c.sent - c.credited < c.lines → Sparse.get (fun _ => 0) c.covered (a / 64) = allCovered →
    (s.poisoned a = true → exec (.chanLineSend l ch) s =
      .next ((s.poisonEvent (linkDie l)).poisonEnd (s.crf l false ch F.lnkChCtrlSession)).settle) ∧
    (s.poisoned a = false → Recovered s → (s.lnk l).waiting = [] → 1 ≤ (s.lnk l).credits.getD 2 0 → (s.lnk l).unacked < 256 →
      ∃ t : State, exec (.chanLineSend l ch) s = .next t ∧ t.out = s.out ++ [.line l ch (s.bytes a 64)] ∧ SameBytes s t ∧
        (Sparse.get (fun _ => ({} : LinkChannel)) (t.lnk l).tx ch).sent = c.sent + 1 ∧
        Sparse.get (fun _ => 0) (Sparse.get (fun _ => ({} : LinkChannel)) (t.lnk l).tx ch).covered (a / 64) = 0 ∧
        (t.lnk l).txSeq = (s.lnk l).txSeq + 1)

/-- The channel that LNK_CH_SEL selects is enabled from ring position 0 when its ring is in order and the partner's channel, which a free value stands for,
is enabled; else BAD_CHANNEL is set. ABORT ends the session and tells the partner; the partner's abort ends the sessions of both directions; a link
that stays down for LNK_HOLD loses every channel. -/
def Sys2Proof.Claims.ChannelsOpenAndEnd : Prop :=
  (∀ (s : State) (l : LinkNo), s.dieOn (linkDie l) = true →
    let r := (s.selChannel l).1
    let ch := (s.selChannel l).2
    let n := s.crf l r ch F.lnkChCtrlSession
    (s.crf l r ch F.lnkChCtrlEnable ≠ 1 → Recovered s →
      (s.goodLinkChannel l r ch = false → exec (.lnkChEnable l) s = .next (s.raise (lnkBase l) F.lnkErrBadChannel)) ∧
      (s.goodLinkChannel l r ch = true → s.free.1.getLsbD 0 = false →
        exec (.lnkChEnable l) s = .next (s.free.2.raise (lnkBase l) F.lnkErrBadChannel)) ∧
      (s.goodLinkChannel l r ch = true → s.free.1.getLsbD 0 = true → ∃ t : State, exec (.lnkChEnable l) s = .next t ∧ t.crf l r ch F.lnkChCtrlEnable = 1 ∧
        t.crf l r ch F.lnkChStatusActive = 1 ∧ t.crf l r ch F.lnkChStatusAborted = 0 ∧ t.regs = s.regs ∧ SameBytes s t ∧
        (Sparse.get (fun _ => {}) (if r then (t.lnk l).rx else (t.lnk l).tx) ch : LinkChannel) =
          { base := s.windowAddr n (linkDie l) (s.crf l r ch F.lnkChRing), lines := s.crf l r ch F.lnkChSize })) ∧
    (s.crf l r ch F.lnkChCtrlEnable = 1 →
      ∃ u : State, exec (.lnkChAbort l) s = .next (u.endSession n St.poisonConsumed).settle ∧ u.crf l r ch F.lnkChCtrlEnable = 0 ∧
        u.crf l r ch F.lnkChStatusActive = 0 ∧ u.crf l r ch F.lnkChStatusAborted = 1 ∧
        ((s.lnk l).waiting = [] → 1 ≤ (s.lnk l).credits.getD 3 0 → (s.lnk l).unacked < 256 →
          u.out = s.out ++ [.chanAbort l ch St.poisonConsumed]) ∧
        (Unloaded s → SameBytes s u) ∧ u.sessions = s.sessions)) ∧
  (∀ (s : State) (l : LinkNo) (ch : Fin 32) (status : Nat), s.dieOn (linkDie l) = true → s.linkUp l = true →
    ∃ u : State, exec (.mgmt l (.abort ch status)) s = .next u.settle ∧
      ∀ r, u.crf l r ch F.lnkChCtrlEnable = (if s.crf l r ch F.lnkChCtrlEnable = 1 then 0 else s.crf l r ch F.lnkChCtrlEnable) ∧
        (s.crf l r ch F.lnkChCtrlEnable = 1 → (u.ses (s.crf l r ch F.lnkChCtrlSession)).kind = .none)) ∧
  ∀ (s : State) (l : LinkNo), s.dieOn (linkDie l) = true →
    ((s.lnk l).role = 1 → s.linkUp l = false → ∃ u : State, exec (.lnkHoldExpiry l) s = .next u.settle ∧
      ∀ r (ch : Fin 32), u.crf l r ch F.lnkChCtrlEnable = 0 ∧
        (s.crf l r ch F.lnkChCtrlEnable = 1 → (u.ses (s.crf l r ch F.lnkChCtrlSession)).kind = .none)) ∧
    (Recovered s → ((s.lnk l).role ≠ 1 ∨ s.linkUp l = true) → exec (.lnkHoldExpiry l) s = .next s)

/-- Management packets: digests of a device are kept until every device of the session has sent its own, and without a majority the session ends; a
library that another device forwards is installed. -/
def Sys2Proof.Claims.ManagementPackets : Prop :=
  (∀ (s : State) (l : LinkNo) (device : Fin 32) (n : SessionNo) (values : List (List Byte)), s.dieOn (linkDie l) = true → s.linkUp l = true →
    (s.ses n).kind ≠ .none → (s.replicaDevices n).contains device.val = true →
    let r := Sparse.put (fun _ => []) (s.ses n).replicas device values
    let u := s.setSes n { s.ses n with replicas := r }
    let all := (s.replicaDevices n).all (fun d => r.any (fun e => e.1 == d))
    (all = false → Recovered s → exec (.mgmt l (.digests device n values)) s = .next u) ∧
    (all = true → majority ((s.ses n).image.loadDigests :: r.map (·.2)) = none →
      ∃ v : State, exec (.mgmt l (.digests device n values)) s = .next (v.endSession n St.fetDstFault).settle ∧ SameBytes s v ∧
        v.ses n = { s.ses n with replicas := [] } ∧ v.pkg = s.pkg)) ∧
  (∀ (s : State) (l : LinkNo) (b : List Byte), s.dieOn (linkDie l) = true → Recovered s → s.linkUp l = true → s.ect.staging = false →
    s.rf die12 F.hltLibStatusCode ≠ Lib.writing → s.rf die12 F.hltLibStatusCode ≠ Lib.verifying → b.length ≤ bankSize →
    ∃ t : State, exec (.mgmt l (.library b)) s = .next t ∧ t.rf die12 F.hltLibStatusCode = Lib.writing ∧
      t.pkg.install = some { bank := s.inactiveBank, len := b.length, staged := false } ∧
      ∀ i, i < b.length → t.flashByte (bankBase s.inactiveBank + i) = b.getD i 0) ∧
  ∀ (xs : List (List (List Byte))) (x : List (List Byte)), majority xs = some x ↔ xs.length < 2 * xs.count x

/-- Link channels and management packets.
What the model chooses here: notes/assumptions/40.md. -/
def Obligations.LinkChannels : Prop := LinesGoInOrder ∧ ChannelsOpenAndEnd ∧ ManagementPackets

/-! ### Power -/

/-- The EMERGENCY bit of every die shows its emergency, and PKG_EMERGENCY whether any die has one. -/
def Sys2Proof.Claims.EmergencyShown (t : State) : Prop :=
  ∀ d, d < 25 → t.bit (key d 0) F.pwrStatusEmergency = t.emergencyOf d ∧ t.bit (key d 0) F.pwrStatusPkgEmergency = t.emergencyNow

/-- The limiter's caps: dies above 20 W are cut by exactly their shares of the excess (rounded down), and none below 20 W. -/
def Sys2Proof.Claims.CapsRemoveExcess : Prop :=
  ∀ (ps : List Nat) (excess : Nat),
    let above := ps.filter (fun p => decide (floorEighths < p))
    let total := (above.map (· - floorEighths)).sum
    excess ≤ total → above ≠ [] →
    ((above.map (fun p => dieCap p excess total)).sum + excess ≤ above.sum) ∧
    above.sum < (above.map (fun p => dieCap p excess total)).sum + excess + above.length ∧
    ∀ p ∈ above, floorEighths ≤ dieCap p excess total ∧ dieCap p excess total ≤ p

/-- A period of the limiter shows the powers and sets every die's cap, which ends its fallback; 1 ms without one is 48 W. -/
def Sys2Proof.Claims.LimiterPeriods : Prop :=
  (∀ (s : State) (ps : List Nat) (mem avg : Nat), s.dieOn 12 = true → Recovered s →
    let pkg := ps.sum + mem
    let total := ((ps.filter (fun p => decide (floorEighths < p))).map (· - floorEighths)).sum
    ∃ t : State, exec (.limiterPeriod ps mem avg) s = .next t ∧ EmergencyShown t ∧ t.pkg.power = pkg / 8 ∧ t.pkg.avgPower = avg ∧
      t.rf die12 F.pwrPkgPowerNow = min (pkg / 8) 0xFFFF ∧ t.rf die12 F.pwrPkgPowerAvg = min avg 0xFFFF ∧ SameBytes s t ∧
      t.sessions = s.sessions ∧
      ∀ d, d < 25 →
        let cap := nextCap (s.die d).limit (ps.getD d 0) pkg total (s.rf (key d 0) F.pwrCeilCap)
        (t.die d).limit = cap ∧ t.rf (key d 0) F.pwrDieCap = cap % 2 ^ 16 ∧ t.bit (key d 0) F.pwrStatusCapFallback = false ∧
        t.rf (key d 0) F.pwrDiePower = min (ps.getD d 0) 0xFFFF) ∧
  ∀ (s : State) (d : Die), s.dieOn d = true → Recovered s →
    let b := key d 0
    ∃ t : State, exec (.capFallback d) s = .next t ∧ t.rf b F.pwrDieCap = 384 ∧ t.bit b F.pwrStatusCapFallback = true ∧
      t.bit b F.pwrErrCapFallback = true ∧ OnlyRegs s t ∧
      RegsBut [b + F.pwrDieCap.off, b + F.pwrStatusCapFallback.off, b + F.pwrErrCapFallback.off] s t

/-- The cap ceiling steps by 8 MHz between 200 and 1,600 MHz: down above the cap, up at 2 W or more below it. -/
def Sys2Proof.Claims.CapCeilingSteps : Prop :=
  ∀ (s : State) (d : Die), s.dieOn d = true → Recovered s →
    let b := key d 0
    let p := s.rf b F.pwrDiePower
    let cap := s.rf b F.pwrDieCap
    let c := s.rf b F.pwrCeilCap
    200 ≤ c → c ≤ 1600 →
    ∃ t : State, exec (.capCeilingStep d) s = .next t ∧ OnlyRegs s t ∧
      t.rf b F.pwrCeilThermal = s.rf b F.pwrCeilThermal ∧ 200 ≤ t.rf b F.pwrCeilCap ∧ t.rf b F.pwrCeilCap ≤ 1600 ∧
      t.bit b F.pwrStatusThrottleP = decide (t.rf b F.pwrCeilCap < 1600) ∧
      (cap < p → cap ≠ 0xFFFF → t.rf b F.pwrCeilCap = max 200 (c - 8)) ∧
      (p + 16 ≤ cap → t.rf b F.pwrCeilCap = min 1600 (c + 8)) ∧
      (p ≤ cap → cap < p + 16 → cap ≠ 0xFFFF → t.rf b F.pwrCeilCap = c)

/-- The thermal ceiling follows the hottest sensor: 200 MHz from 105 °C on, down above 95 °C, up below 93 °C; emergency from 105 °C until below 100 °C;
115 °C trips the die.
What the model chooses here: notes/assumptions/35.md. -/
def Obligations.ThermalCeiling : Prop :=
  (∀ (c : Nat) (t : Int), (840 ≤ t → nextCeiling c t = 200) ∧ (760 < t → t < 840 → nextCeiling c t = max 200 (c - 8)) ∧
    (744 ≤ t → t ≤ 760 → nextCeiling c t = c) ∧ (t < 744 → nextCeiling c t = min 1600 (c + 8))) ∧
  ∀ (s : State) (d : Die) (sensors : List (BitVec 16)), s.dieOn d = true → Recovered s → sensors.length = 9 →
    let b := key d 0
    let t := hottest sensors
    t.2 < 9 ∧ sensors[t.2]?.map (fun v => v.toInt) = some t.1 ∧ (∀ v ∈ sensors, v.toInt ≤ t.1) ∧
    ∃ u : State, exec (.thermalCeilingStep d sensors) s = .next u ∧ u.rf b F.pwrTjTemp = (BitVec.ofInt 16 t.1).toNat ∧
      u.rf b F.pwrTjSensor = t.2 ∧ u.rf b F.pwrCeilThermal = nextCeiling (s.rf b F.pwrCeilThermal) t.1 ∧
      u.rf b F.pwrCeilCap = s.rf b F.pwrCeilCap ∧ u.bit b F.pwrStatusThrottleT = decide (u.rf b F.pwrCeilThermal < 1600) ∧
      EmergencyShown u ∧ (u.die d).hot = (if 840 ≤ t.1 then true else if t.1 < 800 then false else (s.die d).hot) ∧
      (u.die d).tripped = decide (920 ≤ t.1) ∧ SameBytes s u ∧ u.sessions = s.sessions

/-- Requests for a clock and for a supply are clamped to their ranges. -/
def Sys2Proof.Claims.RequestsAreClamped : Prop :=
  (∀ (s : State) (d : Die) (v : W32), s.dieOn d = true → Recovered s →
    let b := key d 0
    let x := getF v 11 0 / 8 * 8
    ∃ t : State, exec (.pwrFreqReqWrite d v) s = .next t ∧ OnlyRegs s t ∧ t.rf b F.pwrFreqReq = min 1600 (max 200 x) ∧
      RegsBut [b + F.pwrFreqReq.off, b + F.pwrErrFreqClamped.off] s t ∧
      ((200 ≤ x ∧ x ≤ 1600) → t.rf b F.pwrErrFreqClamped = s.rf b F.pwrErrFreqClamped) ∧
      ((x < 200 ∨ 1600 < x) → t.bit b F.pwrErrFreqClamped = true)) ∧
  ∀ (s : State) (d : Die) (v : W32), s.dieOn d = true → Recovered s →
    let b := key d 0
    let r := s.rf b F.pwrVregSel
    let x := getF v 9 0
    let y := min (vop d r + 25) (max 600 x)
    ∃ t : State, exec (.pwrVregWrite d v) s = .next t ∧ t.vWanted d r = y ∧ SameBytes s t ∧ t.sessions = s.sessions ∧
      RegsBut [b + F.pwrErrVoutClamped.off] s t ∧
      (fused d r = false → (∀ k ∈ (s.die d).recess, k / 17 ≠ r) → t.vApplied d r = y) ∧
      ((600 ≤ x ∧ x ≤ vop d r + 25) → t.rf b F.pwrErrVoutClamped = s.rf b F.pwrErrVoutClamped) ∧
      ((x < 600 ∨ vop d r + 25 < x) → t.bit b F.pwrErrVoutClamped = true)

/-- The limiter, the cap ceiling and the requests for clock and supply.
What the model chooses here: notes/assumptions/35.md. -/
def Obligations.LimiterAndCeilings : Prop := CapsRemoveExcess ∧ LimiterPeriods ∧ CapCeilingSteps ∧ RequestsAreClamped

/-- Regulators answer, with their voltage in linear16 form, or fail; a fault or a lost regulator is an emergency of every die that it feeds. A lost reference clock takes the die's links and
GDDR7 away; a trip stops the die's clocks.
What the model chooses here: notes/assumptions/35.md. -/
def Obligations.RegulatorsAndTrips : Prop :=
  (∀ (s : State) (readings : List RailReading), s.dieOn 12 = true → Recovered s → (readings.map (·.address)).Nodup →
    ∃ t : State, exec (.pmbusPoll readings) s = .next t ∧ EmergencyShown t ∧ SameBytes s t ∧ t.sessions = s.sessions ∧
      ∀ x ∈ readings, railAddresses.contains x.address.toNat = true →
        let old := s.rail x.address.toNat
        (∀ y, x.answer = some y →
          t.rail x.address.toNat = { vout := (linear16 y.mode y.vout).elim old.vout (fun mv => BitVec.ofNat 16 (min mv 0xFFFF))
                                     iout := y.iout, status := y.status, present := old.present || s.phase == 1 } ∧
          (railBad y.status = true → ∀ d ∈ fedBy x.address.toNat, t.bit (key d 0) F.pwrErrRegFault = true ∧
            t.bit (key d 0) F.pwrStatusEmergency = true)) ∧
        (x.answer = none → t.rail x.address.toNat = { old with fails := old.fails + 1, lost := decide (3 ≤ old.fails + 1) } ∧
          (x.pec = true → t.bit die12 F.pwrErrPmbusPec = true) ∧
          (3 ≤ old.fails + 1 → ∀ d ∈ fedBy x.address.toNat, t.bit (key d 0) F.pwrErrRegLost = true ∧
            t.bit (key d 0) F.pwrStatusEmergency = true))) ∧
  (∀ (s : State) (a : BitVec 7) (st : BitVec 16), s.dieOn 12 = true → Recovered s →
    (railAddresses.contains a.toNat = false → exec (.pmbAlert a st) s = .next s) ∧
    (railAddresses.contains a.toNat = true → ∃ t : State, exec (.pmbAlert a st) s = .next t ∧ EmergencyShown t ∧
      t.rail a.toNat = { s.rail a.toNat with status := st, fails := 0, lost := false } ∧ SameBytes s t ∧ t.sessions = s.sessions ∧
      (railBad st = true → ∀ d ∈ fedBy a.toNat, t.bit (key d 0) F.pwrErrRegFault = true ∧ t.bit (key d 0) F.pwrStatusEmergency = true))) ∧
  (∀ (s : State) (d : Die), s.dieOn d = true → Recovered s → NoneHeld s →
    ∃ t : State, exec (.refclkLost d) s = .next t ∧ t.bit (key d 0) F.pwrStatusRefclkLost = true ∧
      t.bit (key d 0) F.pwrErrRefclkLost = true ∧ t.bit (key d 0) F.pwrStatusEmergency = true ∧ EmergencyShown t ∧ t.pkg.faultN = false ∧
      (∀ l ∈ linksOf d, t.linkUp l = false) ∧ t.gddrSize d = 0 ∧ (NoHostTraffic s → SameBytes s t) ∧ t.sessions = s.sessions) ∧
  ∀ (s : State) (d : Die), s.dieOn d = true → Recovered s →
    (∃ t : State, exec (.thermalTrip d) s = .next t ∧ t.dieOn d = false ∧ t.pkg = { s.pkg with thermtripN := false } ∧ t.regs = s.regs ∧
      (∀ e, e ≠ d.val → t.die e = s.die e) ∧ SameBytes s t ∧ t.sessions = s.sessions) ∧
    ∃ t : State, exec (.thermtripN d) s = .next t ∧ t.dieOn d = false ∧ t.pkg = s.pkg ∧ t.regs = s.regs ∧
      (∀ e, e ≠ d.val → t.die e = s.die e) ∧ SameBytes s t ∧ t.sessions = s.sessions

/-! ### EtherCAT -/

/-- Requests of a state: until the session core has run every state but INIT is refused; BOOTSTRAP is never accepted, a step down always, a step up
only by one and with its condition; the settings sent with a request are taken first; the answer names the state and the AL status code. -/
def Sys2Proof.Claims.StateRequests : Prop :=
  (∀ (s : State) (want : AlState), s.ect.coreRan = false → want ≠ .init → s.alRefusal want = some 0x0011) ∧
  (∀ (s : State) (want : AlState), (s.ect.coreRan = true ∨ want = .init) →
    (want = .bootstrap → s.alRefusal want = some 0x0013) ∧
    (want ≠ .bootstrap → s.ect.coreFailed = true → s.alRefusal want = some 0x0001) ∧
    (want ≠ .bootstrap → s.ect.coreFailed = false →
      (alRank want ≤ alRank s.ect.state → s.alRefusal want = none) ∧
      (s.ect.state = .init → want = .preOp → s.alRefusal want = if s.ect.smOk then none else some 0x0016) ∧
      (s.ect.state = .preOp → want = .safeOp → s.alRefusal want = if s.ect.mapOk then none else some 0x001E) ∧
      (s.ect.state = .safeOp → want = .op → s.alRefusal want = none) ∧
      (alRank s.ect.state + 1 < alRank want → s.alRefusal want = some 0x0011))) ∧
  (∀ (x : Ect) (k : Fin 8) (start len : Nat), k = 0 ∨ k = 1 ∨ k = 3 → ∀ j, Sparse.get (fun _ => (0, 0)) (x.take (.syncManager k start len)).sm j =
    if j = k.val then (start, len) else Sparse.get (fun _ => (0, 0)) x.sm j) ∧
  ∀ (s : State) (want : AlState) (setup : List EscSet), s.dieOn 12 = true → Recovered s →
    let u := s.setEct (setup.foldl Ect.take s.ect)
    (u.alRefusal want = none → ∃ t : State, exec (.alStateRequest want setup) s = .next t ∧ t.out = s.out ++ [.al want 0] ∧
      t.ect = { u.ect with state := want, alStatus := 0, level := if want = .init then .observer else s.ect.level } ∧ t.regs = s.regs) ∧
    ∀ code, u.alRefusal want = some code → ∃ t : State, exec (.alStateRequest want setup) s = .next t ∧
      t.out = s.out ++ [.al s.ect.state code] ∧ t.ect = { u.ect with alStatus := code } ∧ t.bit die12 F.ectErrAlRefused = true

/-- Frames pass, with the mirror when it is read in SAFE-OP or OP, a word of the SII when that is read, and the oldest emergency message when the mailbox is
read; the settings that the master writes are taken; one that fails its CRC is counted. The mirror is refreshed while the session core runs. A port shows its link. -/
def Sys2Proof.Claims.FramesAndMirror : Prop :=
  (∀ (s : State) (p : Fin 2) (asks : FrameAsk) (mailbox : Bool), s.dieOn 12 = true → Recovered s →
    (∃ t : State, exec (.ectFrame p false asks mailbox) s = .next t ∧ t.out = s.out ++ [.frame p []] ∧ t.ect = s.ect ∧
      t.bit die12 F.ectErrRxError = true ∧
      (p = 0 → t.rf die12 F.ectRxErrors = min (s.rf die12 F.ectRxErrors + 1) (2 ^ 16 - 1)) ∧
      (p = 1 → t.rf die12 F.ectRxErrors1 = min (s.rf die12 F.ectRxErrors1 + 1) (2 ^ 16 - 1))) ∧
    (∃ t : State, exec (.ectFrame p true asks mailbox) s = .next t ∧
      t.rf die12 F.ectFrames = min (s.rf die12 F.ectFrames + 1) (2 ^ 32 - 1) ∧
      t.rf die12 F.ectId = (asks.station.map (·.toNat)).getD (s.rf die12 F.ectId) ∧ RegsBut [die12 + F.ectFrames.off, die12 + F.ectId.off] s t ∧
      let x := asks.setup.foldl Ect.take s.ect
      let frame := Reply.frame p (if asks.inputs = true ∧ (s.ect.state = .safeOp ∨ s.ect.state = .op) then s.ect.mirror else [])
      let answers := frame :: (match asks.sii with | some (.read w) => [.sii (Config.siiWord w)] | _ => [])
      (∀ m rest, mailbox = true → s.ect.state ≠ .init → s.ect.emergencies = m :: rest →
        t.out = s.out ++ answers ++ [.emergency m.1 m.2] ∧ t.ect = { x with emergencies := rest }) ∧
      ((mailbox = false ∨ s.ect.state = .init ∨ s.ect.emergencies = []) → t.out = s.out ++ answers ∧ t.ect = x))) ∧
  (∀ s : State, s.dieOn 12 = true → Recovered s →
    (s.procRuns 12 sessionCore = false → exec .mirrorRefresh s = .next s) ∧
    (s.procRuns 12 sessionCore = true → ∃ t : State, exec .mirrorRefresh s = .next t ∧ t.ect.heartbeat = s.ect.heartbeat + 1 ∧
      t.ect.lastRefresh = s.stamp 12 ∧ t.regs = s.regs ∧ SameBytes s t ∧ t.sessions = s.sessions ∧
      (s.ect.mapped = [0x2003_0210] → t.ect.mirror = natLe 2 (s.ect.heartbeat + 1).toNat))) ∧
  ∀ (s : State) (up : Bool), s.dieOn 12 = true → Recovered s →
    exec (.portLinkChange 0 up) s = .next (s.setEct { s.ect with link0 := up }) ∧
    exec (.portLinkChange 1 up) s = .next (s.setEct { s.ect with link1 := up, closed1 := !up })

/-- The state machine, frames and the mirror.
What the model chooses here: notes/assumptions/37.md. -/
def Obligations.EthercatFrames : Prop := StateRequests ∧ FramesAndMirror

/-- The commands that the mailbox takes. -/
def Sys2Proof.Claims.byMailbox : Instr → Bool
  | .sdoUpload _ _ | .sdoDownload _ _ _ | .sdoInformation _ | .login _ | .logout | .txpdoMappingWrite _ _ | .testAction _ | .odRefresh _
  | .stop _ | .clearDrainRecord _ | .odDrainNow _ | .libStage _ _ _ | .libInstall => true
  | _ => false

/-- The mailbox answers: die 12 runs with its session core, and the slave is not in INIT. -/
def Sys2Proof.Claims.MailboxOpen (s : State) : Prop :=
  s.dieOn 12 = true ∧ s.ect.coreFailed = false ∧ s.ect.state ≠ .init ∧ s.procRuns 12 sessionCore = true

/-- The state with the moment of the mailbox request noted. -/
def Sys2Proof.Claims.asked (s : State) : State := s.setEct { s.ect with lastMailbox := s.stamp 12 }

/-- A request is refused once the session core has failed, has no mailbox in INIT, and is held while the core restarts. -/
def Sys2Proof.Claims.MailboxGate : Prop :=
  ∀ (s : State) (i : Instr), byMailbox i = true → s.dieOn 12 = true → Recovered s →
    (s.ect.coreFailed = true → exec i s = .next (s.send .mailboxRefused)) ∧
    (s.ect.coreFailed = false → s.ect.state = .init → exec i s = .next s) ∧
    (s.ect.coreFailed = false → s.ect.state ≠ .init → s.procRuns 12 sessionCore = false →
      exec i s = .next (s.setEct { s.ect with held := s.ect.held ++ [i] }))

/-- Logins: a key whose digest is stored raises the level and clears the count of wrong keys; the eighth wrong key in a row locks login for 60 s; a login
ends on request, after 900 s, and with a change of its digest. -/
def Sys2Proof.Claims.Logins : Prop :=
  (∀ (s : State) (k : List Byte), MailboxOpen s → Recovered s → k.length = 16 →
    let x := s.ect
    let answered := fun (y : Ect) (r : Reply) => ∃ t : State, exec (.login k) s = .next t ∧ t.out = s.out ++ [r] ∧
      t.ect = { y with lastMailbox := s.stamp 12 } ∧ SameBytes s t
    let none_ := x.opDigest = none ∧ x.maDigest = none
    ((x.locked = true ∨ none_) → answered x (.sdoAbort 0x0800_0022)) ∧
    (x.locked = false → ¬ none_ →
      (x.maDigest = some (digest32 k) → answered { x with level := .maintainer, wrongKeys := 0 } .sdoOk) ∧
      (x.maDigest ≠ some (digest32 k) → x.opDigest = some (digest32 k) → answered { x with level := .operator, wrongKeys := 0 } .sdoOk) ∧
      (x.maDigest ≠ some (digest32 k) → x.opDigest ≠ some (digest32 k) →
        (x.wrongKeys + 1 < 8 → answered { x with wrongKeys := x.wrongKeys + 1 } .sdoOk) ∧
        (8 ≤ x.wrongKeys + 1 → answered { x with wrongKeys := 0, locked := true, lockStart := s.stamp 12 } .sdoOk)))) ∧
  (∀ s : State, MailboxOpen s → Recovered s → ∃ t : State, exec .logout s = .next t ∧ t.out = s.out ++ [.sdoOk] ∧
    t.ect = { s.ect with level := .observer, lastMailbox := s.stamp 12 } ∧ t.regs = s.regs) ∧
  (∀ s : State, s.dieOn 12 = true → Recovered s →
    (s.ect.lastMailbox.toNat + 90_000_000_000 ≤ (s.stamp 12).toNat →
      exec .loginIdleTimeout s = .next (s.setEct { s.ect with level := .observer })) ∧
    (s.ect.locked = true → s.ect.lockStart.toNat + 6_000_000_000 ≤ (s.stamp 12).toNat →
      exec .lockExpiry s = .next (s.setEct { s.ect with locked := false }))) ∧
  ∀ s : State, s.dieOn 12 = true → Recovered s →
    let x := s.ect
    let op : Ect := { x with level := if x.level = .operator then .observer else x.level }
    let ma : Ect := { x with level := if x.level = .maintainer then .observer else x.level }
    (s.rf die12 F.ectKeySel = 0 → exec .ectKeyCommit s = .next (s.setEct { op with opDigest := some s.stagedDigest }) ∧
      exec .ectKeyClear s = .next (s.setEct { op with opDigest := none })) ∧
    (s.rf die12 F.ectKeySel = 1 → exec .ectKeyCommit s = .next (s.setEct { ma with maDigest := some s.stagedDigest }) ∧
      exec .ectKeyClear s = .next (s.setEct { ma with maDigest := none }))

/-- The mailbox's gate and logins.
What the model chooses here: notes/assumptions/37.md. -/
def Obligations.MailboxAndLogins : Prop := MailboxGate ∧ Logins

/-- A mailbox request is answered with an abort, and nothing else changes. -/
def Sys2Proof.Claims.Aborts (s : State) (i : Instr) (code : W32) : Prop := exec i s = .next ((asked s).send (.sdoAbort code))

/-- An upload is answered with an abort, and nothing else changes but that a segmented upload in progress ends. -/
def Sys2Proof.Claims.UploadAborts (s : State) (i : BitVec 16) (ask : UploadAsk) (code : W32) : Prop :=
  exec (.sdoUpload i ask) s = .next ((asked s).endUpload.send (.sdoAbort code))

/-- A segmented upload goes on by segments of at most 1,015 bytes with alternating toggle bits; another toggle, and a gap of 5 s, abort it. -/
def Sys2Proof.Claims.UploadsGoBySegments : Prop :=
  ∀ (s : State) (i : BitVec 16) (toggle : Bool), MailboxOpen s → Recovered s →
    (s.ect.uploading = none → UploadAborts s i (.next toggle) 0x0800_0022) ∧
    ∀ x, s.ect.uploading = some x →
      (x.last.toNat + 500_000_000 ≤ (s.stamp 12).toNat → UploadAborts s i (.next toggle) 0x0504_0000) ∧
      ((s.stamp 12).toNat < x.last.toNat + 500_000_000 →
        (toggle ≠ x.toggle → UploadAborts s i (.next toggle) 0x0503_0000) ∧
        (toggle = x.toggle → ∃ t : State, exec (.sdoUpload i (.next toggle)) s = .next t ∧ t.regs = s.regs ∧ SameBytes s t ∧
          t.out = s.out ++ [.sdoSegment toggle (decide (x.rest.length ≤ 1015)) (x.rest.take 1015)] ∧
          t.ect.uploading = if x.rest.length ≤ 1015 then none
            else some { rest := x.rest.drop 1015, toggle := !toggle, last := s.stamp 12 }))

/-- Uploads answer the value of an object, a DOMAIN by segments; downloads check object, access, level and length, in this order, and then the value;
the information service answers with types, names and access; a stopped transfer is aborted. -/
def Sys2Proof.Claims.SdoServices : Prop :=
  (∀ (s : State) (i : BitVec 16) (sub : BitVec 8) (data : List Byte), MailboxOpen s → Recovered s →
    (holdsIndex i.toNat = false → UploadAborts s i (.initiate sub) 0x0602_0000 ∧ Aborts s (.sdoDownload i sub data) 0x0602_0000) ∧
    (holdsIndex i.toNat = true → objAt i.toNat sub.toNat = none →
      UploadAborts s i (.initiate sub) 0x0609_0011 ∧ Aborts s (.sdoDownload i sub data) 0x0609_0011) ∧
    ∀ o, holdsIndex i.toNat = true → objAt i.toNat sub.toNat = some o →
      ((o.acc = .wo ∨ o.acc = .woO ∨ o.acc = .woM) → UploadAborts s i (.initiate sub) 0x0601_0001) ∧
      ((o.acc = .ro ∨ o.acc = .rw ∨ o.acc = .rwO ∨ o.acc = .rwM) →
        (i ≠ 0x4002 ∨ s.flashByte (archiveBase + 64 * s.ect.cardSlot.toNat + 30) ≠ 0xFF) → (i ≠ 0x4010 ∨ s.hasDrainRecord = true) →
        let v := (asked s).endUpload.objValue i.toNat sub.toNat
        let segmented := coeType (objBase i.toNat).1 sub.toNat 0 = .domain
        ∃ t : State, exec (.sdoUpload i (.initiate sub)) s = .next t ∧
          t.out = s.out ++ [if segmented then .sdoStart v.length else .sdoData v] ∧
          t.ect.uploading = (if segmented then some { rest := v, last := s.stamp 12 } else none) ∧
          t.regs = s.regs ∧ SameBytes s t ∧ t.sessions = s.sessions) ∧
      (o.acc = .ro → (i = 0x4002 ∧ s.flashByte (archiveBase + 64 * s.ect.cardSlot.toNat + 30) = 0xFF ∨ i = 0x4010 ∧ s.hasDrainRecord = false) →
        UploadAborts s i (.initiate sub) 0x0800_0024) ∧
      ((o.acc = .ro ∨ o.acc = .rc) → Aborts s (.sdoDownload i sub data) 0x0601_0002) ∧
      (((o.acc = .rwO ∨ o.acc = .woO) → s.ect.level = .observer → Aborts s (.sdoDownload i sub data) 0x0601_0000)) ∧
      ((o.acc = .rwM ∨ o.acc = .woM) → s.ect.level ≠ .maintainer → Aborts s (.sdoDownload i sub data) 0x0601_0000) ∧
      (o.acc ≠ .ro → o.acc ≠ .rc → levelFor o.acc s.ect.level = true → o.len ≠ 0 → data.length ≠ o.len →
        Aborts s (.sdoDownload i sub data) 0x0607_0010)) ∧
  (∀ (s : State) (v : Byte), MailboxOpen s → Recovered s → s.ect.level = .maintainer →
    ((3 ≤ v.toNat ∧ v.toNat ≤ 6) → ∃ t : State, exec (.sdoDownload 0x4020 1 [v]) s = .next t ∧ t.rf die12 F.hltSample = v.toNat ∧
      t.out = s.out ++ [.sdoOk] ∧ RegsBut [die12 + F.hltSample.off] s t) ∧
    ((v.toNat < 3 ∨ 6 < v.toNat) → Aborts s (.sdoDownload 0x4020 1 [v]) 0x0609_0030)) ∧
  (∀ (s : State) (i : BitVec 16) (sub : BitVec 8), MailboxOpen s → Recovered s →
    exec (.sdoInformation .objectList) s = .next ((asked s).send (.objectList objIndices)) ∧
    let b := (objBase i.toNat).1
    (holdsIndex i.toNat = false → Aborts s (.sdoInformation (.objectDescription i)) 0x0602_0000) ∧
    (holdsIndex i.toNat = true → exec (.sdoInformation (.objectDescription i)) s = .next ((asked s).send (match singleOf b with
      | some o => .objectDesc i (coeType b 0 o.len) 0 (objName b 0)
      | none => .objectDesc i .unsigned8 (maxSub i.toNat) (Config.recordName i.toNat)))) ∧
    (∀ o, holdsIndex i.toNat = true → objAt i.toNat sub.toNat = some o → exec (.sdoInformation (.entryDescription i sub)) s =
      .next ((asked s).send (.entryDesc i sub (coeType b sub.toNat o.len) (8 * o.len) o.acc.text o.pdo (objName b sub.toNat))))) ∧
  ∀ s : State, s.dieOn 12 = true → Recovered s →
    (∀ x, s.ect.transfer = some x → x.last.toNat + 500_000_000 ≤ (s.stamp 12).toNat → exec .sdoSegmentTimeout s =
      .next ((s.setEct { s.ect with transfer := none, staging := false }).send (.sdoAbort 0x0504_0000))) ∧
    ((∀ x, s.ect.transfer = some x → (s.stamp 12).toNat < x.last.toNat + 500_000_000) →
      (∀ x, s.ect.uploading = some x → x.last.toNat + 500_000_000 ≤ (s.stamp 12).toNat → exec .sdoSegmentTimeout s =
        .next (s.endUpload.send (.sdoAbort 0x0504_0000))) ∧
      ((∀ x, s.ect.uploading = some x → (s.stamp 12).toNat < x.last.toNat + 500_000_000) → exec .sdoSegmentTimeout s = .next s))

/-- The objects with an effect of their own: the mapping, tests, refresh and stop of streams, the drain and its record, and the library. -/
def Sys2Proof.Claims.ObjectsAct : Prop :=
  (∀ (s : State) (sub : BitVec 8) (v : W32), MailboxOpen s → Recovered s →
    (s.ect.state ≠ .preOp → Aborts s (.txpdoMappingWrite sub v) 0x0800_0022) ∧
    (s.ect.state = .preOp → 1 ≤ sub.toNat → sub.toNat ≤ 32 →
      let m := (List.range 32).map (fun k => if k + 1 = sub.toNat then v else s.ect.mapping.getD k 0)
      (mappable v = false → Aborts s (.txpdoMappingWrite sub v) 0x0604_0041) ∧
      (mappable v = true → 256 < mappedBytes ({ s.ect with mapping := m } : Ect).mapped → Aborts s (.txpdoMappingWrite sub v) 0x0604_0042) ∧
      (mappable v = true → mappedBytes ({ s.ect with mapping := m } : Ect).mapped ≤ 256 →
        exec (.txpdoMappingWrite sub v) s = .next (((asked s).setEct { s.ect with mapping := m, lastMailbox := s.stamp 12 }).send .sdoOk)))) ∧
  (∀ (s : State) (v : BitVec 8), MailboxOpen s → Recovered s →
    let m := s.ect.testDies.setWidth 25
    (s.ect.level ≠ .maintainer → Aborts s (.testAction v) 0x0601_0000) ∧
    (s.ect.level = .maintainer → (v = 0 ∨ 3 < v.toNat) → Aborts s (.testAction v) 0x0609_0030) ∧
    (s.ect.level = .maintainer → (s.parts.any (fun p => p.dies == m && p.state == .service)) = true → s.anySession = false →
      ∃ t : State, exec (.testAction 1) s = .next t ∧ t.out = s.out ++ [.sdoOk] ∧ t.regs = s.regs ∧
        t.parts = s.parts.map (fun p => if p.dies = m then { p with state := .test, exams := [], leaving := none } else p))) ∧
  (∀ (s : State) (k : Fin 64), MailboxOpen s → Recovered s →
    (s.ect.level = .observer → Aborts s (.odRefresh k) 0x0601_0000) ∧ (s.ect.level ≠ .maintainer → Aborts s (.stop k) 0x0601_0000) ∧
    (s.ect.level = .maintainer → s.inSlot k = none → Aborts s (.odRefresh k) 0x0800_0022 ∧ Aborts s (.stop k) 0x0800_0022) ∧
    ∀ n, s.inSlot k = some n →
      (s.ect.level ≠ .observer → (s.ses n).kind = .encode → ∃ t : State, exec (.odRefresh k) s = .next t ∧ t.out = s.out ++ [.sdoOk] ∧
        t.ses n = { s.ses n with enc := { (s.ses n).enc with refreshDue := true } } ∧ t.regs = s.regs) ∧
      (s.ect.level = .maintainer → (s.ses n).closing.isSome = true → Aborts s (.stop k) 0x0800_0022) ∧
      (s.ect.level = .maintainer → (s.ses n).closing = none → ∃ t : State, exec (.stop k) s = .next t ∧ t.out = s.out ++ [.sdoOk] ∧
        t.ses n = { s.ses n with stopAtBell := some ((s.ses n).stopAtBell.getD St.sessionEnded) } ∧ t.regs = s.regs)) ∧
  (∀ (s : State) (v : W32), MailboxOpen s →
    (s.ect.level ≠ .maintainer → Recovered s → Aborts s (.clearDrainRecord v) 0x0601_0000 ∧ Aborts s (.odDrainNow v) 0x0601_0000) ∧
    (s.ect.level = .maintainer → Recovered s → (v ≠ 0x434C_5244 → Aborts s (.clearDrainRecord v) 0x0609_0030) ∧
      (v ≠ 0x4452_4E21 → Aborts s (.odDrainNow v) 0x0609_0030) ∧
      ∃ t : State, exec (.clearDrainRecord 0x434C_5244) s = .next t ∧ t.out = s.out ++ [.sdoOk] ∧ t.hasDrainRecord = false ∧
        ∀ a, a < drainBase ∨ drainBase + 0x1_0000 ≤ a → t.flashByte a = s.flashByte a) ∧
    (s.ect.level = .maintainer → InService s → s.pkg.drain = none → ∃ t : State, exec (.odDrainNow 0x4452_4E21) s = .next t ∧ Draining t)) ∧
  (∀ (s : State) (last toggle : Bool) (data : List Byte) (x : Transfer), MailboxOpen s → Recovered s → s.ect.staging = true →
    s.ect.transfer = some x → (s.stamp 12).toNat < x.last.toNat + 500_000_000 →
    (toggle ≠ x.toggle → ∃ t : State, exec (.libStage (.next toggle) last data) s = .next t ∧ t.out = s.out ++ [.sdoAbort 0x0503_0000] ∧
      t.ect.staging = false ∧ t.ect.transfer = none ∧ t.flash = s.flash) ∧
    (toggle = x.toggle → s.ect.stagedLen + data.length ≤ bankSize → ∃ t : State, exec (.libStage (.next toggle) last data) s = .next t ∧
      t.out = s.out ++ [.sdoOk] ∧ t.ect.stagedLen = s.ect.stagedLen + data.length ∧ t.ect.staging = !last ∧
      (last = false → t.ect.transfer = some { last := s.stamp 12, toggle := !toggle }) ∧
      ∀ i, i < data.length → t.flashByte (bankBase s.inactiveBank + s.ect.stagedLen + i) = data.getD i 0)) ∧
  ∀ (s : State) (data : List Byte), MailboxOpen s → Recovered s → s.ect.level = .maintainer →
    (s.installRuns = true → Aborts s (.libStage .initiate true data) 0x0800_0022 ∧ Aborts s .libInstall 0x0800_0022) ∧
    (s.installRuns = false → data.length ≤ bankSize → ∃ t : State, exec (.libStage .initiate true data) s = .next t ∧ t.out = s.out ++ [.sdoOk] ∧
      t.ect.stagedLen = data.length ∧ t.ect.staging = false ∧ t.regs = s.regs ∧
      (∀ i, i < data.length → t.flashByte (bankBase s.inactiveBank + i) = data.getD i 0) ∧
      ∀ a, (a < bankBase s.inactiveBank ∨ bankBase s.inactiveBank + bankSize ≤ a) → t.flashByte a = s.flashByte a) ∧
    (s.installRuns = false → s.ect.staging = false → 0 < s.ect.stagedLen → ∃ t : State, exec .libInstall s = .next t ∧
      t.out = s.out ++ [.sdoOk] ∧ t.rf die12 F.hltLibStatusCode = Lib.verifying ∧ t.flash = s.flash ∧
      t.pkg.install = some { bank := s.inactiveBank, len := s.ect.stagedLen, staged := true }) ∧
    (s.installRuns = false → s.ect.staging = false → s.ect.stagedLen = 0 → Aborts s .libInstall 0x0800_0022)

/-- The SDO services and the objects.
What the model chooses here: notes/assumptions/37.md. -/
def Obligations.ObjectDictionary : Prop := SdoServices ∧ UploadsGoBySegments ∧ ObjectsAct

/-! ### Identity, attestation and registers -/

/-- Attestation: GO captures a report of 320 bytes unless one is in progress, the identity is at fault or the firmware does not run; the signed report goes to its
destination in WRITEs, with DONE once none of them waits at the link. -/
def Sys2Proof.Claims.AttestationReports : Prop :=
  (∀ s : State, s.attReport.length = 320) ∧
  (∀ s : State, s.dieOn 12 = true → Recovered s →
    let st := s.rf die12 F.secAttStatusCode
    let busy := st = Att.signing ∨ st = Att.writing ∨ s.sec.held = true
    (busy → exec .secAttGo s = .next (s.raise die12 F.secErrAttWhileBusy)) ∧
    (¬ busy → s.sec.identityFault = true → exec .secAttGo s = .next (s.attStatus Att.identityFault)) ∧
    (¬ busy → s.sec.identityFault = false → s.proc 12 sessionCore ≠ Ps.restarting →
      (s.rf die12 F.fwcBootStatusCode ≠ Fw.ok ∨ s.proc 12 sessionCore ≠ Ps.running) → exec .secAttGo s = .next (s.attStatus Att.notReady)) ∧
    (¬ busy → s.sec.identityFault = false → s.proc 12 sessionCore = Ps.running → s.rf die12 F.fwcBootStatusCode = Fw.ok →
      ∃ t : State, exec .secAttGo s = .next t ∧ t.rf die12 F.secAttStatusCode = Att.signing ∧ t.sec = { s.sec with report := s.attReport } ∧
        RegsBut [die12 + F.secAttStatusCode.off] s t)) ∧
  ∀ (s : State) (ms : BitVec 16) (l : Nat), s.dieOn 12 = true → Recovered s → s.rf die12 F.secAttStatusCode = Att.signing →
    let signed := s.sec.report ++ (List.range sigBytes).map (Config.attestSignature s.sec.report)
    let w := s.hostWrite 12 noSessionMark (s.rf die12 F.secAttDstLo + s.rf die12 F.secAttDstHi * 2 ^ 32) signed
    (∃ t : State, exec (.attSignDone ms false) s = .next t ∧ t.rf die12 F.secAttStatusCode = Att.hostWriteFail ∧
      t.rf die12 F.secAttStatusMs = ms.toNat ∧ t.sec.report = [] ∧ SameBytes s t) ∧
    (s.route 12 = some l → s.sec.report ≠ [] → ∃ t : State, exec (.attSignDone ms true) s = .next t ∧
      t.rf die12 F.secAttStatusCode = (if (t.lnk l).waitingWrites.any (fun x => x.die == 12) then Att.writing else Att.done) ∧
      t.rf die12 F.secAttStatusMs = ms.toNat ∧ t.sec.report = [] ∧ t.links = w.1.links ∧ SameBytes w.1 t) ∧
    (s.route 12 = none → ∃ t : State, exec (.attSignDone ms true) s = .next t ∧ t.rf die12 F.secAttStatusCode = Att.writing ∧
      t.sec.report = s.sec.report ∧ SameBytes s t)

/-- Revocation: a record that passes its checks, with no session open and no update running, blows the fuses of the slots below its new one; no revoked slot
comes back. -/
def Sys2Proof.Claims.KeysAreRevoked : Prop :=
  (∀ s : State, s.dieOn 12 = true → Recovered s →
    let st := s.rf die12 F.secRevStatusCode
    let blocked := s.anySession || s.rf die12 F.fwcBootStatusCode == Fw.busy || s.actBusy || s.libBusy
    let src := s.rf die12 F.secRevSrcLo + s.rf die12 F.secRevSrcHi * 2 ^ 32
    let r := s.hostRead 12 src (32 + 29792)
    let a := s.askHost 12 src (32 + 29792)
    (st = Rev.busy → exec .secRevGo s = .next (s.raise die12 F.secErrRevWhileBusy)) ∧
    (st ≠ Rev.busy → blocked = true → exec .secRevGo s = .next (s.revStatus Rev.sessionsOpen)) ∧
    (st ≠ Rev.busy → blocked = false → r.2 = true → exec .secRevGo s = .next (a.revStatus Rev.hostReadFail)) ∧
    (∀ code, st ≠ Rev.busy → blocked = false → r.2 = false → s.revFailure r.1 = some code → exec .secRevGo s = .next (a.revStatus code)) ∧
    (st ≠ Rev.busy → blocked = false → r.2 = false → s.revFailure r.1 = none →
      ∃ t : State, exec .secRevGo s = .next t ∧ t.rf die12 F.secRevStatusCode = Rev.busy ∧
        t.sec = { s.sec with revoking := some ((revSet r.1).val, leAt r.1 5 1) })) ∧
  ∀ (s : State) (set : Fin 2) (slot n : Nat), s.dieOn 12 = true → Recovered s → s.sec.revoking = some (set.val, slot) → slot < 4 →
    ∃ t : State, exec (.revocationComplete n) s = .next t ∧ t.sec.revoking = none ∧
      t.rf die12 F.secRevStatusCode = (if slot ≤ n then Rev.done else Rev.fuseFail) ∧
      (∀ k : Fin 4, (t.blown set).getLsbD k = ((s.blown set).getLsbD k || decide (k.val < min n slot))) ∧
      (∀ (e : Fin 2) (k : Fin 4), s.slotRevoked e k = true → t.slotRevoked e k = true) ∧
      ∀ e : Fin 2, e ≠ set → t.blown e = s.blown e

/-- The entropy source: a refill brings a word whose value nothing states (notes/assumptions/5.md); after a failed health test none comes. -/
def Sys2Proof.Claims.RandomWords : Prop :=
  (∀ (s : State) (d : Die), s.dieOn d = true → Recovered s →
    ∃ t : State, exec (.rngHealthFail d) s = .next t ∧ t.bit (key d 0) F.secErrRngHealth = true ∧ (t.die d).rngWord = none ∧
      RegsBut [key d 0 + F.secErrRngHealth.off] s t ∧ SameBytes s t) ∧
  ∀ (s : State) (d : Die), s.dieOn d = true → Recovered s →
    ((s.bit (key d 0) F.secErrRngHealth = true ∨ (s.die d).rngWord.isSome = true) → exec (.secRngRefill d) s = .next s) ∧
    (s.bit (key d 0) F.secErrRngHealth = false → (s.die d).rngWord = none →
      ∃ t : State, exec (.secRngRefill d) s = .next t ∧ (t.die d).rngWord = some ((Config.freeValue s.fresh).setWidth 32) ∧
        t.fresh = s.fresh + 1 ∧ t.regs = s.regs ∧ SameBytes s t)

/-- Attestation, revocation and random words.
What the model chooses here: notes/assumptions/4.md, notes/assumptions/39.md. -/
def Obligations.SecurityBlock : Prop := AttestationReports ∧ KeysAreRevoked ∧ RandomWords

/-- Registers without an effect of their own, over the blocks of a control window. -/
def Sys2Proof.Claims.plainOffsets : List Nat :=
  [0x78_002C, 0x78_0080, 0x78_0084, 0x78_009C, 0x7B_0014, 0x7B_0100, 0x7B_0120, 0x7B_0124, 0x7B_0140, 0x7D_0008, 0x7D_000C, 0x7E_1014,
   0x7E_1200, 0x7E_1204, 0x7E_1208, 0x7E_120C, 0x7E_1210, 0x7E_1220, 0x7F_000C, 0x7F_0024, 0x7F_0030]

/-- A write of a register acts by the access code of each field: RW takes the value, W1C clears where a 1 is written, any other keeps its value; an
offset that is no register's ignores it. -/
def Sys2Proof.Claims.WritesFollowAccessCodes : Prop :=
  (∀ (off : Nat) (old v : W32) (f : RegField), f ∈ fieldsAt off →
    getF (writeFields (fieldsAt off) old v) f.fld.hi f.fld.lo =
      match f.acc with
      | .rw => getF v f.fld.hi f.fld.lo
      | .w1c => if getF v f.fld.hi f.fld.lo = 1 then 0 else getF old f.fld.hi f.fld.lo
      | _ => getF old f.fld.hi f.fld.lo) ∧
  (∀ (s : State) (by_ : Agent) (d : Die) (off : BitVec 24) (v : W32), s.dieOn d = true → Recovered s → off.toNat ∈ plainOffsets →
    s.present d off.toNat = true →
    exec (.registerWrite by_ d off v) s =
      .next (s.wr (key d off.toNat) (writeFields (fieldsAt off.toNat) (s.rd (key d off.toNat)) v))) ∧
  ∀ (s : State) (by_ : Agent) (d : Die) (off : BitVec 24) (v : W32), s.dieOn d = true → Recovered s →
    (off.toNat % 4 ≠ 0 ∨ s.present d off.toNat = false) → exec (.registerWrite by_ d off v) s = .next s

/-- A read answers the value shown, and clears the read-clear fields of the register; one of FWC_TRACE_COUNT answers the passes that wrote a record where
no other pass can have been counted, and leaves none counted. The registers whose value nothing states, SEC_RNG and the status of a cluster that is scrubbed, answer in a form of
their own (notes/assumptions/39.md, 46.md). -/
def Sys2Proof.Claims.ReadsClear : Prop :=
  (∀ (s : State) (d : Die) (off : BitVec 24), s.dieOn d = true → Recovered s → s.present d off.toNat = true →
    off ≠ 0x7B_0018 → openCount d off.toNat = false → (∀ c, clusterAt d off.toNat = some (c, 0x010) → s.bit c.base F.clsCtrlScrub = false) →
    ∃ t : State, exec (.registerReadClear d off) s = .next t ∧
      t.out = s.out ++ [.register d off.toNat (BitVec.ofNat 32 (s.shown d off.toNat))] ∧
      RegsBut [key d off.toNat] s t ∧ SameBytes s t ∧ t.sessions = s.sessions ∧
      ((∀ c, clusterAt d off.toNat ≠ some (c, 0x010)) → ∀ f ∈ fieldsAt off.toNat, getF (t.rd (key d off.toNat)) f.fld.hi f.fld.lo =
        if f.acc = .rc then 0 else getF (s.rd (key d off.toNat)) f.fld.hi f.fld.lo)) ∧
  ∀ (s : State) (d : Die), s.dieOn d = true → Recovered s → s.present d 0x7E_101C = true →
    let k := s.rf (key d 0) F.fwcTraceSel
    ∃ (v : W32) (t : State), exec (.registerReadClear d 0x7E_101C) s = .next t ∧ t.out = s.out ++ [.register d 0x7E_101C v] ∧
      (s.noPasses d k = true → v = hold32 0 (Sparse.get (fun _ => 0) (s.die d).traced k)) ∧ t.noPasses d k = true ∧
      Sparse.get (fun _ => 0) (t.die d).traced k = 0 ∧ t.regs = s.regs ∧ SameBytes s t ∧ t.sessions = s.sessions

/-- Reads and writes of registers.
What the model chooses here: notes/assumptions/39.md, notes/assumptions/46.md, notes/assumptions/77.md. -/
def Obligations.RegisterAccess : Prop := WritesFollowAccessCodes ∧ ReadsClear
end

