-- ==== Sys2Proof/Laws/Sparse.lean ====
section
/-!
SUPPORT. The laws of sparse tables: a read after a write, that a write leaves other keys alone, and that it keeps the canonical form.
-/

namespace Sys2Proof.Machine

variable {α : Type}

@[simp] theorem Sparse.get_nil (f : Nat → α) (i : Nat) : Sparse.get f [] i = f i := rfl

/-- Below its lower bound a table lists nothing. -/
theorem Sparse.get_below (f : Nat → α) (t : Sparse α) (lo i : Nat) (h : Sparse.risesFrom lo t = true) (hi : i < lo) :
    Sparse.get f t i = f i := by
  cases t with
  | nil => rfl
  | cons e rest =>
    simp only [Sparse.risesFrom, Bool.and_eq_true, decide_eq_true_eq] at h
    have h1 : ¬ e.1 < i := by omega
    have h2 : ¬ e.1 = i := by omega
    simp [Sparse.get, h1, h2]

theorem Sparse.get_dropUpTo (f : Nat → α) (i j : Nat) (h : i < j) (t : Sparse α) :
    Sparse.get f (Sparse.dropUpTo i t) j = Sparse.get f t j := by
  induction t with
  | nil => rfl
  | cons e rest ih =>
    simp only [Sparse.dropUpTo]
    split
    · have h1 : e.1 < j := by omega
      rw [ih]; simp [Sparse.get, h1]
    · rfl

theorem Sparse.get_dropUpTo_le (f : Nat → α) (i j : Nat) (h : j ≤ i) (t : Sparse α) :
    Sparse.get f (Sparse.dropUpTo i t) j = f j := by
  induction t with
  | nil => rfl
  | cons e rest ih =>
    simp only [Sparse.dropUpTo]
    split
    · exact ih
    · have h1 : ¬ e.1 < j := by omega
      have h2 : ¬ e.1 = j := by omega
      simp [Sparse.get, h1, h2]

/-- A read after a write of the same key. -/
@[simp] theorem Sparse.get_put_same [DecidableEq α] (f : Nat → α) (t : Sparse α) (i : Nat) (v : α) :
    Sparse.get f (Sparse.put f t i v) i = v := by
  induction t with
  | nil =>
    by_cases h : v = f i
    · simp [Sparse.put, h]
    · simp [Sparse.put, Sparse.get, h]
  | cons e rest ih =>
    simp only [Sparse.put]
    split
    · next h => simp [Sparse.get, h, ih]
    · split
      · next h => rw [Sparse.get_dropUpTo_le f i i (Nat.le_refl _)]; exact h.symm
      · simp [Sparse.get]

/-- A write leaves every other key alone. -/
theorem Sparse.get_put_ne [DecidableEq α] (f : Nat → α) (t : Sparse α) (i j : Nat) (v : α) (h : j ≠ i) :
    Sparse.get f (Sparse.put f t i v) j = Sparse.get f t j := by
  induction t with
  | nil =>
    by_cases hv : v = f i
    · simp [Sparse.put, hv]
    · have h2 : ¬ i = j := fun x => h x.symm
      simp [Sparse.put, Sparse.get, hv, h2]
  | cons e rest ih =>
    simp only [Sparse.put]
    split
    · simp [Sparse.get, ih]
    · next hk =>
      rcases Nat.lt_or_gt_of_ne h with hj | hj
      · have a1 : ¬ e.1 < j := by omega
        have a2 : ¬ e.1 = j := by omega
        have a3 : ¬ i < j := by omega
        have a4 : ¬ i = j := by omega
        split
        · rw [Sparse.get_dropUpTo_le f i j (by omega)]; simp [Sparse.get, a1, a2]
        · simp [Sparse.get, a1, a2, a3, a4]
      · split
        · exact Sparse.get_dropUpTo f i j hj _
        · simp only [Sparse.get, hj, if_true]
          exact Sparse.get_dropUpTo f i j hj _

theorem Sparse.risesFrom_mono (lo hi : Nat) (h : lo ≤ hi) (t : Sparse α) (r : Sparse.risesFrom hi t = true) :
    Sparse.risesFrom lo t = true := by
  cases t with
  | nil => rfl
  | cons e rest =>
    simp only [Sparse.risesFrom, Bool.and_eq_true, decide_eq_true_eq] at *
    exact ⟨by omega, r.2⟩

theorem Sparse.dropUpTo_rises (i lo : Nat) (t : Sparse α) (r : Sparse.risesFrom lo t = true) :
    Sparse.risesFrom (i + 1) (Sparse.dropUpTo i t) = true := by
  induction t generalizing lo with
  | nil => rfl
  | cons e rest ih =>
    simp only [Sparse.risesFrom, Bool.and_eq_true, decide_eq_true_eq] at r
    simp only [Sparse.dropUpTo]
    split
    · exact ih _ r.2
    · simp only [Sparse.risesFrom, Bool.and_eq_true, decide_eq_true_eq]
      exact ⟨by omega, r.2⟩

theorem Sparse.dropUpTo_all (p : Nat × α → Bool) (i : Nat) (t : Sparse α) (h : t.all p = true) :
    (Sparse.dropUpTo i t).all p = true := by
  induction t with
  | nil => rfl
  | cons e rest ih =>
    simp only [List.all_cons, Bool.and_eq_true] at h
    simp only [Sparse.dropUpTo]
    split
    · exact ih h.2
    · simp [h.1, h.2]

theorem Sparse.put_rises [DecidableEq α] (f : Nat → α) (t : Sparse α) (lo i : Nat) (v : α) (hi : lo ≤ i)
    (r : Sparse.risesFrom lo t = true) : Sparse.risesFrom lo (Sparse.put f t i v) = true := by
  induction t generalizing lo with
  | nil =>
    simp only [Sparse.put]
    split
    · rfl
    · simp [Sparse.risesFrom, hi]
  | cons e rest ih =>
    have r' := r
    simp only [Sparse.risesFrom, Bool.and_eq_true, decide_eq_true_eq] at r
    simp only [Sparse.put]
    split
    · simp only [Sparse.risesFrom, Bool.and_eq_true, decide_eq_true_eq]
      exact ⟨r.1, ih (e.1 + 1) (by omega) r.2⟩
    · split
      · exact Sparse.risesFrom_mono _ _ (by omega) _ (Sparse.dropUpTo_rises i lo _ r')
      · simp only [Sparse.risesFrom, Bool.and_eq_true, decide_eq_true_eq]
        exact ⟨hi, Sparse.dropUpTo_rises i lo _ r'⟩

theorem Sparse.put_all [DecidableEq α] (f : Nat → α) (t : Sparse α) (i : Nat) (v : α)
    (h : t.all (fun e => decide (e.2 ≠ f e.1)) = true) : (Sparse.put f t i v).all (fun e => decide (e.2 ≠ f e.1)) = true := by
  induction t with
  | nil =>
    simp only [Sparse.put]
    split
    · rfl
    · next hv => simpa using hv
  | cons e rest ih =>
    have h' := h
    rw [List.all_cons, Bool.and_eq_true] at h
    simp only [Sparse.put]
    split
    · rw [List.all_cons, Bool.and_eq_true]; exact ⟨h.1, ih h.2⟩
    · split
      · exact Sparse.dropUpTo_all _ i _ h'
      · next hv =>
        rw [List.all_cons, Bool.and_eq_true]
        exact ⟨by simpa using hv, Sparse.dropUpTo_all _ i _ h'⟩

/-- A write keeps the canonical form. -/
theorem Sparse.put_wf [DecidableEq α] (f : Nat → α) (t : Sparse α) (i : Nat) (v : α) (h : Sparse.wf f t = true) :
    Sparse.wf f (Sparse.put f t i v) = true := by
  simp only [Sparse.wf, Bool.and_eq_true] at *
  exact ⟨Sparse.put_rises f t 0 i v (Nat.zero_le _) h.1, Sparse.put_all f t i v h.2⟩

theorem Sparse.filter_rises (p : Nat × α → Bool) (t : Sparse α) (lo : Nat) (r : Sparse.risesFrom lo t = true) :
    Sparse.risesFrom lo (t.filter p) = true := by
  induction t generalizing lo with
  | nil => rfl
  | cons e rest ih =>
    simp only [Sparse.risesFrom, Bool.and_eq_true, decide_eq_true_eq] at r
    rw [List.filter_cons]
    split
    · simp only [Sparse.risesFrom, Bool.and_eq_true, decide_eq_true_eq]
      exact ⟨r.1, ih _ r.2⟩
    · exact Sparse.risesFrom_mono lo (e.1 + 1) (by omega) _ (ih _ r.2)

/-- A table with entries left out is canonical. -/
theorem Sparse.filter_wf [DecidableEq α] (f : Nat → α) (p : Nat × α → Bool) (t : Sparse α) (h : Sparse.wf f t = true) :
    Sparse.wf f (t.filter p) = true := by
  simp only [Sparse.wf, Bool.and_eq_true] at *
  refine ⟨Sparse.filter_rises p t 0 h.1, ?_⟩
  rw [List.all_eq_true] at *
  intro e he
  exact h.2 e (List.mem_filter.mp he).1

/-- Two canonical tables that read the same are the same list. -/
theorem Sparse.ext_from [DecidableEq α] (f : Nat → α) (t u : Sparse α) (lo : Nat) (ht : Sparse.risesFrom lo t = true)
    (hu : Sparse.risesFrom lo u = true) (at_ : t.all (fun e => decide (e.2 ≠ f e.1)) = true)
    (au : u.all (fun e => decide (e.2 ≠ f e.1)) = true) (h : ∀ i, lo ≤ i → Sparse.get f t i = Sparse.get f u i) : t = u := by
  induction t generalizing u lo with
  | nil =>
    cases u with
    | nil => rfl
    | cons e rest =>
      simp only [Sparse.risesFrom, Bool.and_eq_true, decide_eq_true_eq] at hu
      rw [List.all_cons, Bool.and_eq_true, decide_eq_true_eq] at au
      have := h e.1 hu.1
      simp [Sparse.get] at this
      exact absurd this.symm au.1
  | cons e rest ih =>
    simp only [Sparse.risesFrom, Bool.and_eq_true, decide_eq_true_eq] at ht
    rw [List.all_cons, Bool.and_eq_true, decide_eq_true_eq] at at_
    cases u with
    | nil =>
      have := h e.1 ht.1
      simp [Sparse.get] at this
      exact absurd this at_.1
    | cons k more =>
      simp only [Sparse.risesFrom, Bool.and_eq_true, decide_eq_true_eq] at hu
      rw [List.all_cons, Bool.and_eq_true, decide_eq_true_eq] at au
      rcases Nat.lt_trichotomy e.1 k.1 with hk | hk | hk
      · have := h e.1 ht.1
        have a1 : ¬ k.1 < e.1 := by omega
        have a2 : ¬ k.1 = e.1 := by omega
        simp [Sparse.get, a1, a2] at this
        exact absurd this at_.1
      · have h1 := h e.1 ht.1
        have a1 : ¬ k.1 < e.1 := by omega
        simp [Sparse.get, hk] at h1
        have he : e = k := Prod.ext hk h1
        subst he
        congr 1
        refine ih more (e.1 + 1) ht.2 hu.2 at_.2 au.2 ?_
        intro i hi
        have := h i (by omega)
        have b1 : e.1 < i := by omega
        simpa [Sparse.get, b1] using this
      · have := h k.1 hu.1
        have a1 : ¬ e.1 < k.1 := by omega
        have a2 : ¬ e.1 = k.1 := by omega
        simp [Sparse.get, a1, a2] at this
        exact absurd this.symm au.1

theorem Sparse.ext [DecidableEq α] (f : Nat → α) (t u : Sparse α) (ht : Sparse.wf f t = true) (hu : Sparse.wf f u = true)
    (h : ∀ i, Sparse.get f t i = Sparse.get f u i) : t = u := by
  simp only [Sparse.wf, Bool.and_eq_true] at *
  exact Sparse.ext_from f t u 0 ht.1 hu.1 ht.2 hu.2 (fun i _ => h i)

end Sys2Proof.Machine
end

