-- ==== Sys2Proof/Laws/State.lean ====
section
/-!
SUPPORT. What each update of State changes and what it leaves alone: one lemma for each field of State and each update, true by definition.
-/

namespace Sys2Proof.Machine

variable (s : State)


/-! wr -/
@[simp] theorem State.wr_regs (k : Nat) (v : W32) : (s.wr k v).regs = Sparse.put regReset s.regs k v := rfl
@[simp] theorem State.wr_bank (k : Nat) (v : W32) : (s.wr k v).bank = s.bank := rfl
@[simp] theorem State.wr_mem (k : Nat) (v : W32) : (s.wr k v).mem = s.mem := rfl
@[simp] theorem State.wr_poison (k : Nat) (v : W32) : (s.wr k v).poison = s.poison := rfl
@[simp] theorem State.wr_flash (k : Nat) (v : W32) : (s.wr k v).flash = s.flash := rfl
@[simp] theorem State.wr_clusters (k : Nat) (v : W32) : (s.wr k v).clusters = s.clusters := rfl
@[simp] theorem State.wr_fetch (k : Nat) (v : W32) : (s.wr k v).fetch = s.fetch := rfl
@[simp] theorem State.wr_channels (k : Nat) (v : W32) : (s.wr k v).channels = s.channels := rfl
@[simp] theorem State.wr_posts (k : Nat) (v : W32) : (s.wr k v).posts = s.posts := rfl
@[simp] theorem State.wr_sessions (k : Nat) (v : W32) : (s.wr k v).sessions = s.sessions := rfl
@[simp] theorem State.wr_queues (k : Nat) (v : W32) : (s.wr k v).queues = s.queues := rfl
@[simp] theorem State.wr_parts (k : Nat) (v : W32) : (s.wr k v).parts = s.parts := rfl
@[simp] theorem State.wr_chart (k : Nat) (v : W32) : (s.wr k v).chart = s.chart := rfl
@[simp] theorem State.wr_dies (k : Nat) (v : W32) : (s.wr k v).dies = s.dies := rfl
@[simp] theorem State.wr_links (k : Nat) (v : W32) : (s.wr k v).links = s.links := rfl
@[simp] theorem State.wr_rails (k : Nat) (v : W32) : (s.wr k v).rails = s.rails := rfl
@[simp] theorem State.wr_ect (k : Nat) (v : W32) : (s.wr k v).ect = s.ect := rfl
@[simp] theorem State.wr_sec (k : Nat) (v : W32) : (s.wr k v).sec = s.sec := rfl
@[simp] theorem State.wr_fw (k : Nat) (v : W32) : (s.wr k v).fw = s.fw := rfl
@[simp] theorem State.wr_pkg (k : Nat) (v : W32) : (s.wr k v).pkg = s.pkg := rfl
@[simp] theorem State.wr_jtag (k : Nat) (v : W32) : (s.wr k v).jtag = s.jtag := rfl
@[simp] theorem State.wr_out (k : Nat) (v : W32) : (s.wr k v).out = s.out := rfl
@[simp] theorem State.wr_steps (k : Nat) (v : W32) : (s.wr k v).steps = s.steps := rfl
@[simp] theorem State.wr_derived (k : Nat) (v : W32) : (s.wr k v).derived = s.derived := rfl
@[simp] theorem State.wr_redo (k : Nat) (v : W32) : (s.wr k v).redo = s.redo := rfl
@[simp] theorem State.wr_hostw (k : Nat) (v : W32) : (s.wr k v).hostw = s.hostw := rfl
@[simp] theorem State.wr_saves (k : Nat) (v : W32) : (s.wr k v).saves = s.saves := rfl
@[simp] theorem State.wr_pev (k : Nat) (v : W32) : (s.wr k v).pev = s.pev := rfl
@[simp] theorem State.wr_fresh (k : Nat) (v : W32) : (s.wr k v).fresh = s.fresh := rfl
@[simp] theorem State.wr_pending (k : Nat) (v : W32) : (s.wr k v).pending = s.pending := rfl

/-! sf -/
@[simp] theorem State.sf_bank (b : Nat) (f : Fld) (x : Nat) : (s.sf b f x).bank = s.bank := rfl
@[simp] theorem State.sf_mem (b : Nat) (f : Fld) (x : Nat) : (s.sf b f x).mem = s.mem := rfl
@[simp] theorem State.sf_poison (b : Nat) (f : Fld) (x : Nat) : (s.sf b f x).poison = s.poison := rfl
@[simp] theorem State.sf_flash (b : Nat) (f : Fld) (x : Nat) : (s.sf b f x).flash = s.flash := rfl
@[simp] theorem State.sf_clusters (b : Nat) (f : Fld) (x : Nat) : (s.sf b f x).clusters = s.clusters := rfl
@[simp] theorem State.sf_fetch (b : Nat) (f : Fld) (x : Nat) : (s.sf b f x).fetch = s.fetch := rfl
@[simp] theorem State.sf_channels (b : Nat) (f : Fld) (x : Nat) : (s.sf b f x).channels = s.channels := rfl
@[simp] theorem State.sf_posts (b : Nat) (f : Fld) (x : Nat) : (s.sf b f x).posts = s.posts := rfl
@[simp] theorem State.sf_sessions (b : Nat) (f : Fld) (x : Nat) : (s.sf b f x).sessions = s.sessions := rfl
@[simp] theorem State.sf_queues (b : Nat) (f : Fld) (x : Nat) : (s.sf b f x).queues = s.queues := rfl
@[simp] theorem State.sf_parts (b : Nat) (f : Fld) (x : Nat) : (s.sf b f x).parts = s.parts := rfl
@[simp] theorem State.sf_chart (b : Nat) (f : Fld) (x : Nat) : (s.sf b f x).chart = s.chart := rfl
@[simp] theorem State.sf_dies (b : Nat) (f : Fld) (x : Nat) : (s.sf b f x).dies = s.dies := rfl
@[simp] theorem State.sf_links (b : Nat) (f : Fld) (x : Nat) : (s.sf b f x).links = s.links := rfl
@[simp] theorem State.sf_rails (b : Nat) (f : Fld) (x : Nat) : (s.sf b f x).rails = s.rails := rfl
@[simp] theorem State.sf_ect (b : Nat) (f : Fld) (x : Nat) : (s.sf b f x).ect = s.ect := rfl
@[simp] theorem State.sf_sec (b : Nat) (f : Fld) (x : Nat) : (s.sf b f x).sec = s.sec := rfl
@[simp] theorem State.sf_fw (b : Nat) (f : Fld) (x : Nat) : (s.sf b f x).fw = s.fw := rfl
@[simp] theorem State.sf_pkg (b : Nat) (f : Fld) (x : Nat) : (s.sf b f x).pkg = s.pkg := rfl
@[simp] theorem State.sf_jtag (b : Nat) (f : Fld) (x : Nat) : (s.sf b f x).jtag = s.jtag := rfl
@[simp] theorem State.sf_out (b : Nat) (f : Fld) (x : Nat) : (s.sf b f x).out = s.out := rfl
@[simp] theorem State.sf_steps (b : Nat) (f : Fld) (x : Nat) : (s.sf b f x).steps = s.steps := rfl
@[simp] theorem State.sf_derived (b : Nat) (f : Fld) (x : Nat) : (s.sf b f x).derived = s.derived := rfl
@[simp] theorem State.sf_redo (b : Nat) (f : Fld) (x : Nat) : (s.sf b f x).redo = s.redo := rfl
@[simp] theorem State.sf_hostw (b : Nat) (f : Fld) (x : Nat) : (s.sf b f x).hostw = s.hostw := rfl
@[simp] theorem State.sf_saves (b : Nat) (f : Fld) (x : Nat) : (s.sf b f x).saves = s.saves := rfl
@[simp] theorem State.sf_pev (b : Nat) (f : Fld) (x : Nat) : (s.sf b f x).pev = s.pev := rfl
@[simp] theorem State.sf_fresh (b : Nat) (f : Fld) (x : Nat) : (s.sf b f x).fresh = s.fresh := rfl
@[simp] theorem State.sf_pending (b : Nat) (f : Fld) (x : Nat) : (s.sf b f x).pending = s.pending := rfl

/-! raise -/
@[simp] theorem State.raise_bank (b : Nat) (f : Fld) : (s.raise b f).bank = s.bank := rfl
@[simp] theorem State.raise_mem (b : Nat) (f : Fld) : (s.raise b f).mem = s.mem := rfl
@[simp] theorem State.raise_poison (b : Nat) (f : Fld) : (s.raise b f).poison = s.poison := rfl
@[simp] theorem State.raise_flash (b : Nat) (f : Fld) : (s.raise b f).flash = s.flash := rfl
@[simp] theorem State.raise_clusters (b : Nat) (f : Fld) : (s.raise b f).clusters = s.clusters := rfl
@[simp] theorem State.raise_fetch (b : Nat) (f : Fld) : (s.raise b f).fetch = s.fetch := rfl
@[simp] theorem State.raise_channels (b : Nat) (f : Fld) : (s.raise b f).channels = s.channels := rfl
@[simp] theorem State.raise_posts (b : Nat) (f : Fld) : (s.raise b f).posts = s.posts := rfl
@[simp] theorem State.raise_sessions (b : Nat) (f : Fld) : (s.raise b f).sessions = s.sessions := rfl
@[simp] theorem State.raise_queues (b : Nat) (f : Fld) : (s.raise b f).queues = s.queues := rfl
@[simp] theorem State.raise_parts (b : Nat) (f : Fld) : (s.raise b f).parts = s.parts := rfl
@[simp] theorem State.raise_chart (b : Nat) (f : Fld) : (s.raise b f).chart = s.chart := rfl
@[simp] theorem State.raise_dies (b : Nat) (f : Fld) : (s.raise b f).dies = s.dies := rfl
@[simp] theorem State.raise_links (b : Nat) (f : Fld) : (s.raise b f).links = s.links := rfl
@[simp] theorem State.raise_rails (b : Nat) (f : Fld) : (s.raise b f).rails = s.rails := rfl
@[simp] theorem State.raise_ect (b : Nat) (f : Fld) : (s.raise b f).ect = s.ect := rfl
@[simp] theorem State.raise_sec (b : Nat) (f : Fld) : (s.raise b f).sec = s.sec := rfl
@[simp] theorem State.raise_fw (b : Nat) (f : Fld) : (s.raise b f).fw = s.fw := rfl
@[simp] theorem State.raise_pkg (b : Nat) (f : Fld) : (s.raise b f).pkg = s.pkg := rfl
@[simp] theorem State.raise_jtag (b : Nat) (f : Fld) : (s.raise b f).jtag = s.jtag := rfl
@[simp] theorem State.raise_out (b : Nat) (f : Fld) : (s.raise b f).out = s.out := rfl
@[simp] theorem State.raise_steps (b : Nat) (f : Fld) : (s.raise b f).steps = s.steps := rfl
@[simp] theorem State.raise_derived (b : Nat) (f : Fld) : (s.raise b f).derived = s.derived := rfl
@[simp] theorem State.raise_redo (b : Nat) (f : Fld) : (s.raise b f).redo = s.redo := rfl
@[simp] theorem State.raise_hostw (b : Nat) (f : Fld) : (s.raise b f).hostw = s.hostw := rfl
@[simp] theorem State.raise_saves (b : Nat) (f : Fld) : (s.raise b f).saves = s.saves := rfl
@[simp] theorem State.raise_pev (b : Nat) (f : Fld) : (s.raise b f).pev = s.pev := rfl
@[simp] theorem State.raise_fresh (b : Nat) (f : Fld) : (s.raise b f).fresh = s.fresh := rfl
@[simp] theorem State.raise_pending (b : Nat) (f : Fld) : (s.raise b f).pending = s.pending := rfl

/-! bump -/
@[simp] theorem State.bump_bank (b : Nat) (f : Fld) (n : Nat) : (s.bump b f n).bank = s.bank := rfl
@[simp] theorem State.bump_mem (b : Nat) (f : Fld) (n : Nat) : (s.bump b f n).mem = s.mem := rfl
@[simp] theorem State.bump_poison (b : Nat) (f : Fld) (n : Nat) : (s.bump b f n).poison = s.poison := rfl
@[simp] theorem State.bump_flash (b : Nat) (f : Fld) (n : Nat) : (s.bump b f n).flash = s.flash := rfl
@[simp] theorem State.bump_clusters (b : Nat) (f : Fld) (n : Nat) : (s.bump b f n).clusters = s.clusters := rfl
@[simp] theorem State.bump_fetch (b : Nat) (f : Fld) (n : Nat) : (s.bump b f n).fetch = s.fetch := rfl
@[simp] theorem State.bump_channels (b : Nat) (f : Fld) (n : Nat) : (s.bump b f n).channels = s.channels := rfl
@[simp] theorem State.bump_posts (b : Nat) (f : Fld) (n : Nat) : (s.bump b f n).posts = s.posts := rfl
@[simp] theorem State.bump_sessions (b : Nat) (f : Fld) (n : Nat) : (s.bump b f n).sessions = s.sessions := rfl
@[simp] theorem State.bump_queues (b : Nat) (f : Fld) (n : Nat) : (s.bump b f n).queues = s.queues := rfl
@[simp] theorem State.bump_parts (b : Nat) (f : Fld) (n : Nat) : (s.bump b f n).parts = s.parts := rfl
@[simp] theorem State.bump_chart (b : Nat) (f : Fld) (n : Nat) : (s.bump b f n).chart = s.chart := rfl
@[simp] theorem State.bump_dies (b : Nat) (f : Fld) (n : Nat) : (s.bump b f n).dies = s.dies := rfl
@[simp] theorem State.bump_links (b : Nat) (f : Fld) (n : Nat) : (s.bump b f n).links = s.links := rfl
@[simp] theorem State.bump_rails (b : Nat) (f : Fld) (n : Nat) : (s.bump b f n).rails = s.rails := rfl
@[simp] theorem State.bump_ect (b : Nat) (f : Fld) (n : Nat) : (s.bump b f n).ect = s.ect := rfl
@[simp] theorem State.bump_sec (b : Nat) (f : Fld) (n : Nat) : (s.bump b f n).sec = s.sec := rfl
@[simp] theorem State.bump_fw (b : Nat) (f : Fld) (n : Nat) : (s.bump b f n).fw = s.fw := rfl
@[simp] theorem State.bump_pkg (b : Nat) (f : Fld) (n : Nat) : (s.bump b f n).pkg = s.pkg := rfl
@[simp] theorem State.bump_jtag (b : Nat) (f : Fld) (n : Nat) : (s.bump b f n).jtag = s.jtag := rfl
@[simp] theorem State.bump_out (b : Nat) (f : Fld) (n : Nat) : (s.bump b f n).out = s.out := rfl
@[simp] theorem State.bump_steps (b : Nat) (f : Fld) (n : Nat) : (s.bump b f n).steps = s.steps := rfl
@[simp] theorem State.bump_derived (b : Nat) (f : Fld) (n : Nat) : (s.bump b f n).derived = s.derived := rfl
@[simp] theorem State.bump_redo (b : Nat) (f : Fld) (n : Nat) : (s.bump b f n).redo = s.redo := rfl
@[simp] theorem State.bump_hostw (b : Nat) (f : Fld) (n : Nat) : (s.bump b f n).hostw = s.hostw := rfl
@[simp] theorem State.bump_saves (b : Nat) (f : Fld) (n : Nat) : (s.bump b f n).saves = s.saves := rfl
@[simp] theorem State.bump_pev (b : Nat) (f : Fld) (n : Nat) : (s.bump b f n).pev = s.pev := rfl
@[simp] theorem State.bump_fresh (b : Nat) (f : Fld) (n : Nat) : (s.bump b f n).fresh = s.fresh := rfl
@[simp] theorem State.bump_pending (b : Nat) (f : Fld) (n : Nat) : (s.bump b f n).pending = s.pending := rfl

/-! flag -/
@[simp] theorem State.flag_bank (b : Nat) (f : Fld) (x : Bool) : (s.flag b f x).bank = s.bank := rfl
@[simp] theorem State.flag_mem (b : Nat) (f : Fld) (x : Bool) : (s.flag b f x).mem = s.mem := rfl
@[simp] theorem State.flag_poison (b : Nat) (f : Fld) (x : Bool) : (s.flag b f x).poison = s.poison := rfl
@[simp] theorem State.flag_flash (b : Nat) (f : Fld) (x : Bool) : (s.flag b f x).flash = s.flash := rfl
@[simp] theorem State.flag_clusters (b : Nat) (f : Fld) (x : Bool) : (s.flag b f x).clusters = s.clusters := rfl
@[simp] theorem State.flag_fetch (b : Nat) (f : Fld) (x : Bool) : (s.flag b f x).fetch = s.fetch := rfl
@[simp] theorem State.flag_channels (b : Nat) (f : Fld) (x : Bool) : (s.flag b f x).channels = s.channels := rfl
@[simp] theorem State.flag_posts (b : Nat) (f : Fld) (x : Bool) : (s.flag b f x).posts = s.posts := rfl
@[simp] theorem State.flag_sessions (b : Nat) (f : Fld) (x : Bool) : (s.flag b f x).sessions = s.sessions := rfl
@[simp] theorem State.flag_queues (b : Nat) (f : Fld) (x : Bool) : (s.flag b f x).queues = s.queues := rfl
@[simp] theorem State.flag_parts (b : Nat) (f : Fld) (x : Bool) : (s.flag b f x).parts = s.parts := rfl
@[simp] theorem State.flag_chart (b : Nat) (f : Fld) (x : Bool) : (s.flag b f x).chart = s.chart := rfl
@[simp] theorem State.flag_dies (b : Nat) (f : Fld) (x : Bool) : (s.flag b f x).dies = s.dies := rfl
@[simp] theorem State.flag_links (b : Nat) (f : Fld) (x : Bool) : (s.flag b f x).links = s.links := rfl
@[simp] theorem State.flag_rails (b : Nat) (f : Fld) (x : Bool) : (s.flag b f x).rails = s.rails := rfl
@[simp] theorem State.flag_ect (b : Nat) (f : Fld) (x : Bool) : (s.flag b f x).ect = s.ect := rfl
@[simp] theorem State.flag_sec (b : Nat) (f : Fld) (x : Bool) : (s.flag b f x).sec = s.sec := rfl
@[simp] theorem State.flag_fw (b : Nat) (f : Fld) (x : Bool) : (s.flag b f x).fw = s.fw := rfl
@[simp] theorem State.flag_pkg (b : Nat) (f : Fld) (x : Bool) : (s.flag b f x).pkg = s.pkg := rfl
@[simp] theorem State.flag_jtag (b : Nat) (f : Fld) (x : Bool) : (s.flag b f x).jtag = s.jtag := rfl
@[simp] theorem State.flag_out (b : Nat) (f : Fld) (x : Bool) : (s.flag b f x).out = s.out := rfl
@[simp] theorem State.flag_steps (b : Nat) (f : Fld) (x : Bool) : (s.flag b f x).steps = s.steps := rfl
@[simp] theorem State.flag_derived (b : Nat) (f : Fld) (x : Bool) : (s.flag b f x).derived = s.derived := rfl
@[simp] theorem State.flag_redo (b : Nat) (f : Fld) (x : Bool) : (s.flag b f x).redo = s.redo := rfl
@[simp] theorem State.flag_hostw (b : Nat) (f : Fld) (x : Bool) : (s.flag b f x).hostw = s.hostw := rfl
@[simp] theorem State.flag_saves (b : Nat) (f : Fld) (x : Bool) : (s.flag b f x).saves = s.saves := rfl
@[simp] theorem State.flag_pev (b : Nat) (f : Fld) (x : Bool) : (s.flag b f x).pev = s.pev := rfl
@[simp] theorem State.flag_fresh (b : Nat) (f : Fld) (x : Bool) : (s.flag b f x).fresh = s.fresh := rfl
@[simp] theorem State.flag_pending (b : Nat) (f : Fld) (x : Bool) : (s.flag b f x).pending = s.pending := rfl

/-! setSem -/
@[simp] theorem State.setSem_bank (d i v : Nat) : (s.setSem d i v).bank = s.bank := rfl
@[simp] theorem State.setSem_mem (d i v : Nat) : (s.setSem d i v).mem = s.mem := rfl
@[simp] theorem State.setSem_poison (d i v : Nat) : (s.setSem d i v).poison = s.poison := rfl
@[simp] theorem State.setSem_flash (d i v : Nat) : (s.setSem d i v).flash = s.flash := rfl
@[simp] theorem State.setSem_clusters (d i v : Nat) : (s.setSem d i v).clusters = s.clusters := rfl
@[simp] theorem State.setSem_fetch (d i v : Nat) : (s.setSem d i v).fetch = s.fetch := rfl
@[simp] theorem State.setSem_channels (d i v : Nat) : (s.setSem d i v).channels = s.channels := rfl
@[simp] theorem State.setSem_posts (d i v : Nat) : (s.setSem d i v).posts = s.posts := rfl
@[simp] theorem State.setSem_sessions (d i v : Nat) : (s.setSem d i v).sessions = s.sessions := rfl
@[simp] theorem State.setSem_queues (d i v : Nat) : (s.setSem d i v).queues = s.queues := rfl
@[simp] theorem State.setSem_parts (d i v : Nat) : (s.setSem d i v).parts = s.parts := rfl
@[simp] theorem State.setSem_chart (d i v : Nat) : (s.setSem d i v).chart = s.chart := rfl
@[simp] theorem State.setSem_dies (d i v : Nat) : (s.setSem d i v).dies = s.dies := rfl
@[simp] theorem State.setSem_links (d i v : Nat) : (s.setSem d i v).links = s.links := rfl
@[simp] theorem State.setSem_rails (d i v : Nat) : (s.setSem d i v).rails = s.rails := rfl
@[simp] theorem State.setSem_ect (d i v : Nat) : (s.setSem d i v).ect = s.ect := rfl
@[simp] theorem State.setSem_sec (d i v : Nat) : (s.setSem d i v).sec = s.sec := rfl
@[simp] theorem State.setSem_fw (d i v : Nat) : (s.setSem d i v).fw = s.fw := rfl
@[simp] theorem State.setSem_pkg (d i v : Nat) : (s.setSem d i v).pkg = s.pkg := rfl
@[simp] theorem State.setSem_jtag (d i v : Nat) : (s.setSem d i v).jtag = s.jtag := rfl
@[simp] theorem State.setSem_out (d i v : Nat) : (s.setSem d i v).out = s.out := rfl
@[simp] theorem State.setSem_steps (d i v : Nat) : (s.setSem d i v).steps = s.steps := rfl
@[simp] theorem State.setSem_derived (d i v : Nat) : (s.setSem d i v).derived = s.derived := rfl
@[simp] theorem State.setSem_redo (d i v : Nat) : (s.setSem d i v).redo = s.redo := rfl
@[simp] theorem State.setSem_hostw (d i v : Nat) : (s.setSem d i v).hostw = s.hostw := rfl
@[simp] theorem State.setSem_saves (d i v : Nat) : (s.setSem d i v).saves = s.saves := rfl
@[simp] theorem State.setSem_pev (d i v : Nat) : (s.setSem d i v).pev = s.pev := rfl
@[simp] theorem State.setSem_fresh (d i v : Nat) : (s.setSem d i v).fresh = s.fresh := rfl
@[simp] theorem State.setSem_pending (d i v : Nat) : (s.setSem d i v).pending = s.pending := rfl

/-! bwr -/
@[simp] theorem State.bwr_regs (k : Nat) (v : W32) : (s.bwr k v).regs = s.regs := rfl
@[simp] theorem State.bwr_bank (k : Nat) (v : W32) : (s.bwr k v).bank = Sparse.put bankReset s.bank k v := rfl
@[simp] theorem State.bwr_mem (k : Nat) (v : W32) : (s.bwr k v).mem = s.mem := rfl
@[simp] theorem State.bwr_poison (k : Nat) (v : W32) : (s.bwr k v).poison = s.poison := rfl
@[simp] theorem State.bwr_flash (k : Nat) (v : W32) : (s.bwr k v).flash = s.flash := rfl
@[simp] theorem State.bwr_clusters (k : Nat) (v : W32) : (s.bwr k v).clusters = s.clusters := rfl
@[simp] theorem State.bwr_fetch (k : Nat) (v : W32) : (s.bwr k v).fetch = s.fetch := rfl
@[simp] theorem State.bwr_channels (k : Nat) (v : W32) : (s.bwr k v).channels = s.channels := rfl
@[simp] theorem State.bwr_posts (k : Nat) (v : W32) : (s.bwr k v).posts = s.posts := rfl
@[simp] theorem State.bwr_sessions (k : Nat) (v : W32) : (s.bwr k v).sessions = s.sessions := rfl
@[simp] theorem State.bwr_queues (k : Nat) (v : W32) : (s.bwr k v).queues = s.queues := rfl
@[simp] theorem State.bwr_parts (k : Nat) (v : W32) : (s.bwr k v).parts = s.parts := rfl
@[simp] theorem State.bwr_chart (k : Nat) (v : W32) : (s.bwr k v).chart = s.chart := rfl
@[simp] theorem State.bwr_dies (k : Nat) (v : W32) : (s.bwr k v).dies = s.dies := rfl
@[simp] theorem State.bwr_links (k : Nat) (v : W32) : (s.bwr k v).links = s.links := rfl
@[simp] theorem State.bwr_rails (k : Nat) (v : W32) : (s.bwr k v).rails = s.rails := rfl
@[simp] theorem State.bwr_ect (k : Nat) (v : W32) : (s.bwr k v).ect = s.ect := rfl
@[simp] theorem State.bwr_sec (k : Nat) (v : W32) : (s.bwr k v).sec = s.sec := rfl
@[simp] theorem State.bwr_fw (k : Nat) (v : W32) : (s.bwr k v).fw = s.fw := rfl
@[simp] theorem State.bwr_pkg (k : Nat) (v : W32) : (s.bwr k v).pkg = s.pkg := rfl
@[simp] theorem State.bwr_jtag (k : Nat) (v : W32) : (s.bwr k v).jtag = s.jtag := rfl
@[simp] theorem State.bwr_out (k : Nat) (v : W32) : (s.bwr k v).out = s.out := rfl
@[simp] theorem State.bwr_steps (k : Nat) (v : W32) : (s.bwr k v).steps = s.steps := rfl
@[simp] theorem State.bwr_derived (k : Nat) (v : W32) : (s.bwr k v).derived = s.derived := rfl
@[simp] theorem State.bwr_redo (k : Nat) (v : W32) : (s.bwr k v).redo = s.redo := rfl
@[simp] theorem State.bwr_hostw (k : Nat) (v : W32) : (s.bwr k v).hostw = s.hostw := rfl
@[simp] theorem State.bwr_saves (k : Nat) (v : W32) : (s.bwr k v).saves = s.saves := rfl
@[simp] theorem State.bwr_pev (k : Nat) (v : W32) : (s.bwr k v).pev = s.pev := rfl
@[simp] theorem State.bwr_fresh (k : Nat) (v : W32) : (s.bwr k v).fresh = s.fresh := rfl
@[simp] theorem State.bwr_pending (k : Nat) (v : W32) : (s.bwr k v).pending = s.pending := rfl

/-! csf -/
@[simp] theorem State.csf_regs (l : Nat) (r : Bool) (ch : Nat) (f : Fld) (x : Nat) : (s.csf l r ch f x).regs = s.regs := rfl
@[simp] theorem State.csf_mem (l : Nat) (r : Bool) (ch : Nat) (f : Fld) (x : Nat) : (s.csf l r ch f x).mem = s.mem := rfl
@[simp] theorem State.csf_poison (l : Nat) (r : Bool) (ch : Nat) (f : Fld) (x : Nat) : (s.csf l r ch f x).poison = s.poison := rfl
@[simp] theorem State.csf_flash (l : Nat) (r : Bool) (ch : Nat) (f : Fld) (x : Nat) : (s.csf l r ch f x).flash = s.flash := rfl
@[simp] theorem State.csf_clusters (l : Nat) (r : Bool) (ch : Nat) (f : Fld) (x : Nat) : (s.csf l r ch f x).clusters = s.clusters := rfl
@[simp] theorem State.csf_fetch (l : Nat) (r : Bool) (ch : Nat) (f : Fld) (x : Nat) : (s.csf l r ch f x).fetch = s.fetch := rfl
@[simp] theorem State.csf_channels (l : Nat) (r : Bool) (ch : Nat) (f : Fld) (x : Nat) : (s.csf l r ch f x).channels = s.channels := rfl
@[simp] theorem State.csf_posts (l : Nat) (r : Bool) (ch : Nat) (f : Fld) (x : Nat) : (s.csf l r ch f x).posts = s.posts := rfl
@[simp] theorem State.csf_sessions (l : Nat) (r : Bool) (ch : Nat) (f : Fld) (x : Nat) : (s.csf l r ch f x).sessions = s.sessions := rfl
@[simp] theorem State.csf_queues (l : Nat) (r : Bool) (ch : Nat) (f : Fld) (x : Nat) : (s.csf l r ch f x).queues = s.queues := rfl
@[simp] theorem State.csf_parts (l : Nat) (r : Bool) (ch : Nat) (f : Fld) (x : Nat) : (s.csf l r ch f x).parts = s.parts := rfl
@[simp] theorem State.csf_chart (l : Nat) (r : Bool) (ch : Nat) (f : Fld) (x : Nat) : (s.csf l r ch f x).chart = s.chart := rfl
@[simp] theorem State.csf_dies (l : Nat) (r : Bool) (ch : Nat) (f : Fld) (x : Nat) : (s.csf l r ch f x).dies = s.dies := rfl
@[simp] theorem State.csf_links (l : Nat) (r : Bool) (ch : Nat) (f : Fld) (x : Nat) : (s.csf l r ch f x).links = s.links := rfl
@[simp] theorem State.csf_rails (l : Nat) (r : Bool) (ch : Nat) (f : Fld) (x : Nat) : (s.csf l r ch f x).rails = s.rails := rfl
@[simp] theorem State.csf_ect (l : Nat) (r : Bool) (ch : Nat) (f : Fld) (x : Nat) : (s.csf l r ch f x).ect = s.ect := rfl
@[simp] theorem State.csf_sec (l : Nat) (r : Bool) (ch : Nat) (f : Fld) (x : Nat) : (s.csf l r ch f x).sec = s.sec := rfl
@[simp] theorem State.csf_fw (l : Nat) (r : Bool) (ch : Nat) (f : Fld) (x : Nat) : (s.csf l r ch f x).fw = s.fw := rfl
@[simp] theorem State.csf_pkg (l : Nat) (r : Bool) (ch : Nat) (f : Fld) (x : Nat) : (s.csf l r ch f x).pkg = s.pkg := rfl
@[simp] theorem State.csf_jtag (l : Nat) (r : Bool) (ch : Nat) (f : Fld) (x : Nat) : (s.csf l r ch f x).jtag = s.jtag := rfl
@[simp] theorem State.csf_out (l : Nat) (r : Bool) (ch : Nat) (f : Fld) (x : Nat) : (s.csf l r ch f x).out = s.out := rfl
@[simp] theorem State.csf_steps (l : Nat) (r : Bool) (ch : Nat) (f : Fld) (x : Nat) : (s.csf l r ch f x).steps = s.steps := rfl
@[simp] theorem State.csf_derived (l : Nat) (r : Bool) (ch : Nat) (f : Fld) (x : Nat) : (s.csf l r ch f x).derived = s.derived := rfl
@[simp] theorem State.csf_redo (l : Nat) (r : Bool) (ch : Nat) (f : Fld) (x : Nat) : (s.csf l r ch f x).redo = s.redo := rfl
@[simp] theorem State.csf_hostw (l : Nat) (r : Bool) (ch : Nat) (f : Fld) (x : Nat) : (s.csf l r ch f x).hostw = s.hostw := rfl
@[simp] theorem State.csf_saves (l : Nat) (r : Bool) (ch : Nat) (f : Fld) (x : Nat) : (s.csf l r ch f x).saves = s.saves := rfl
@[simp] theorem State.csf_pev (l : Nat) (r : Bool) (ch : Nat) (f : Fld) (x : Nat) : (s.csf l r ch f x).pev = s.pev := rfl
@[simp] theorem State.csf_fresh (l : Nat) (r : Bool) (ch : Nat) (f : Fld) (x : Nat) : (s.csf l r ch f x).fresh = s.fresh := rfl
@[simp] theorem State.csf_pending (l : Nat) (r : Bool) (ch : Nat) (f : Fld) (x : Nat) : (s.csf l r ch f x).pending = s.pending := rfl

/-! setClN -/
@[simp] theorem State.setClN_regs (n : Nat) (x : Cluster) : (s.setClN n x).regs = s.regs := rfl
@[simp] theorem State.setClN_bank (n : Nat) (x : Cluster) : (s.setClN n x).bank = s.bank := rfl
@[simp] theorem State.setClN_mem (n : Nat) (x : Cluster) : (s.setClN n x).mem = s.mem := rfl
@[simp] theorem State.setClN_poison (n : Nat) (x : Cluster) : (s.setClN n x).poison = s.poison := rfl
@[simp] theorem State.setClN_flash (n : Nat) (x : Cluster) : (s.setClN n x).flash = s.flash := rfl
@[simp] theorem State.setClN_clusters (n : Nat) (x : Cluster) : (s.setClN n x).clusters = Sparse.put (fun _ => {}) s.clusters n x := rfl
@[simp] theorem State.setClN_fetch (n : Nat) (x : Cluster) : (s.setClN n x).fetch = s.fetch := rfl
@[simp] theorem State.setClN_channels (n : Nat) (x : Cluster) : (s.setClN n x).channels = s.channels := rfl
@[simp] theorem State.setClN_posts (n : Nat) (x : Cluster) : (s.setClN n x).posts = s.posts := rfl
@[simp] theorem State.setClN_sessions (n : Nat) (x : Cluster) : (s.setClN n x).sessions = s.sessions := rfl
@[simp] theorem State.setClN_queues (n : Nat) (x : Cluster) : (s.setClN n x).queues = s.queues := rfl
@[simp] theorem State.setClN_parts (n : Nat) (x : Cluster) : (s.setClN n x).parts = s.parts := rfl
@[simp] theorem State.setClN_chart (n : Nat) (x : Cluster) : (s.setClN n x).chart = s.chart := rfl
@[simp] theorem State.setClN_dies (n : Nat) (x : Cluster) : (s.setClN n x).dies = s.dies := rfl
@[simp] theorem State.setClN_links (n : Nat) (x : Cluster) : (s.setClN n x).links = s.links := rfl
@[simp] theorem State.setClN_rails (n : Nat) (x : Cluster) : (s.setClN n x).rails = s.rails := rfl
@[simp] theorem State.setClN_ect (n : Nat) (x : Cluster) : (s.setClN n x).ect = s.ect := rfl
@[simp] theorem State.setClN_sec (n : Nat) (x : Cluster) : (s.setClN n x).sec = s.sec := rfl
@[simp] theorem State.setClN_fw (n : Nat) (x : Cluster) : (s.setClN n x).fw = s.fw := rfl
@[simp] theorem State.setClN_pkg (n : Nat) (x : Cluster) : (s.setClN n x).pkg = s.pkg := rfl
@[simp] theorem State.setClN_jtag (n : Nat) (x : Cluster) : (s.setClN n x).jtag = s.jtag := rfl
@[simp] theorem State.setClN_out (n : Nat) (x : Cluster) : (s.setClN n x).out = s.out := rfl
@[simp] theorem State.setClN_steps (n : Nat) (x : Cluster) : (s.setClN n x).steps = s.steps := rfl
@[simp] theorem State.setClN_derived (n : Nat) (x : Cluster) : (s.setClN n x).derived = s.derived := rfl
@[simp] theorem State.setClN_redo (n : Nat) (x : Cluster) : (s.setClN n x).redo = s.redo := rfl
@[simp] theorem State.setClN_hostw (n : Nat) (x : Cluster) : (s.setClN n x).hostw = s.hostw := rfl
@[simp] theorem State.setClN_saves (n : Nat) (x : Cluster) : (s.setClN n x).saves = s.saves := rfl
@[simp] theorem State.setClN_pev (n : Nat) (x : Cluster) : (s.setClN n x).pev = s.pev := rfl
@[simp] theorem State.setClN_fresh (n : Nat) (x : Cluster) : (s.setClN n x).fresh = s.fresh := rfl
@[simp] theorem State.setClN_pending (n : Nat) (x : Cluster) : (s.setClN n x).pending = s.pending := rfl

/-! setCl -/
@[simp] theorem State.setCl_regs (c : ClusterId) (x : Cluster) : (s.setCl c x).regs = s.regs := rfl
@[simp] theorem State.setCl_bank (c : ClusterId) (x : Cluster) : (s.setCl c x).bank = s.bank := rfl
@[simp] theorem State.setCl_mem (c : ClusterId) (x : Cluster) : (s.setCl c x).mem = s.mem := rfl
@[simp] theorem State.setCl_poison (c : ClusterId) (x : Cluster) : (s.setCl c x).poison = s.poison := rfl
@[simp] theorem State.setCl_flash (c : ClusterId) (x : Cluster) : (s.setCl c x).flash = s.flash := rfl
@[simp] theorem State.setCl_clusters (c : ClusterId) (x : Cluster) : (s.setCl c x).clusters = Sparse.put (fun _ => {}) s.clusters c.no x := rfl
@[simp] theorem State.setCl_fetch (c : ClusterId) (x : Cluster) : (s.setCl c x).fetch = s.fetch := rfl
@[simp] theorem State.setCl_channels (c : ClusterId) (x : Cluster) : (s.setCl c x).channels = s.channels := rfl
@[simp] theorem State.setCl_posts (c : ClusterId) (x : Cluster) : (s.setCl c x).posts = s.posts := rfl
@[simp] theorem State.setCl_sessions (c : ClusterId) (x : Cluster) : (s.setCl c x).sessions = s.sessions := rfl
@[simp] theorem State.setCl_queues (c : ClusterId) (x : Cluster) : (s.setCl c x).queues = s.queues := rfl
@[simp] theorem State.setCl_parts (c : ClusterId) (x : Cluster) : (s.setCl c x).parts = s.parts := rfl
@[simp] theorem State.setCl_chart (c : ClusterId) (x : Cluster) : (s.setCl c x).chart = s.chart := rfl
@[simp] theorem State.setCl_dies (c : ClusterId) (x : Cluster) : (s.setCl c x).dies = s.dies := rfl
@[simp] theorem State.setCl_links (c : ClusterId) (x : Cluster) : (s.setCl c x).links = s.links := rfl
@[simp] theorem State.setCl_rails (c : ClusterId) (x : Cluster) : (s.setCl c x).rails = s.rails := rfl
@[simp] theorem State.setCl_ect (c : ClusterId) (x : Cluster) : (s.setCl c x).ect = s.ect := rfl
@[simp] theorem State.setCl_sec (c : ClusterId) (x : Cluster) : (s.setCl c x).sec = s.sec := rfl
@[simp] theorem State.setCl_fw (c : ClusterId) (x : Cluster) : (s.setCl c x).fw = s.fw := rfl
@[simp] theorem State.setCl_pkg (c : ClusterId) (x : Cluster) : (s.setCl c x).pkg = s.pkg := rfl
@[simp] theorem State.setCl_jtag (c : ClusterId) (x : Cluster) : (s.setCl c x).jtag = s.jtag := rfl
@[simp] theorem State.setCl_out (c : ClusterId) (x : Cluster) : (s.setCl c x).out = s.out := rfl
@[simp] theorem State.setCl_steps (c : ClusterId) (x : Cluster) : (s.setCl c x).steps = s.steps := rfl
@[simp] theorem State.setCl_derived (c : ClusterId) (x : Cluster) : (s.setCl c x).derived = s.derived := rfl
@[simp] theorem State.setCl_redo (c : ClusterId) (x : Cluster) : (s.setCl c x).redo = s.redo := rfl
@[simp] theorem State.setCl_hostw (c : ClusterId) (x : Cluster) : (s.setCl c x).hostw = s.hostw := rfl
@[simp] theorem State.setCl_saves (c : ClusterId) (x : Cluster) : (s.setCl c x).saves = s.saves := rfl
@[simp] theorem State.setCl_pev (c : ClusterId) (x : Cluster) : (s.setCl c x).pev = s.pev := rfl
@[simp] theorem State.setCl_fresh (c : ClusterId) (x : Cluster) : (s.setCl c x).fresh = s.fresh := rfl
@[simp] theorem State.setCl_pending (c : ClusterId) (x : Cluster) : (s.setCl c x).pending = s.pending := rfl

/-! setFqN -/
@[simp] theorem State.setFqN_regs (n : Nat) (x : FetchQ) : (s.setFqN n x).regs = s.regs := rfl
@[simp] theorem State.setFqN_bank (n : Nat) (x : FetchQ) : (s.setFqN n x).bank = s.bank := rfl
@[simp] theorem State.setFqN_mem (n : Nat) (x : FetchQ) : (s.setFqN n x).mem = s.mem := rfl
@[simp] theorem State.setFqN_poison (n : Nat) (x : FetchQ) : (s.setFqN n x).poison = s.poison := rfl
@[simp] theorem State.setFqN_flash (n : Nat) (x : FetchQ) : (s.setFqN n x).flash = s.flash := rfl
@[simp] theorem State.setFqN_clusters (n : Nat) (x : FetchQ) : (s.setFqN n x).clusters = s.clusters := rfl
@[simp] theorem State.setFqN_fetch (n : Nat) (x : FetchQ) : (s.setFqN n x).fetch = Sparse.put (fun _ => {}) s.fetch n x := rfl
@[simp] theorem State.setFqN_channels (n : Nat) (x : FetchQ) : (s.setFqN n x).channels = s.channels := rfl
@[simp] theorem State.setFqN_posts (n : Nat) (x : FetchQ) : (s.setFqN n x).posts = s.posts := rfl
@[simp] theorem State.setFqN_sessions (n : Nat) (x : FetchQ) : (s.setFqN n x).sessions = s.sessions := rfl
@[simp] theorem State.setFqN_queues (n : Nat) (x : FetchQ) : (s.setFqN n x).queues = s.queues := rfl
@[simp] theorem State.setFqN_parts (n : Nat) (x : FetchQ) : (s.setFqN n x).parts = s.parts := rfl
@[simp] theorem State.setFqN_chart (n : Nat) (x : FetchQ) : (s.setFqN n x).chart = s.chart := rfl
@[simp] theorem State.setFqN_dies (n : Nat) (x : FetchQ) : (s.setFqN n x).dies = s.dies := rfl
@[simp] theorem State.setFqN_links (n : Nat) (x : FetchQ) : (s.setFqN n x).links = s.links := rfl
@[simp] theorem State.setFqN_rails (n : Nat) (x : FetchQ) : (s.setFqN n x).rails = s.rails := rfl
@[simp] theorem State.setFqN_ect (n : Nat) (x : FetchQ) : (s.setFqN n x).ect = s.ect := rfl
@[simp] theorem State.setFqN_sec (n : Nat) (x : FetchQ) : (s.setFqN n x).sec = s.sec := rfl
@[simp] theorem State.setFqN_fw (n : Nat) (x : FetchQ) : (s.setFqN n x).fw = s.fw := rfl
@[simp] theorem State.setFqN_pkg (n : Nat) (x : FetchQ) : (s.setFqN n x).pkg = s.pkg := rfl
@[simp] theorem State.setFqN_jtag (n : Nat) (x : FetchQ) : (s.setFqN n x).jtag = s.jtag := rfl
@[simp] theorem State.setFqN_out (n : Nat) (x : FetchQ) : (s.setFqN n x).out = s.out := rfl
@[simp] theorem State.setFqN_steps (n : Nat) (x : FetchQ) : (s.setFqN n x).steps = s.steps := rfl
@[simp] theorem State.setFqN_derived (n : Nat) (x : FetchQ) : (s.setFqN n x).derived = s.derived := rfl
@[simp] theorem State.setFqN_redo (n : Nat) (x : FetchQ) : (s.setFqN n x).redo = s.redo := rfl
@[simp] theorem State.setFqN_hostw (n : Nat) (x : FetchQ) : (s.setFqN n x).hostw = s.hostw := rfl
@[simp] theorem State.setFqN_saves (n : Nat) (x : FetchQ) : (s.setFqN n x).saves = s.saves := rfl
@[simp] theorem State.setFqN_pev (n : Nat) (x : FetchQ) : (s.setFqN n x).pev = s.pev := rfl
@[simp] theorem State.setFqN_fresh (n : Nat) (x : FetchQ) : (s.setFqN n x).fresh = s.fresh := rfl
@[simp] theorem State.setFqN_pending (n : Nat) (x : FetchQ) : (s.setFqN n x).pending = s.pending := rfl

/-! setFq -/
@[simp] theorem State.setFq_regs (c : ClusterId) (q : Nat) (x : FetchQ) : (s.setFq c q x).regs = s.regs := rfl
@[simp] theorem State.setFq_bank (c : ClusterId) (q : Nat) (x : FetchQ) : (s.setFq c q x).bank = s.bank := rfl
@[simp] theorem State.setFq_mem (c : ClusterId) (q : Nat) (x : FetchQ) : (s.setFq c q x).mem = s.mem := rfl
@[simp] theorem State.setFq_poison (c : ClusterId) (q : Nat) (x : FetchQ) : (s.setFq c q x).poison = s.poison := rfl
@[simp] theorem State.setFq_flash (c : ClusterId) (q : Nat) (x : FetchQ) : (s.setFq c q x).flash = s.flash := rfl
@[simp] theorem State.setFq_clusters (c : ClusterId) (q : Nat) (x : FetchQ) : (s.setFq c q x).clusters = s.clusters := rfl
@[simp] theorem State.setFq_fetch (c : ClusterId) (q : Nat) (x : FetchQ) : (s.setFq c q x).fetch = Sparse.put (fun _ => {}) s.fetch (c.fetchNo q) x := rfl
@[simp] theorem State.setFq_channels (c : ClusterId) (q : Nat) (x : FetchQ) : (s.setFq c q x).channels = s.channels := rfl
@[simp] theorem State.setFq_posts (c : ClusterId) (q : Nat) (x : FetchQ) : (s.setFq c q x).posts = s.posts := rfl
@[simp] theorem State.setFq_sessions (c : ClusterId) (q : Nat) (x : FetchQ) : (s.setFq c q x).sessions = s.sessions := rfl
@[simp] theorem State.setFq_queues (c : ClusterId) (q : Nat) (x : FetchQ) : (s.setFq c q x).queues = s.queues := rfl
@[simp] theorem State.setFq_parts (c : ClusterId) (q : Nat) (x : FetchQ) : (s.setFq c q x).parts = s.parts := rfl
@[simp] theorem State.setFq_chart (c : ClusterId) (q : Nat) (x : FetchQ) : (s.setFq c q x).chart = s.chart := rfl
@[simp] theorem State.setFq_dies (c : ClusterId) (q : Nat) (x : FetchQ) : (s.setFq c q x).dies = s.dies := rfl
@[simp] theorem State.setFq_links (c : ClusterId) (q : Nat) (x : FetchQ) : (s.setFq c q x).links = s.links := rfl
@[simp] theorem State.setFq_rails (c : ClusterId) (q : Nat) (x : FetchQ) : (s.setFq c q x).rails = s.rails := rfl
@[simp] theorem State.setFq_ect (c : ClusterId) (q : Nat) (x : FetchQ) : (s.setFq c q x).ect = s.ect := rfl
@[simp] theorem State.setFq_sec (c : ClusterId) (q : Nat) (x : FetchQ) : (s.setFq c q x).sec = s.sec := rfl
@[simp] theorem State.setFq_fw (c : ClusterId) (q : Nat) (x : FetchQ) : (s.setFq c q x).fw = s.fw := rfl
@[simp] theorem State.setFq_pkg (c : ClusterId) (q : Nat) (x : FetchQ) : (s.setFq c q x).pkg = s.pkg := rfl
@[simp] theorem State.setFq_jtag (c : ClusterId) (q : Nat) (x : FetchQ) : (s.setFq c q x).jtag = s.jtag := rfl
@[simp] theorem State.setFq_out (c : ClusterId) (q : Nat) (x : FetchQ) : (s.setFq c q x).out = s.out := rfl
@[simp] theorem State.setFq_steps (c : ClusterId) (q : Nat) (x : FetchQ) : (s.setFq c q x).steps = s.steps := rfl
@[simp] theorem State.setFq_derived (c : ClusterId) (q : Nat) (x : FetchQ) : (s.setFq c q x).derived = s.derived := rfl
@[simp] theorem State.setFq_redo (c : ClusterId) (q : Nat) (x : FetchQ) : (s.setFq c q x).redo = s.redo := rfl
@[simp] theorem State.setFq_hostw (c : ClusterId) (q : Nat) (x : FetchQ) : (s.setFq c q x).hostw = s.hostw := rfl
@[simp] theorem State.setFq_saves (c : ClusterId) (q : Nat) (x : FetchQ) : (s.setFq c q x).saves = s.saves := rfl
@[simp] theorem State.setFq_pev (c : ClusterId) (q : Nat) (x : FetchQ) : (s.setFq c q x).pev = s.pev := rfl
@[simp] theorem State.setFq_fresh (c : ClusterId) (q : Nat) (x : FetchQ) : (s.setFq c q x).fresh = s.fresh := rfl
@[simp] theorem State.setFq_pending (c : ClusterId) (q : Nat) (x : FetchQ) : (s.setFq c q x).pending = s.pending := rfl

/-! setChan -/
@[simp] theorem State.setChan_regs (ch : ChannelId) (x : Channel) : (s.setChan ch x).regs = s.regs := rfl
@[simp] theorem State.setChan_bank (ch : ChannelId) (x : Channel) : (s.setChan ch x).bank = s.bank := rfl
@[simp] theorem State.setChan_mem (ch : ChannelId) (x : Channel) : (s.setChan ch x).mem = s.mem := rfl
@[simp] theorem State.setChan_poison (ch : ChannelId) (x : Channel) : (s.setChan ch x).poison = s.poison := rfl
@[simp] theorem State.setChan_flash (ch : ChannelId) (x : Channel) : (s.setChan ch x).flash = s.flash := rfl
@[simp] theorem State.setChan_clusters (ch : ChannelId) (x : Channel) : (s.setChan ch x).clusters = s.clusters := rfl
@[simp] theorem State.setChan_fetch (ch : ChannelId) (x : Channel) : (s.setChan ch x).fetch = s.fetch := rfl
@[simp] theorem State.setChan_channels (ch : ChannelId) (x : Channel) : (s.setChan ch x).channels = Sparse.put (fun _ => {}) s.channels ch.no x := rfl
@[simp] theorem State.setChan_posts (ch : ChannelId) (x : Channel) : (s.setChan ch x).posts = s.posts := rfl
@[simp] theorem State.setChan_sessions (ch : ChannelId) (x : Channel) : (s.setChan ch x).sessions = s.sessions := rfl
@[simp] theorem State.setChan_queues (ch : ChannelId) (x : Channel) : (s.setChan ch x).queues = s.queues := rfl
@[simp] theorem State.setChan_parts (ch : ChannelId) (x : Channel) : (s.setChan ch x).parts = s.parts := rfl
@[simp] theorem State.setChan_chart (ch : ChannelId) (x : Channel) : (s.setChan ch x).chart = s.chart := rfl
@[simp] theorem State.setChan_dies (ch : ChannelId) (x : Channel) : (s.setChan ch x).dies = s.dies := rfl
@[simp] theorem State.setChan_links (ch : ChannelId) (x : Channel) : (s.setChan ch x).links = s.links := rfl
@[simp] theorem State.setChan_rails (ch : ChannelId) (x : Channel) : (s.setChan ch x).rails = s.rails := rfl
@[simp] theorem State.setChan_ect (ch : ChannelId) (x : Channel) : (s.setChan ch x).ect = s.ect := rfl
@[simp] theorem State.setChan_sec (ch : ChannelId) (x : Channel) : (s.setChan ch x).sec = s.sec := rfl
@[simp] theorem State.setChan_fw (ch : ChannelId) (x : Channel) : (s.setChan ch x).fw = s.fw := rfl
@[simp] theorem State.setChan_pkg (ch : ChannelId) (x : Channel) : (s.setChan ch x).pkg = s.pkg := rfl
@[simp] theorem State.setChan_jtag (ch : ChannelId) (x : Channel) : (s.setChan ch x).jtag = s.jtag := rfl
@[simp] theorem State.setChan_out (ch : ChannelId) (x : Channel) : (s.setChan ch x).out = s.out := rfl
@[simp] theorem State.setChan_steps (ch : ChannelId) (x : Channel) : (s.setChan ch x).steps = s.steps := rfl
@[simp] theorem State.setChan_derived (ch : ChannelId) (x : Channel) : (s.setChan ch x).derived = s.derived := rfl
@[simp] theorem State.setChan_redo (ch : ChannelId) (x : Channel) : (s.setChan ch x).redo = s.redo := rfl
@[simp] theorem State.setChan_hostw (ch : ChannelId) (x : Channel) : (s.setChan ch x).hostw = s.hostw := rfl
@[simp] theorem State.setChan_saves (ch : ChannelId) (x : Channel) : (s.setChan ch x).saves = s.saves := rfl
@[simp] theorem State.setChan_pev (ch : ChannelId) (x : Channel) : (s.setChan ch x).pev = s.pev := rfl
@[simp] theorem State.setChan_fresh (ch : ChannelId) (x : Channel) : (s.setChan ch x).fresh = s.fresh := rfl
@[simp] theorem State.setChan_pending (ch : ChannelId) (x : Channel) : (s.setChan ch x).pending = s.pending := rfl

/-! setSes -/
@[simp] theorem State.setSes_regs (n : Nat) (x : Session) : (s.setSes n x).regs = s.regs := rfl
@[simp] theorem State.setSes_bank (n : Nat) (x : Session) : (s.setSes n x).bank = s.bank := rfl
@[simp] theorem State.setSes_mem (n : Nat) (x : Session) : (s.setSes n x).mem = s.mem := rfl
@[simp] theorem State.setSes_poison (n : Nat) (x : Session) : (s.setSes n x).poison = s.poison := rfl
@[simp] theorem State.setSes_flash (n : Nat) (x : Session) : (s.setSes n x).flash = s.flash := rfl
@[simp] theorem State.setSes_clusters (n : Nat) (x : Session) : (s.setSes n x).clusters = s.clusters := rfl
@[simp] theorem State.setSes_fetch (n : Nat) (x : Session) : (s.setSes n x).fetch = s.fetch := rfl
@[simp] theorem State.setSes_channels (n : Nat) (x : Session) : (s.setSes n x).channels = s.channels := rfl
@[simp] theorem State.setSes_posts (n : Nat) (x : Session) : (s.setSes n x).posts = s.posts := rfl
@[simp] theorem State.setSes_sessions (n : Nat) (x : Session) : (s.setSes n x).sessions = Sparse.put (fun _ => {}) s.sessions n x := rfl
@[simp] theorem State.setSes_queues (n : Nat) (x : Session) : (s.setSes n x).queues = s.queues := rfl
@[simp] theorem State.setSes_parts (n : Nat) (x : Session) : (s.setSes n x).parts = s.parts := rfl
@[simp] theorem State.setSes_chart (n : Nat) (x : Session) : (s.setSes n x).chart = s.chart := rfl
@[simp] theorem State.setSes_dies (n : Nat) (x : Session) : (s.setSes n x).dies = s.dies := rfl
@[simp] theorem State.setSes_links (n : Nat) (x : Session) : (s.setSes n x).links = s.links := rfl
@[simp] theorem State.setSes_rails (n : Nat) (x : Session) : (s.setSes n x).rails = s.rails := rfl
@[simp] theorem State.setSes_ect (n : Nat) (x : Session) : (s.setSes n x).ect = s.ect := rfl
@[simp] theorem State.setSes_sec (n : Nat) (x : Session) : (s.setSes n x).sec = s.sec := rfl
@[simp] theorem State.setSes_fw (n : Nat) (x : Session) : (s.setSes n x).fw = s.fw := rfl
@[simp] theorem State.setSes_pkg (n : Nat) (x : Session) : (s.setSes n x).pkg = s.pkg := rfl
@[simp] theorem State.setSes_jtag (n : Nat) (x : Session) : (s.setSes n x).jtag = s.jtag := rfl
@[simp] theorem State.setSes_out (n : Nat) (x : Session) : (s.setSes n x).out = s.out := rfl
@[simp] theorem State.setSes_steps (n : Nat) (x : Session) : (s.setSes n x).steps = s.steps := rfl
@[simp] theorem State.setSes_derived (n : Nat) (x : Session) : (s.setSes n x).derived = s.derived := rfl
@[simp] theorem State.setSes_redo (n : Nat) (x : Session) : (s.setSes n x).redo = s.redo := rfl
@[simp] theorem State.setSes_hostw (n : Nat) (x : Session) : (s.setSes n x).hostw = s.hostw := rfl
@[simp] theorem State.setSes_saves (n : Nat) (x : Session) : (s.setSes n x).saves = s.saves := rfl
@[simp] theorem State.setSes_pev (n : Nat) (x : Session) : (s.setSes n x).pev = s.pev := rfl
@[simp] theorem State.setSes_fresh (n : Nat) (x : Session) : (s.setSes n x).fresh = s.fresh := rfl
@[simp] theorem State.setSes_pending (n : Nat) (x : Session) : (s.setSes n x).pending = s.pending := rfl

/-! setQue -/
@[simp] theorem State.setQue_regs (q : Nat) (x : HostQueue) : (s.setQue q x).regs = s.regs := rfl
@[simp] theorem State.setQue_bank (q : Nat) (x : HostQueue) : (s.setQue q x).bank = s.bank := rfl
@[simp] theorem State.setQue_mem (q : Nat) (x : HostQueue) : (s.setQue q x).mem = s.mem := rfl
@[simp] theorem State.setQue_poison (q : Nat) (x : HostQueue) : (s.setQue q x).poison = s.poison := rfl
@[simp] theorem State.setQue_flash (q : Nat) (x : HostQueue) : (s.setQue q x).flash = s.flash := rfl
@[simp] theorem State.setQue_clusters (q : Nat) (x : HostQueue) : (s.setQue q x).clusters = s.clusters := rfl
@[simp] theorem State.setQue_fetch (q : Nat) (x : HostQueue) : (s.setQue q x).fetch = s.fetch := rfl
@[simp] theorem State.setQue_channels (q : Nat) (x : HostQueue) : (s.setQue q x).channels = s.channels := rfl
@[simp] theorem State.setQue_posts (q : Nat) (x : HostQueue) : (s.setQue q x).posts = s.posts := rfl
@[simp] theorem State.setQue_sessions (q : Nat) (x : HostQueue) : (s.setQue q x).sessions = s.sessions := rfl
@[simp] theorem State.setQue_queues (q : Nat) (x : HostQueue) : (s.setQue q x).queues = Sparse.put (fun _ => {}) s.queues q x := rfl
@[simp] theorem State.setQue_parts (q : Nat) (x : HostQueue) : (s.setQue q x).parts = s.parts := rfl
@[simp] theorem State.setQue_chart (q : Nat) (x : HostQueue) : (s.setQue q x).chart = s.chart := rfl
@[simp] theorem State.setQue_dies (q : Nat) (x : HostQueue) : (s.setQue q x).dies = s.dies := rfl
@[simp] theorem State.setQue_links (q : Nat) (x : HostQueue) : (s.setQue q x).links = s.links := rfl
@[simp] theorem State.setQue_rails (q : Nat) (x : HostQueue) : (s.setQue q x).rails = s.rails := rfl
@[simp] theorem State.setQue_ect (q : Nat) (x : HostQueue) : (s.setQue q x).ect = s.ect := rfl
@[simp] theorem State.setQue_sec (q : Nat) (x : HostQueue) : (s.setQue q x).sec = s.sec := rfl
@[simp] theorem State.setQue_fw (q : Nat) (x : HostQueue) : (s.setQue q x).fw = s.fw := rfl
@[simp] theorem State.setQue_pkg (q : Nat) (x : HostQueue) : (s.setQue q x).pkg = s.pkg := rfl
@[simp] theorem State.setQue_jtag (q : Nat) (x : HostQueue) : (s.setQue q x).jtag = s.jtag := rfl
@[simp] theorem State.setQue_out (q : Nat) (x : HostQueue) : (s.setQue q x).out = s.out := rfl
@[simp] theorem State.setQue_steps (q : Nat) (x : HostQueue) : (s.setQue q x).steps = s.steps := rfl
@[simp] theorem State.setQue_derived (q : Nat) (x : HostQueue) : (s.setQue q x).derived = s.derived := rfl
@[simp] theorem State.setQue_redo (q : Nat) (x : HostQueue) : (s.setQue q x).redo = s.redo := rfl
@[simp] theorem State.setQue_hostw (q : Nat) (x : HostQueue) : (s.setQue q x).hostw = s.hostw := rfl
@[simp] theorem State.setQue_saves (q : Nat) (x : HostQueue) : (s.setQue q x).saves = s.saves := rfl
@[simp] theorem State.setQue_pev (q : Nat) (x : HostQueue) : (s.setQue q x).pev = s.pev := rfl
@[simp] theorem State.setQue_fresh (q : Nat) (x : HostQueue) : (s.setQue q x).fresh = s.fresh := rfl
@[simp] theorem State.setQue_pending (q : Nat) (x : HostQueue) : (s.setQue q x).pending = s.pending := rfl

/-! setDie -/
@[simp] theorem State.setDie_regs (d : Nat) (x : DieState) : (s.setDie d x).regs = s.regs := rfl
@[simp] theorem State.setDie_bank (d : Nat) (x : DieState) : (s.setDie d x).bank = s.bank := rfl
@[simp] theorem State.setDie_mem (d : Nat) (x : DieState) : (s.setDie d x).mem = s.mem := rfl
@[simp] theorem State.setDie_poison (d : Nat) (x : DieState) : (s.setDie d x).poison = s.poison := rfl
@[simp] theorem State.setDie_flash (d : Nat) (x : DieState) : (s.setDie d x).flash = s.flash := rfl
@[simp] theorem State.setDie_clusters (d : Nat) (x : DieState) : (s.setDie d x).clusters = s.clusters := rfl
@[simp] theorem State.setDie_fetch (d : Nat) (x : DieState) : (s.setDie d x).fetch = s.fetch := rfl
@[simp] theorem State.setDie_channels (d : Nat) (x : DieState) : (s.setDie d x).channels = s.channels := rfl
@[simp] theorem State.setDie_posts (d : Nat) (x : DieState) : (s.setDie d x).posts = s.posts := rfl
@[simp] theorem State.setDie_sessions (d : Nat) (x : DieState) : (s.setDie d x).sessions = s.sessions := rfl
@[simp] theorem State.setDie_queues (d : Nat) (x : DieState) : (s.setDie d x).queues = s.queues := rfl
@[simp] theorem State.setDie_parts (d : Nat) (x : DieState) : (s.setDie d x).parts = s.parts := rfl
@[simp] theorem State.setDie_chart (d : Nat) (x : DieState) : (s.setDie d x).chart = s.chart := rfl
@[simp] theorem State.setDie_dies (d : Nat) (x : DieState) : (s.setDie d x).dies = Sparse.put (fun _ => {}) s.dies d x := rfl
@[simp] theorem State.setDie_links (d : Nat) (x : DieState) : (s.setDie d x).links = s.links := rfl
@[simp] theorem State.setDie_rails (d : Nat) (x : DieState) : (s.setDie d x).rails = s.rails := rfl
@[simp] theorem State.setDie_ect (d : Nat) (x : DieState) : (s.setDie d x).ect = s.ect := rfl
@[simp] theorem State.setDie_sec (d : Nat) (x : DieState) : (s.setDie d x).sec = s.sec := rfl
@[simp] theorem State.setDie_fw (d : Nat) (x : DieState) : (s.setDie d x).fw = s.fw := rfl
@[simp] theorem State.setDie_pkg (d : Nat) (x : DieState) : (s.setDie d x).pkg = s.pkg := rfl
@[simp] theorem State.setDie_jtag (d : Nat) (x : DieState) : (s.setDie d x).jtag = s.jtag := rfl
@[simp] theorem State.setDie_out (d : Nat) (x : DieState) : (s.setDie d x).out = s.out := rfl
@[simp] theorem State.setDie_steps (d : Nat) (x : DieState) : (s.setDie d x).steps = s.steps := rfl
@[simp] theorem State.setDie_derived (d : Nat) (x : DieState) : (s.setDie d x).derived = s.derived := rfl
@[simp] theorem State.setDie_redo (d : Nat) (x : DieState) : (s.setDie d x).redo = s.redo := rfl
@[simp] theorem State.setDie_hostw (d : Nat) (x : DieState) : (s.setDie d x).hostw = s.hostw := rfl
@[simp] theorem State.setDie_saves (d : Nat) (x : DieState) : (s.setDie d x).saves = s.saves := rfl
@[simp] theorem State.setDie_pev (d : Nat) (x : DieState) : (s.setDie d x).pev = s.pev := rfl
@[simp] theorem State.setDie_fresh (d : Nat) (x : DieState) : (s.setDie d x).fresh = s.fresh := rfl
@[simp] theorem State.setDie_pending (d : Nat) (x : DieState) : (s.setDie d x).pending = s.pending := rfl

/-! setLnk -/
@[simp] theorem State.setLnk_regs (l : Nat) (x : Link) : (s.setLnk l x).regs = s.regs := rfl
@[simp] theorem State.setLnk_bank (l : Nat) (x : Link) : (s.setLnk l x).bank = s.bank := rfl
@[simp] theorem State.setLnk_mem (l : Nat) (x : Link) : (s.setLnk l x).mem = s.mem := rfl
@[simp] theorem State.setLnk_poison (l : Nat) (x : Link) : (s.setLnk l x).poison = s.poison := rfl
@[simp] theorem State.setLnk_flash (l : Nat) (x : Link) : (s.setLnk l x).flash = s.flash := rfl
@[simp] theorem State.setLnk_clusters (l : Nat) (x : Link) : (s.setLnk l x).clusters = s.clusters := rfl
@[simp] theorem State.setLnk_fetch (l : Nat) (x : Link) : (s.setLnk l x).fetch = s.fetch := rfl
@[simp] theorem State.setLnk_channels (l : Nat) (x : Link) : (s.setLnk l x).channels = s.channels := rfl
@[simp] theorem State.setLnk_posts (l : Nat) (x : Link) : (s.setLnk l x).posts = s.posts := rfl
@[simp] theorem State.setLnk_sessions (l : Nat) (x : Link) : (s.setLnk l x).sessions = s.sessions := rfl
@[simp] theorem State.setLnk_queues (l : Nat) (x : Link) : (s.setLnk l x).queues = s.queues := rfl
@[simp] theorem State.setLnk_parts (l : Nat) (x : Link) : (s.setLnk l x).parts = s.parts := rfl
@[simp] theorem State.setLnk_chart (l : Nat) (x : Link) : (s.setLnk l x).chart = s.chart := rfl
@[simp] theorem State.setLnk_dies (l : Nat) (x : Link) : (s.setLnk l x).dies = s.dies := rfl
@[simp] theorem State.setLnk_links (l : Nat) (x : Link) : (s.setLnk l x).links = Sparse.put (fun _ => {}) s.links l x := rfl
@[simp] theorem State.setLnk_rails (l : Nat) (x : Link) : (s.setLnk l x).rails = s.rails := rfl
@[simp] theorem State.setLnk_ect (l : Nat) (x : Link) : (s.setLnk l x).ect = s.ect := rfl
@[simp] theorem State.setLnk_sec (l : Nat) (x : Link) : (s.setLnk l x).sec = s.sec := rfl
@[simp] theorem State.setLnk_fw (l : Nat) (x : Link) : (s.setLnk l x).fw = s.fw := rfl
@[simp] theorem State.setLnk_pkg (l : Nat) (x : Link) : (s.setLnk l x).pkg = s.pkg := rfl
@[simp] theorem State.setLnk_jtag (l : Nat) (x : Link) : (s.setLnk l x).jtag = s.jtag := rfl
@[simp] theorem State.setLnk_out (l : Nat) (x : Link) : (s.setLnk l x).out = s.out := rfl
@[simp] theorem State.setLnk_steps (l : Nat) (x : Link) : (s.setLnk l x).steps = s.steps := rfl
@[simp] theorem State.setLnk_derived (l : Nat) (x : Link) : (s.setLnk l x).derived = s.derived := rfl
@[simp] theorem State.setLnk_redo (l : Nat) (x : Link) : (s.setLnk l x).redo = s.redo := rfl
@[simp] theorem State.setLnk_hostw (l : Nat) (x : Link) : (s.setLnk l x).hostw = s.hostw := rfl
@[simp] theorem State.setLnk_saves (l : Nat) (x : Link) : (s.setLnk l x).saves = s.saves := rfl
@[simp] theorem State.setLnk_pev (l : Nat) (x : Link) : (s.setLnk l x).pev = s.pev := rfl
@[simp] theorem State.setLnk_fresh (l : Nat) (x : Link) : (s.setLnk l x).fresh = s.fresh := rfl
@[simp] theorem State.setLnk_pending (l : Nat) (x : Link) : (s.setLnk l x).pending = s.pending := rfl

/-! setRail -/
@[simp] theorem State.setRail_regs (a : Nat) (x : Rail) : (s.setRail a x).regs = s.regs := rfl
@[simp] theorem State.setRail_bank (a : Nat) (x : Rail) : (s.setRail a x).bank = s.bank := rfl
@[simp] theorem State.setRail_mem (a : Nat) (x : Rail) : (s.setRail a x).mem = s.mem := rfl
@[simp] theorem State.setRail_poison (a : Nat) (x : Rail) : (s.setRail a x).poison = s.poison := rfl
@[simp] theorem State.setRail_flash (a : Nat) (x : Rail) : (s.setRail a x).flash = s.flash := rfl
@[simp] theorem State.setRail_clusters (a : Nat) (x : Rail) : (s.setRail a x).clusters = s.clusters := rfl
@[simp] theorem State.setRail_fetch (a : Nat) (x : Rail) : (s.setRail a x).fetch = s.fetch := rfl
@[simp] theorem State.setRail_channels (a : Nat) (x : Rail) : (s.setRail a x).channels = s.channels := rfl
@[simp] theorem State.setRail_posts (a : Nat) (x : Rail) : (s.setRail a x).posts = s.posts := rfl
@[simp] theorem State.setRail_sessions (a : Nat) (x : Rail) : (s.setRail a x).sessions = s.sessions := rfl
@[simp] theorem State.setRail_queues (a : Nat) (x : Rail) : (s.setRail a x).queues = s.queues := rfl
@[simp] theorem State.setRail_parts (a : Nat) (x : Rail) : (s.setRail a x).parts = s.parts := rfl
@[simp] theorem State.setRail_chart (a : Nat) (x : Rail) : (s.setRail a x).chart = s.chart := rfl
@[simp] theorem State.setRail_dies (a : Nat) (x : Rail) : (s.setRail a x).dies = s.dies := rfl
@[simp] theorem State.setRail_links (a : Nat) (x : Rail) : (s.setRail a x).links = s.links := rfl
@[simp] theorem State.setRail_rails (a : Nat) (x : Rail) : (s.setRail a x).rails = Sparse.put (fun _ => {}) s.rails a x := rfl
@[simp] theorem State.setRail_ect (a : Nat) (x : Rail) : (s.setRail a x).ect = s.ect := rfl
@[simp] theorem State.setRail_sec (a : Nat) (x : Rail) : (s.setRail a x).sec = s.sec := rfl
@[simp] theorem State.setRail_fw (a : Nat) (x : Rail) : (s.setRail a x).fw = s.fw := rfl
@[simp] theorem State.setRail_pkg (a : Nat) (x : Rail) : (s.setRail a x).pkg = s.pkg := rfl
@[simp] theorem State.setRail_jtag (a : Nat) (x : Rail) : (s.setRail a x).jtag = s.jtag := rfl
@[simp] theorem State.setRail_out (a : Nat) (x : Rail) : (s.setRail a x).out = s.out := rfl
@[simp] theorem State.setRail_steps (a : Nat) (x : Rail) : (s.setRail a x).steps = s.steps := rfl
@[simp] theorem State.setRail_derived (a : Nat) (x : Rail) : (s.setRail a x).derived = s.derived := rfl
@[simp] theorem State.setRail_redo (a : Nat) (x : Rail) : (s.setRail a x).redo = s.redo := rfl
@[simp] theorem State.setRail_hostw (a : Nat) (x : Rail) : (s.setRail a x).hostw = s.hostw := rfl
@[simp] theorem State.setRail_saves (a : Nat) (x : Rail) : (s.setRail a x).saves = s.saves := rfl
@[simp] theorem State.setRail_pev (a : Nat) (x : Rail) : (s.setRail a x).pev = s.pev := rfl
@[simp] theorem State.setRail_fresh (a : Nat) (x : Rail) : (s.setRail a x).fresh = s.fresh := rfl
@[simp] theorem State.setRail_pending (a : Nat) (x : Rail) : (s.setRail a x).pending = s.pending := rfl

/-! send -/
@[simp] theorem State.send_regs (r : Reply) : (s.send r).regs = s.regs := rfl
@[simp] theorem State.send_bank (r : Reply) : (s.send r).bank = s.bank := rfl
@[simp] theorem State.send_mem (r : Reply) : (s.send r).mem = s.mem := rfl
@[simp] theorem State.send_poison (r : Reply) : (s.send r).poison = s.poison := rfl
@[simp] theorem State.send_flash (r : Reply) : (s.send r).flash = s.flash := rfl
@[simp] theorem State.send_clusters (r : Reply) : (s.send r).clusters = s.clusters := rfl
@[simp] theorem State.send_fetch (r : Reply) : (s.send r).fetch = s.fetch := rfl
@[simp] theorem State.send_channels (r : Reply) : (s.send r).channels = s.channels := rfl
@[simp] theorem State.send_posts (r : Reply) : (s.send r).posts = s.posts := rfl
@[simp] theorem State.send_sessions (r : Reply) : (s.send r).sessions = s.sessions := rfl
@[simp] theorem State.send_queues (r : Reply) : (s.send r).queues = s.queues := rfl
@[simp] theorem State.send_parts (r : Reply) : (s.send r).parts = s.parts := rfl
@[simp] theorem State.send_chart (r : Reply) : (s.send r).chart = s.chart := rfl
@[simp] theorem State.send_dies (r : Reply) : (s.send r).dies = s.dies := rfl
@[simp] theorem State.send_links (r : Reply) : (s.send r).links = s.links := rfl
@[simp] theorem State.send_rails (r : Reply) : (s.send r).rails = s.rails := rfl
@[simp] theorem State.send_ect (r : Reply) : (s.send r).ect = s.ect := rfl
@[simp] theorem State.send_sec (r : Reply) : (s.send r).sec = s.sec := rfl
@[simp] theorem State.send_fw (r : Reply) : (s.send r).fw = s.fw := rfl
@[simp] theorem State.send_pkg (r : Reply) : (s.send r).pkg = s.pkg := rfl
@[simp] theorem State.send_jtag (r : Reply) : (s.send r).jtag = s.jtag := rfl
@[simp] theorem State.send_out (r : Reply) : (s.send r).out = s.out ++ [r] := rfl
@[simp] theorem State.send_steps (r : Reply) : (s.send r).steps = s.steps := rfl
@[simp] theorem State.send_derived (r : Reply) : (s.send r).derived = s.derived := rfl
@[simp] theorem State.send_redo (r : Reply) : (s.send r).redo = s.redo := rfl
@[simp] theorem State.send_hostw (r : Reply) : (s.send r).hostw = s.hostw := rfl
@[simp] theorem State.send_saves (r : Reply) : (s.send r).saves = s.saves := rfl
@[simp] theorem State.send_pev (r : Reply) : (s.send r).pev = s.pev := rfl
@[simp] theorem State.send_fresh (r : Reply) : (s.send r).fresh = s.fresh := rfl
@[simp] theorem State.send_pending (r : Reply) : (s.send r).pending = s.pending := rfl

/-! poke -/
@[simp] theorem State.poke_regs (a : Nat) (b : Byte) : (s.poke a b).regs = s.regs := rfl
@[simp] theorem State.poke_bank (a : Nat) (b : Byte) : (s.poke a b).bank = s.bank := rfl
@[simp] theorem State.poke_mem (a : Nat) (b : Byte) : (s.poke a b).mem = Sparse.put memDefault s.mem a b := rfl
@[simp] theorem State.poke_poison (a : Nat) (b : Byte) : (s.poke a b).poison = s.poison := rfl
@[simp] theorem State.poke_flash (a : Nat) (b : Byte) : (s.poke a b).flash = s.flash := rfl
@[simp] theorem State.poke_clusters (a : Nat) (b : Byte) : (s.poke a b).clusters = s.clusters := rfl
@[simp] theorem State.poke_fetch (a : Nat) (b : Byte) : (s.poke a b).fetch = s.fetch := rfl
@[simp] theorem State.poke_channels (a : Nat) (b : Byte) : (s.poke a b).channels = s.channels := rfl
@[simp] theorem State.poke_posts (a : Nat) (b : Byte) : (s.poke a b).posts = s.posts := rfl
@[simp] theorem State.poke_sessions (a : Nat) (b : Byte) : (s.poke a b).sessions = s.sessions := rfl
@[simp] theorem State.poke_queues (a : Nat) (b : Byte) : (s.poke a b).queues = s.queues := rfl
@[simp] theorem State.poke_parts (a : Nat) (b : Byte) : (s.poke a b).parts = s.parts := rfl
@[simp] theorem State.poke_chart (a : Nat) (b : Byte) : (s.poke a b).chart = s.chart := rfl
@[simp] theorem State.poke_dies (a : Nat) (b : Byte) : (s.poke a b).dies = s.dies := rfl
@[simp] theorem State.poke_links (a : Nat) (b : Byte) : (s.poke a b).links = s.links := rfl
@[simp] theorem State.poke_rails (a : Nat) (b : Byte) : (s.poke a b).rails = s.rails := rfl
@[simp] theorem State.poke_ect (a : Nat) (b : Byte) : (s.poke a b).ect = s.ect := rfl
@[simp] theorem State.poke_sec (a : Nat) (b : Byte) : (s.poke a b).sec = s.sec := rfl
@[simp] theorem State.poke_fw (a : Nat) (b : Byte) : (s.poke a b).fw = s.fw := rfl
@[simp] theorem State.poke_pkg (a : Nat) (b : Byte) : (s.poke a b).pkg = s.pkg := rfl
@[simp] theorem State.poke_jtag (a : Nat) (b : Byte) : (s.poke a b).jtag = s.jtag := rfl
@[simp] theorem State.poke_out (a : Nat) (b : Byte) : (s.poke a b).out = s.out := rfl
@[simp] theorem State.poke_steps (a : Nat) (b : Byte) : (s.poke a b).steps = s.steps := rfl
@[simp] theorem State.poke_derived (a : Nat) (b : Byte) : (s.poke a b).derived = s.derived := rfl
@[simp] theorem State.poke_redo (a : Nat) (b : Byte) : (s.poke a b).redo = s.redo := rfl
@[simp] theorem State.poke_hostw (a : Nat) (b : Byte) : (s.poke a b).hostw = s.hostw := rfl
@[simp] theorem State.poke_saves (a : Nat) (b : Byte) : (s.poke a b).saves = s.saves := rfl
@[simp] theorem State.poke_pev (a : Nat) (b : Byte) : (s.poke a b).pev = s.pev := rfl
@[simp] theorem State.poke_fresh (a : Nat) (b : Byte) : (s.poke a b).fresh = s.fresh := rfl
@[simp] theorem State.poke_pending (a : Nat) (b : Byte) : (s.poke a b).pending = s.pending := rfl

/-! flashPoke -/
@[simp] theorem State.flashPoke_regs (a : Nat) (b : Byte) : (s.flashPoke a b).regs = s.regs := rfl
@[simp] theorem State.flashPoke_bank (a : Nat) (b : Byte) : (s.flashPoke a b).bank = s.bank := rfl
@[simp] theorem State.flashPoke_mem (a : Nat) (b : Byte) : (s.flashPoke a b).mem = s.mem := rfl
@[simp] theorem State.flashPoke_poison (a : Nat) (b : Byte) : (s.flashPoke a b).poison = s.poison := rfl
@[simp] theorem State.flashPoke_flash (a : Nat) (b : Byte) : (s.flashPoke a b).flash = Sparse.put flashDefault s.flash a b := rfl
@[simp] theorem State.flashPoke_clusters (a : Nat) (b : Byte) : (s.flashPoke a b).clusters = s.clusters := rfl
@[simp] theorem State.flashPoke_fetch (a : Nat) (b : Byte) : (s.flashPoke a b).fetch = s.fetch := rfl
@[simp] theorem State.flashPoke_channels (a : Nat) (b : Byte) : (s.flashPoke a b).channels = s.channels := rfl
@[simp] theorem State.flashPoke_posts (a : Nat) (b : Byte) : (s.flashPoke a b).posts = s.posts := rfl
@[simp] theorem State.flashPoke_sessions (a : Nat) (b : Byte) : (s.flashPoke a b).sessions = s.sessions := rfl
@[simp] theorem State.flashPoke_queues (a : Nat) (b : Byte) : (s.flashPoke a b).queues = s.queues := rfl
@[simp] theorem State.flashPoke_parts (a : Nat) (b : Byte) : (s.flashPoke a b).parts = s.parts := rfl
@[simp] theorem State.flashPoke_chart (a : Nat) (b : Byte) : (s.flashPoke a b).chart = s.chart := rfl
@[simp] theorem State.flashPoke_dies (a : Nat) (b : Byte) : (s.flashPoke a b).dies = s.dies := rfl
@[simp] theorem State.flashPoke_links (a : Nat) (b : Byte) : (s.flashPoke a b).links = s.links := rfl
@[simp] theorem State.flashPoke_rails (a : Nat) (b : Byte) : (s.flashPoke a b).rails = s.rails := rfl
@[simp] theorem State.flashPoke_ect (a : Nat) (b : Byte) : (s.flashPoke a b).ect = s.ect := rfl
@[simp] theorem State.flashPoke_sec (a : Nat) (b : Byte) : (s.flashPoke a b).sec = s.sec := rfl
@[simp] theorem State.flashPoke_fw (a : Nat) (b : Byte) : (s.flashPoke a b).fw = s.fw := rfl
@[simp] theorem State.flashPoke_pkg (a : Nat) (b : Byte) : (s.flashPoke a b).pkg = s.pkg := rfl
@[simp] theorem State.flashPoke_jtag (a : Nat) (b : Byte) : (s.flashPoke a b).jtag = s.jtag := rfl
@[simp] theorem State.flashPoke_out (a : Nat) (b : Byte) : (s.flashPoke a b).out = s.out := rfl
@[simp] theorem State.flashPoke_steps (a : Nat) (b : Byte) : (s.flashPoke a b).steps = s.steps := rfl
@[simp] theorem State.flashPoke_derived (a : Nat) (b : Byte) : (s.flashPoke a b).derived = s.derived := rfl
@[simp] theorem State.flashPoke_redo (a : Nat) (b : Byte) : (s.flashPoke a b).redo = s.redo := rfl
@[simp] theorem State.flashPoke_hostw (a : Nat) (b : Byte) : (s.flashPoke a b).hostw = s.hostw := rfl
@[simp] theorem State.flashPoke_saves (a : Nat) (b : Byte) : (s.flashPoke a b).saves = s.saves := rfl
@[simp] theorem State.flashPoke_pev (a : Nat) (b : Byte) : (s.flashPoke a b).pev = s.pev := rfl
@[simp] theorem State.flashPoke_fresh (a : Nat) (b : Byte) : (s.flashPoke a b).fresh = s.fresh := rfl
@[simp] theorem State.flashPoke_pending (a : Nat) (b : Byte) : (s.flashPoke a b).pending = s.pending := rfl

/-! poisonEvent -/
@[simp] theorem State.poisonEvent_regs (d : Nat) : (s.poisonEvent d).regs = s.regs := rfl
@[simp] theorem State.poisonEvent_bank (d : Nat) : (s.poisonEvent d).bank = s.bank := rfl
@[simp] theorem State.poisonEvent_mem (d : Nat) : (s.poisonEvent d).mem = s.mem := rfl
@[simp] theorem State.poisonEvent_poison (d : Nat) : (s.poisonEvent d).poison = s.poison := rfl
@[simp] theorem State.poisonEvent_flash (d : Nat) : (s.poisonEvent d).flash = s.flash := rfl
@[simp] theorem State.poisonEvent_clusters (d : Nat) : (s.poisonEvent d).clusters = s.clusters := rfl
@[simp] theorem State.poisonEvent_fetch (d : Nat) : (s.poisonEvent d).fetch = s.fetch := rfl
@[simp] theorem State.poisonEvent_channels (d : Nat) : (s.poisonEvent d).channels = s.channels := rfl
@[simp] theorem State.poisonEvent_posts (d : Nat) : (s.poisonEvent d).posts = s.posts := rfl
@[simp] theorem State.poisonEvent_sessions (d : Nat) : (s.poisonEvent d).sessions = s.sessions := rfl
@[simp] theorem State.poisonEvent_queues (d : Nat) : (s.poisonEvent d).queues = s.queues := rfl
@[simp] theorem State.poisonEvent_parts (d : Nat) : (s.poisonEvent d).parts = s.parts := rfl
@[simp] theorem State.poisonEvent_chart (d : Nat) : (s.poisonEvent d).chart = s.chart := rfl
@[simp] theorem State.poisonEvent_dies (d : Nat) : (s.poisonEvent d).dies = s.dies := rfl
@[simp] theorem State.poisonEvent_links (d : Nat) : (s.poisonEvent d).links = s.links := rfl
@[simp] theorem State.poisonEvent_rails (d : Nat) : (s.poisonEvent d).rails = s.rails := rfl
@[simp] theorem State.poisonEvent_ect (d : Nat) : (s.poisonEvent d).ect = s.ect := rfl
@[simp] theorem State.poisonEvent_sec (d : Nat) : (s.poisonEvent d).sec = s.sec := rfl
@[simp] theorem State.poisonEvent_fw (d : Nat) : (s.poisonEvent d).fw = s.fw := rfl
@[simp] theorem State.poisonEvent_pkg (d : Nat) : (s.poisonEvent d).pkg = s.pkg := rfl
@[simp] theorem State.poisonEvent_jtag (d : Nat) : (s.poisonEvent d).jtag = s.jtag := rfl
@[simp] theorem State.poisonEvent_out (d : Nat) : (s.poisonEvent d).out = s.out := rfl
@[simp] theorem State.poisonEvent_steps (d : Nat) : (s.poisonEvent d).steps = s.steps := rfl
@[simp] theorem State.poisonEvent_derived (d : Nat) : (s.poisonEvent d).derived = s.derived := rfl
@[simp] theorem State.poisonEvent_redo (d : Nat) : (s.poisonEvent d).redo = s.redo := rfl
@[simp] theorem State.poisonEvent_hostw (d : Nat) : (s.poisonEvent d).hostw = s.hostw := rfl
@[simp] theorem State.poisonEvent_saves (d : Nat) : (s.poisonEvent d).saves = s.saves := rfl
@[simp] theorem State.poisonEvent_pev (d : Nat) : (s.poisonEvent d).pev = NatSet.insert s.pev d := rfl
@[simp] theorem State.poisonEvent_fresh (d : Nat) : (s.poisonEvent d).fresh = s.fresh := rfl
@[simp] theorem State.poisonEvent_pending (d : Nat) : (s.poisonEvent d).pending = s.pending := rfl

/-! clearLine -/
@[simp] theorem State.clearLine_regs (l : Nat) : (s.clearLine l).regs = s.regs := rfl
@[simp] theorem State.clearLine_bank (l : Nat) : (s.clearLine l).bank = s.bank := rfl
@[simp] theorem State.clearLine_mem (l : Nat) : (s.clearLine l).mem = s.mem := rfl
@[simp] theorem State.clearLine_poison (l : Nat) : (s.clearLine l).poison = NatSet.erase s.poison l := rfl
@[simp] theorem State.clearLine_flash (l : Nat) : (s.clearLine l).flash = s.flash := rfl
@[simp] theorem State.clearLine_clusters (l : Nat) : (s.clearLine l).clusters = s.clusters := rfl
@[simp] theorem State.clearLine_fetch (l : Nat) : (s.clearLine l).fetch = s.fetch := rfl
@[simp] theorem State.clearLine_channels (l : Nat) : (s.clearLine l).channels = s.channels := rfl
@[simp] theorem State.clearLine_posts (l : Nat) : (s.clearLine l).posts = s.posts := rfl
@[simp] theorem State.clearLine_sessions (l : Nat) : (s.clearLine l).sessions = s.sessions := rfl
@[simp] theorem State.clearLine_queues (l : Nat) : (s.clearLine l).queues = s.queues := rfl
@[simp] theorem State.clearLine_parts (l : Nat) : (s.clearLine l).parts = s.parts := rfl
@[simp] theorem State.clearLine_chart (l : Nat) : (s.clearLine l).chart = s.chart := rfl
@[simp] theorem State.clearLine_dies (l : Nat) : (s.clearLine l).dies = s.dies := rfl
@[simp] theorem State.clearLine_links (l : Nat) : (s.clearLine l).links = s.links := rfl
@[simp] theorem State.clearLine_rails (l : Nat) : (s.clearLine l).rails = s.rails := rfl
@[simp] theorem State.clearLine_ect (l : Nat) : (s.clearLine l).ect = s.ect := rfl
@[simp] theorem State.clearLine_sec (l : Nat) : (s.clearLine l).sec = s.sec := rfl
@[simp] theorem State.clearLine_fw (l : Nat) : (s.clearLine l).fw = s.fw := rfl
@[simp] theorem State.clearLine_pkg (l : Nat) : (s.clearLine l).pkg = s.pkg := rfl
@[simp] theorem State.clearLine_jtag (l : Nat) : (s.clearLine l).jtag = s.jtag := rfl
@[simp] theorem State.clearLine_out (l : Nat) : (s.clearLine l).out = s.out := rfl
@[simp] theorem State.clearLine_steps (l : Nat) : (s.clearLine l).steps = s.steps := rfl
@[simp] theorem State.clearLine_derived (l : Nat) : (s.clearLine l).derived = s.derived := rfl
@[simp] theorem State.clearLine_redo (l : Nat) : (s.clearLine l).redo = s.redo := rfl
@[simp] theorem State.clearLine_hostw (l : Nat) : (s.clearLine l).hostw = s.hostw := rfl
@[simp] theorem State.clearLine_saves (l : Nat) : (s.clearLine l).saves = s.saves := rfl
@[simp] theorem State.clearLine_pev (l : Nat) : (s.clearLine l).pev = s.pev := rfl
@[simp] theorem State.clearLine_fresh (l : Nat) : (s.clearLine l).fresh = s.fresh := rfl
@[simp] theorem State.clearLine_pending (l : Nat) : (s.clearLine l).pending = s.pending := rfl

end Sys2Proof.Machine
end

