-- ==== Sys2Proof/Laws/Reads.lean ====
section
/-!
SUPPORT. Reads over updates of other tables: true by definition. Reads after a write of the same table: the value written at the same key, the old one
at every other.
-/

namespace Sys2Proof.Machine

variable (s : State)


/-! wr -/
@[simp] theorem State.brd_wr (k : Nat) (v : W32) (k2 : Nat) : (s.wr k v).brd k2 = s.brd k2 := rfl
@[simp] theorem State.clN_wr (k : Nat) (v : W32) (n2 : Nat) : (s.wr k v).clN n2 = s.clN n2 := rfl
@[simp] theorem State.cl_wr (k : Nat) (v : W32) (c2 : ClusterId) : (s.wr k v).cl c2 = s.cl c2 := rfl
@[simp] theorem State.fqN_wr (k : Nat) (v : W32) (n2 : Nat) : (s.wr k v).fqN n2 = s.fqN n2 := rfl
@[simp] theorem State.fq_wr (k : Nat) (v : W32) (c2 : ClusterId) (q2 : Nat) : (s.wr k v).fq c2 q2 = s.fq c2 q2 := rfl
@[simp] theorem State.chan_wr (k : Nat) (v : W32) (h2 : ChannelId) : (s.wr k v).chan h2 = s.chan h2 := rfl
@[simp] theorem State.ses_wr (k : Nat) (v : W32) (n2 : Nat) : (s.wr k v).ses n2 = s.ses n2 := rfl
@[simp] theorem State.que_wr (k : Nat) (v : W32) (q2 : Nat) : (s.wr k v).que q2 = s.que q2 := rfl
@[simp] theorem State.die_wr (k : Nat) (v : W32) (d2 : Nat) : (s.wr k v).die d2 = s.die d2 := rfl
@[simp] theorem State.lnk_wr (k : Nat) (v : W32) (l2 : Nat) : (s.wr k v).lnk l2 = s.lnk l2 := rfl
@[simp] theorem State.rail_wr (k : Nat) (v : W32) (a2 : Nat) : (s.wr k v).rail a2 = s.rail a2 := rfl
@[simp] theorem State.byte_wr (k : Nat) (v : W32) (a2 : Nat) : (s.wr k v).byte a2 = s.byte a2 := rfl
@[simp] theorem State.flashByte_wr (k : Nat) (v : W32) (a2 : Nat) : (s.wr k v).flashByte a2 = s.flashByte a2 := rfl
@[simp] theorem State.crf_wr (k : Nat) (v : W32) (l2 : Nat) (r2 : Bool) (k2 : Nat) (f2 : Fld) : (s.wr k v).crf l2 r2 k2 f2 = s.crf l2 r2 k2 f2 := rfl
@[simp] theorem State.on_wr (k : Nat) (v : W32)  : (s.wr k v).on = s.on := rfl
@[simp] theorem State.stamp_wr (k : Nat) (v : W32) (d2 : Nat) : (s.wr k v).stamp d2 = s.stamp d2 := rfl

/-! sf -/
@[simp] theorem State.brd_sf (b : Nat) (f : Fld) (x : Nat) (k2 : Nat) : (s.sf b f x).brd k2 = s.brd k2 := rfl
@[simp] theorem State.clN_sf (b : Nat) (f : Fld) (x : Nat) (n2 : Nat) : (s.sf b f x).clN n2 = s.clN n2 := rfl
@[simp] theorem State.cl_sf (b : Nat) (f : Fld) (x : Nat) (c2 : ClusterId) : (s.sf b f x).cl c2 = s.cl c2 := rfl
@[simp] theorem State.fqN_sf (b : Nat) (f : Fld) (x : Nat) (n2 : Nat) : (s.sf b f x).fqN n2 = s.fqN n2 := rfl
@[simp] theorem State.fq_sf (b : Nat) (f : Fld) (x : Nat) (c2 : ClusterId) (q2 : Nat) : (s.sf b f x).fq c2 q2 = s.fq c2 q2 := rfl
@[simp] theorem State.chan_sf (b : Nat) (f : Fld) (x : Nat) (h2 : ChannelId) : (s.sf b f x).chan h2 = s.chan h2 := rfl
@[simp] theorem State.ses_sf (b : Nat) (f : Fld) (x : Nat) (n2 : Nat) : (s.sf b f x).ses n2 = s.ses n2 := rfl
@[simp] theorem State.que_sf (b : Nat) (f : Fld) (x : Nat) (q2 : Nat) : (s.sf b f x).que q2 = s.que q2 := rfl
@[simp] theorem State.die_sf (b : Nat) (f : Fld) (x : Nat) (d2 : Nat) : (s.sf b f x).die d2 = s.die d2 := rfl
@[simp] theorem State.lnk_sf (b : Nat) (f : Fld) (x : Nat) (l2 : Nat) : (s.sf b f x).lnk l2 = s.lnk l2 := rfl
@[simp] theorem State.rail_sf (b : Nat) (f : Fld) (x : Nat) (a2 : Nat) : (s.sf b f x).rail a2 = s.rail a2 := rfl
@[simp] theorem State.byte_sf (b : Nat) (f : Fld) (x : Nat) (a2 : Nat) : (s.sf b f x).byte a2 = s.byte a2 := rfl
@[simp] theorem State.flashByte_sf (b : Nat) (f : Fld) (x : Nat) (a2 : Nat) : (s.sf b f x).flashByte a2 = s.flashByte a2 := rfl
@[simp] theorem State.crf_sf (b : Nat) (f : Fld) (x : Nat) (l2 : Nat) (r2 : Bool) (k2 : Nat) (f2 : Fld) : (s.sf b f x).crf l2 r2 k2 f2 = s.crf l2 r2 k2 f2 := rfl
@[simp] theorem State.on_sf (b : Nat) (f : Fld) (x : Nat)  : (s.sf b f x).on = s.on := rfl
@[simp] theorem State.stamp_sf (b : Nat) (f : Fld) (x : Nat) (d2 : Nat) : (s.sf b f x).stamp d2 = s.stamp d2 := rfl

/-! raise -/
@[simp] theorem State.brd_raise (b : Nat) (f : Fld) (k2 : Nat) : (s.raise b f).brd k2 = s.brd k2 := rfl
@[simp] theorem State.clN_raise (b : Nat) (f : Fld) (n2 : Nat) : (s.raise b f).clN n2 = s.clN n2 := rfl
@[simp] theorem State.cl_raise (b : Nat) (f : Fld) (c2 : ClusterId) : (s.raise b f).cl c2 = s.cl c2 := rfl
@[simp] theorem State.fqN_raise (b : Nat) (f : Fld) (n2 : Nat) : (s.raise b f).fqN n2 = s.fqN n2 := rfl
@[simp] theorem State.fq_raise (b : Nat) (f : Fld) (c2 : ClusterId) (q2 : Nat) : (s.raise b f).fq c2 q2 = s.fq c2 q2 := rfl
@[simp] theorem State.chan_raise (b : Nat) (f : Fld) (h2 : ChannelId) : (s.raise b f).chan h2 = s.chan h2 := rfl
@[simp] theorem State.ses_raise (b : Nat) (f : Fld) (n2 : Nat) : (s.raise b f).ses n2 = s.ses n2 := rfl
@[simp] theorem State.que_raise (b : Nat) (f : Fld) (q2 : Nat) : (s.raise b f).que q2 = s.que q2 := rfl
@[simp] theorem State.die_raise (b : Nat) (f : Fld) (d2 : Nat) : (s.raise b f).die d2 = s.die d2 := rfl
@[simp] theorem State.lnk_raise (b : Nat) (f : Fld) (l2 : Nat) : (s.raise b f).lnk l2 = s.lnk l2 := rfl
@[simp] theorem State.rail_raise (b : Nat) (f : Fld) (a2 : Nat) : (s.raise b f).rail a2 = s.rail a2 := rfl
@[simp] theorem State.byte_raise (b : Nat) (f : Fld) (a2 : Nat) : (s.raise b f).byte a2 = s.byte a2 := rfl
@[simp] theorem State.flashByte_raise (b : Nat) (f : Fld) (a2 : Nat) : (s.raise b f).flashByte a2 = s.flashByte a2 := rfl
@[simp] theorem State.crf_raise (b : Nat) (f : Fld) (l2 : Nat) (r2 : Bool) (k2 : Nat) (f2 : Fld) : (s.raise b f).crf l2 r2 k2 f2 = s.crf l2 r2 k2 f2 := rfl
@[simp] theorem State.on_raise (b : Nat) (f : Fld)  : (s.raise b f).on = s.on := rfl
@[simp] theorem State.stamp_raise (b : Nat) (f : Fld) (d2 : Nat) : (s.raise b f).stamp d2 = s.stamp d2 := rfl

/-! bump -/
@[simp] theorem State.brd_bump (b : Nat) (f : Fld) (n : Nat) (k2 : Nat) : (s.bump b f n).brd k2 = s.brd k2 := rfl
@[simp] theorem State.clN_bump (b : Nat) (f : Fld) (n : Nat) (n2 : Nat) : (s.bump b f n).clN n2 = s.clN n2 := rfl
@[simp] theorem State.cl_bump (b : Nat) (f : Fld) (n : Nat) (c2 : ClusterId) : (s.bump b f n).cl c2 = s.cl c2 := rfl
@[simp] theorem State.fqN_bump (b : Nat) (f : Fld) (n : Nat) (n2 : Nat) : (s.bump b f n).fqN n2 = s.fqN n2 := rfl
@[simp] theorem State.fq_bump (b : Nat) (f : Fld) (n : Nat) (c2 : ClusterId) (q2 : Nat) : (s.bump b f n).fq c2 q2 = s.fq c2 q2 := rfl
@[simp] theorem State.chan_bump (b : Nat) (f : Fld) (n : Nat) (h2 : ChannelId) : (s.bump b f n).chan h2 = s.chan h2 := rfl
@[simp] theorem State.ses_bump (b : Nat) (f : Fld) (n : Nat) (n2 : Nat) : (s.bump b f n).ses n2 = s.ses n2 := rfl
@[simp] theorem State.que_bump (b : Nat) (f : Fld) (n : Nat) (q2 : Nat) : (s.bump b f n).que q2 = s.que q2 := rfl
@[simp] theorem State.die_bump (b : Nat) (f : Fld) (n : Nat) (d2 : Nat) : (s.bump b f n).die d2 = s.die d2 := rfl
@[simp] theorem State.lnk_bump (b : Nat) (f : Fld) (n : Nat) (l2 : Nat) : (s.bump b f n).lnk l2 = s.lnk l2 := rfl
@[simp] theorem State.rail_bump (b : Nat) (f : Fld) (n : Nat) (a2 : Nat) : (s.bump b f n).rail a2 = s.rail a2 := rfl
@[simp] theorem State.byte_bump (b : Nat) (f : Fld) (n : Nat) (a2 : Nat) : (s.bump b f n).byte a2 = s.byte a2 := rfl
@[simp] theorem State.flashByte_bump (b : Nat) (f : Fld) (n : Nat) (a2 : Nat) : (s.bump b f n).flashByte a2 = s.flashByte a2 := rfl
@[simp] theorem State.crf_bump (b : Nat) (f : Fld) (n : Nat) (l2 : Nat) (r2 : Bool) (k2 : Nat) (f2 : Fld) : (s.bump b f n).crf l2 r2 k2 f2 = s.crf l2 r2 k2 f2 := rfl
@[simp] theorem State.on_bump (b : Nat) (f : Fld) (n : Nat)  : (s.bump b f n).on = s.on := rfl
@[simp] theorem State.stamp_bump (b : Nat) (f : Fld) (n : Nat) (d2 : Nat) : (s.bump b f n).stamp d2 = s.stamp d2 := rfl

/-! flag -/
@[simp] theorem State.brd_flag (b : Nat) (f : Fld) (x : Bool) (k2 : Nat) : (s.flag b f x).brd k2 = s.brd k2 := rfl
@[simp] theorem State.clN_flag (b : Nat) (f : Fld) (x : Bool) (n2 : Nat) : (s.flag b f x).clN n2 = s.clN n2 := rfl
@[simp] theorem State.cl_flag (b : Nat) (f : Fld) (x : Bool) (c2 : ClusterId) : (s.flag b f x).cl c2 = s.cl c2 := rfl
@[simp] theorem State.fqN_flag (b : Nat) (f : Fld) (x : Bool) (n2 : Nat) : (s.flag b f x).fqN n2 = s.fqN n2 := rfl
@[simp] theorem State.fq_flag (b : Nat) (f : Fld) (x : Bool) (c2 : ClusterId) (q2 : Nat) : (s.flag b f x).fq c2 q2 = s.fq c2 q2 := rfl
@[simp] theorem State.chan_flag (b : Nat) (f : Fld) (x : Bool) (h2 : ChannelId) : (s.flag b f x).chan h2 = s.chan h2 := rfl
@[simp] theorem State.ses_flag (b : Nat) (f : Fld) (x : Bool) (n2 : Nat) : (s.flag b f x).ses n2 = s.ses n2 := rfl
@[simp] theorem State.que_flag (b : Nat) (f : Fld) (x : Bool) (q2 : Nat) : (s.flag b f x).que q2 = s.que q2 := rfl
@[simp] theorem State.die_flag (b : Nat) (f : Fld) (x : Bool) (d2 : Nat) : (s.flag b f x).die d2 = s.die d2 := rfl
@[simp] theorem State.lnk_flag (b : Nat) (f : Fld) (x : Bool) (l2 : Nat) : (s.flag b f x).lnk l2 = s.lnk l2 := rfl
@[simp] theorem State.rail_flag (b : Nat) (f : Fld) (x : Bool) (a2 : Nat) : (s.flag b f x).rail a2 = s.rail a2 := rfl
@[simp] theorem State.byte_flag (b : Nat) (f : Fld) (x : Bool) (a2 : Nat) : (s.flag b f x).byte a2 = s.byte a2 := rfl
@[simp] theorem State.flashByte_flag (b : Nat) (f : Fld) (x : Bool) (a2 : Nat) : (s.flag b f x).flashByte a2 = s.flashByte a2 := rfl
@[simp] theorem State.crf_flag (b : Nat) (f : Fld) (x : Bool) (l2 : Nat) (r2 : Bool) (k2 : Nat) (f2 : Fld) : (s.flag b f x).crf l2 r2 k2 f2 = s.crf l2 r2 k2 f2 := rfl
@[simp] theorem State.on_flag (b : Nat) (f : Fld) (x : Bool)  : (s.flag b f x).on = s.on := rfl
@[simp] theorem State.stamp_flag (b : Nat) (f : Fld) (x : Bool) (d2 : Nat) : (s.flag b f x).stamp d2 = s.stamp d2 := rfl

/-! setSem -/
@[simp] theorem State.brd_setSem (d i v : Nat) (k2 : Nat) : (s.setSem d i v).brd k2 = s.brd k2 := rfl
@[simp] theorem State.clN_setSem (d i v : Nat) (n2 : Nat) : (s.setSem d i v).clN n2 = s.clN n2 := rfl
@[simp] theorem State.cl_setSem (d i v : Nat) (c2 : ClusterId) : (s.setSem d i v).cl c2 = s.cl c2 := rfl
@[simp] theorem State.fqN_setSem (d i v : Nat) (n2 : Nat) : (s.setSem d i v).fqN n2 = s.fqN n2 := rfl
@[simp] theorem State.fq_setSem (d i v : Nat) (c2 : ClusterId) (q2 : Nat) : (s.setSem d i v).fq c2 q2 = s.fq c2 q2 := rfl
@[simp] theorem State.chan_setSem (d i v : Nat) (h2 : ChannelId) : (s.setSem d i v).chan h2 = s.chan h2 := rfl
@[simp] theorem State.ses_setSem (d i v : Nat) (n2 : Nat) : (s.setSem d i v).ses n2 = s.ses n2 := rfl
@[simp] theorem State.que_setSem (d i v : Nat) (q2 : Nat) : (s.setSem d i v).que q2 = s.que q2 := rfl
@[simp] theorem State.die_setSem (d i v : Nat) (d2 : Nat) : (s.setSem d i v).die d2 = s.die d2 := rfl
@[simp] theorem State.lnk_setSem (d i v : Nat) (l2 : Nat) : (s.setSem d i v).lnk l2 = s.lnk l2 := rfl
@[simp] theorem State.rail_setSem (d i v : Nat) (a2 : Nat) : (s.setSem d i v).rail a2 = s.rail a2 := rfl
@[simp] theorem State.byte_setSem (d i v : Nat) (a2 : Nat) : (s.setSem d i v).byte a2 = s.byte a2 := rfl
@[simp] theorem State.flashByte_setSem (d i v : Nat) (a2 : Nat) : (s.setSem d i v).flashByte a2 = s.flashByte a2 := rfl
@[simp] theorem State.crf_setSem (d i v : Nat) (l2 : Nat) (r2 : Bool) (k2 : Nat) (f2 : Fld) : (s.setSem d i v).crf l2 r2 k2 f2 = s.crf l2 r2 k2 f2 := rfl
@[simp] theorem State.on_setSem (d i v : Nat)  : (s.setSem d i v).on = s.on := rfl
@[simp] theorem State.stamp_setSem (d i v : Nat) (d2 : Nat) : (s.setSem d i v).stamp d2 = s.stamp d2 := rfl

/-! bwr -/
@[simp] theorem State.rd_bwr (k : Nat) (v : W32) (k2 : Nat) : (s.bwr k v).rd k2 = s.rd k2 := rfl
@[simp] theorem State.clN_bwr (k : Nat) (v : W32) (n2 : Nat) : (s.bwr k v).clN n2 = s.clN n2 := rfl
@[simp] theorem State.cl_bwr (k : Nat) (v : W32) (c2 : ClusterId) : (s.bwr k v).cl c2 = s.cl c2 := rfl
@[simp] theorem State.fqN_bwr (k : Nat) (v : W32) (n2 : Nat) : (s.bwr k v).fqN n2 = s.fqN n2 := rfl
@[simp] theorem State.fq_bwr (k : Nat) (v : W32) (c2 : ClusterId) (q2 : Nat) : (s.bwr k v).fq c2 q2 = s.fq c2 q2 := rfl
@[simp] theorem State.chan_bwr (k : Nat) (v : W32) (h2 : ChannelId) : (s.bwr k v).chan h2 = s.chan h2 := rfl
@[simp] theorem State.ses_bwr (k : Nat) (v : W32) (n2 : Nat) : (s.bwr k v).ses n2 = s.ses n2 := rfl
@[simp] theorem State.que_bwr (k : Nat) (v : W32) (q2 : Nat) : (s.bwr k v).que q2 = s.que q2 := rfl
@[simp] theorem State.die_bwr (k : Nat) (v : W32) (d2 : Nat) : (s.bwr k v).die d2 = s.die d2 := rfl
@[simp] theorem State.lnk_bwr (k : Nat) (v : W32) (l2 : Nat) : (s.bwr k v).lnk l2 = s.lnk l2 := rfl
@[simp] theorem State.rail_bwr (k : Nat) (v : W32) (a2 : Nat) : (s.bwr k v).rail a2 = s.rail a2 := rfl
@[simp] theorem State.byte_bwr (k : Nat) (v : W32) (a2 : Nat) : (s.bwr k v).byte a2 = s.byte a2 := rfl
@[simp] theorem State.flashByte_bwr (k : Nat) (v : W32) (a2 : Nat) : (s.bwr k v).flashByte a2 = s.flashByte a2 := rfl
@[simp] theorem State.rf_bwr (k : Nat) (v : W32) (b2 : Nat) (f2 : Fld) : (s.bwr k v).rf b2 f2 = s.rf b2 f2 := rfl
@[simp] theorem State.bit_bwr (k : Nat) (v : W32) (b2 : Nat) (f2 : Fld) : (s.bwr k v).bit b2 f2 = s.bit b2 f2 := rfl
@[simp] theorem State.sem_bwr (k : Nat) (v : W32) (d2 i2 : Nat) : (s.bwr k v).sem d2 i2 = s.sem d2 i2 := rfl
@[simp] theorem State.on_bwr (k : Nat) (v : W32)  : (s.bwr k v).on = s.on := rfl
@[simp] theorem State.stamp_bwr (k : Nat) (v : W32) (d2 : Nat) : (s.bwr k v).stamp d2 = s.stamp d2 := rfl

/-! csf -/
@[simp] theorem State.rd_csf (l : Nat) (r : Bool) (ch : Nat) (f : Fld) (x : Nat) (k2 : Nat) : (s.csf l r ch f x).rd k2 = s.rd k2 := rfl
@[simp] theorem State.clN_csf (l : Nat) (r : Bool) (ch : Nat) (f : Fld) (x : Nat) (n2 : Nat) : (s.csf l r ch f x).clN n2 = s.clN n2 := rfl
@[simp] theorem State.cl_csf (l : Nat) (r : Bool) (ch : Nat) (f : Fld) (x : Nat) (c2 : ClusterId) : (s.csf l r ch f x).cl c2 = s.cl c2 := rfl
@[simp] theorem State.fqN_csf (l : Nat) (r : Bool) (ch : Nat) (f : Fld) (x : Nat) (n2 : Nat) : (s.csf l r ch f x).fqN n2 = s.fqN n2 := rfl
@[simp] theorem State.fq_csf (l : Nat) (r : Bool) (ch : Nat) (f : Fld) (x : Nat) (c2 : ClusterId) (q2 : Nat) : (s.csf l r ch f x).fq c2 q2 = s.fq c2 q2 := rfl
@[simp] theorem State.chan_csf (l : Nat) (r : Bool) (ch : Nat) (f : Fld) (x : Nat) (h2 : ChannelId) : (s.csf l r ch f x).chan h2 = s.chan h2 := rfl
@[simp] theorem State.ses_csf (l : Nat) (r : Bool) (ch : Nat) (f : Fld) (x : Nat) (n2 : Nat) : (s.csf l r ch f x).ses n2 = s.ses n2 := rfl
@[simp] theorem State.que_csf (l : Nat) (r : Bool) (ch : Nat) (f : Fld) (x : Nat) (q2 : Nat) : (s.csf l r ch f x).que q2 = s.que q2 := rfl
@[simp] theorem State.die_csf (l : Nat) (r : Bool) (ch : Nat) (f : Fld) (x : Nat) (d2 : Nat) : (s.csf l r ch f x).die d2 = s.die d2 := rfl
@[simp] theorem State.lnk_csf (l : Nat) (r : Bool) (ch : Nat) (f : Fld) (x : Nat) (l2 : Nat) : (s.csf l r ch f x).lnk l2 = s.lnk l2 := rfl
@[simp] theorem State.rail_csf (l : Nat) (r : Bool) (ch : Nat) (f : Fld) (x : Nat) (a2 : Nat) : (s.csf l r ch f x).rail a2 = s.rail a2 := rfl
@[simp] theorem State.byte_csf (l : Nat) (r : Bool) (ch : Nat) (f : Fld) (x : Nat) (a2 : Nat) : (s.csf l r ch f x).byte a2 = s.byte a2 := rfl
@[simp] theorem State.flashByte_csf (l : Nat) (r : Bool) (ch : Nat) (f : Fld) (x : Nat) (a2 : Nat) : (s.csf l r ch f x).flashByte a2 = s.flashByte a2 := rfl
@[simp] theorem State.rf_csf (l : Nat) (r : Bool) (ch : Nat) (f : Fld) (x : Nat) (b2 : Nat) (f2 : Fld) : (s.csf l r ch f x).rf b2 f2 = s.rf b2 f2 := rfl
@[simp] theorem State.bit_csf (l : Nat) (r : Bool) (ch : Nat) (f : Fld) (x : Nat) (b2 : Nat) (f2 : Fld) : (s.csf l r ch f x).bit b2 f2 = s.bit b2 f2 := rfl
@[simp] theorem State.sem_csf (l : Nat) (r : Bool) (ch : Nat) (f : Fld) (x : Nat) (d2 i2 : Nat) : (s.csf l r ch f x).sem d2 i2 = s.sem d2 i2 := rfl
@[simp] theorem State.on_csf (l : Nat) (r : Bool) (ch : Nat) (f : Fld) (x : Nat)  : (s.csf l r ch f x).on = s.on := rfl
@[simp] theorem State.stamp_csf (l : Nat) (r : Bool) (ch : Nat) (f : Fld) (x : Nat) (d2 : Nat) : (s.csf l r ch f x).stamp d2 = s.stamp d2 := rfl

/-! setClN -/
@[simp] theorem State.rd_setClN (n : Nat) (x : Cluster) (k2 : Nat) : (s.setClN n x).rd k2 = s.rd k2 := rfl
@[simp] theorem State.brd_setClN (n : Nat) (x : Cluster) (k2 : Nat) : (s.setClN n x).brd k2 = s.brd k2 := rfl
@[simp] theorem State.fqN_setClN (n : Nat) (x : Cluster) (n2 : Nat) : (s.setClN n x).fqN n2 = s.fqN n2 := rfl
@[simp] theorem State.fq_setClN (n : Nat) (x : Cluster) (c2 : ClusterId) (q2 : Nat) : (s.setClN n x).fq c2 q2 = s.fq c2 q2 := rfl
@[simp] theorem State.chan_setClN (n : Nat) (x : Cluster) (h2 : ChannelId) : (s.setClN n x).chan h2 = s.chan h2 := rfl
@[simp] theorem State.ses_setClN (n : Nat) (x : Cluster) (n2 : Nat) : (s.setClN n x).ses n2 = s.ses n2 := rfl
@[simp] theorem State.que_setClN (n : Nat) (x : Cluster) (q2 : Nat) : (s.setClN n x).que q2 = s.que q2 := rfl
@[simp] theorem State.die_setClN (n : Nat) (x : Cluster) (d2 : Nat) : (s.setClN n x).die d2 = s.die d2 := rfl
@[simp] theorem State.lnk_setClN (n : Nat) (x : Cluster) (l2 : Nat) : (s.setClN n x).lnk l2 = s.lnk l2 := rfl
@[simp] theorem State.rail_setClN (n : Nat) (x : Cluster) (a2 : Nat) : (s.setClN n x).rail a2 = s.rail a2 := rfl
@[simp] theorem State.byte_setClN (n : Nat) (x : Cluster) (a2 : Nat) : (s.setClN n x).byte a2 = s.byte a2 := rfl
@[simp] theorem State.flashByte_setClN (n : Nat) (x : Cluster) (a2 : Nat) : (s.setClN n x).flashByte a2 = s.flashByte a2 := rfl
@[simp] theorem State.rf_setClN (n : Nat) (x : Cluster) (b2 : Nat) (f2 : Fld) : (s.setClN n x).rf b2 f2 = s.rf b2 f2 := rfl
@[simp] theorem State.bit_setClN (n : Nat) (x : Cluster) (b2 : Nat) (f2 : Fld) : (s.setClN n x).bit b2 f2 = s.bit b2 f2 := rfl
@[simp] theorem State.sem_setClN (n : Nat) (x : Cluster) (d2 i2 : Nat) : (s.setClN n x).sem d2 i2 = s.sem d2 i2 := rfl
@[simp] theorem State.crf_setClN (n : Nat) (x : Cluster) (l2 : Nat) (r2 : Bool) (k2 : Nat) (f2 : Fld) : (s.setClN n x).crf l2 r2 k2 f2 = s.crf l2 r2 k2 f2 := rfl
@[simp] theorem State.on_setClN (n : Nat) (x : Cluster)  : (s.setClN n x).on = s.on := rfl
@[simp] theorem State.stamp_setClN (n : Nat) (x : Cluster) (d2 : Nat) : (s.setClN n x).stamp d2 = s.stamp d2 := rfl

/-! setCl -/
@[simp] theorem State.rd_setCl (c : ClusterId) (x : Cluster) (k2 : Nat) : (s.setCl c x).rd k2 = s.rd k2 := rfl
@[simp] theorem State.brd_setCl (c : ClusterId) (x : Cluster) (k2 : Nat) : (s.setCl c x).brd k2 = s.brd k2 := rfl
@[simp] theorem State.fqN_setCl (c : ClusterId) (x : Cluster) (n2 : Nat) : (s.setCl c x).fqN n2 = s.fqN n2 := rfl
@[simp] theorem State.fq_setCl (c : ClusterId) (x : Cluster) (c2 : ClusterId) (q2 : Nat) : (s.setCl c x).fq c2 q2 = s.fq c2 q2 := rfl
@[simp] theorem State.chan_setCl (c : ClusterId) (x : Cluster) (h2 : ChannelId) : (s.setCl c x).chan h2 = s.chan h2 := rfl
@[simp] theorem State.ses_setCl (c : ClusterId) (x : Cluster) (n2 : Nat) : (s.setCl c x).ses n2 = s.ses n2 := rfl
@[simp] theorem State.que_setCl (c : ClusterId) (x : Cluster) (q2 : Nat) : (s.setCl c x).que q2 = s.que q2 := rfl
@[simp] theorem State.die_setCl (c : ClusterId) (x : Cluster) (d2 : Nat) : (s.setCl c x).die d2 = s.die d2 := rfl
@[simp] theorem State.lnk_setCl (c : ClusterId) (x : Cluster) (l2 : Nat) : (s.setCl c x).lnk l2 = s.lnk l2 := rfl
@[simp] theorem State.rail_setCl (c : ClusterId) (x : Cluster) (a2 : Nat) : (s.setCl c x).rail a2 = s.rail a2 := rfl
@[simp] theorem State.byte_setCl (c : ClusterId) (x : Cluster) (a2 : Nat) : (s.setCl c x).byte a2 = s.byte a2 := rfl
@[simp] theorem State.flashByte_setCl (c : ClusterId) (x : Cluster) (a2 : Nat) : (s.setCl c x).flashByte a2 = s.flashByte a2 := rfl
@[simp] theorem State.rf_setCl (c : ClusterId) (x : Cluster) (b2 : Nat) (f2 : Fld) : (s.setCl c x).rf b2 f2 = s.rf b2 f2 := rfl
@[simp] theorem State.bit_setCl (c : ClusterId) (x : Cluster) (b2 : Nat) (f2 : Fld) : (s.setCl c x).bit b2 f2 = s.bit b2 f2 := rfl
@[simp] theorem State.sem_setCl (c : ClusterId) (x : Cluster) (d2 i2 : Nat) : (s.setCl c x).sem d2 i2 = s.sem d2 i2 := rfl
@[simp] theorem State.crf_setCl (c : ClusterId) (x : Cluster) (l2 : Nat) (r2 : Bool) (k2 : Nat) (f2 : Fld) : (s.setCl c x).crf l2 r2 k2 f2 = s.crf l2 r2 k2 f2 := rfl
@[simp] theorem State.on_setCl (c : ClusterId) (x : Cluster)  : (s.setCl c x).on = s.on := rfl
@[simp] theorem State.stamp_setCl (c : ClusterId) (x : Cluster) (d2 : Nat) : (s.setCl c x).stamp d2 = s.stamp d2 := rfl

/-! setFqN -/
@[simp] theorem State.rd_setFqN (n : Nat) (x : FetchQ) (k2 : Nat) : (s.setFqN n x).rd k2 = s.rd k2 := rfl
@[simp] theorem State.brd_setFqN (n : Nat) (x : FetchQ) (k2 : Nat) : (s.setFqN n x).brd k2 = s.brd k2 := rfl
@[simp] theorem State.clN_setFqN (n : Nat) (x : FetchQ) (n2 : Nat) : (s.setFqN n x).clN n2 = s.clN n2 := rfl
@[simp] theorem State.cl_setFqN (n : Nat) (x : FetchQ) (c2 : ClusterId) : (s.setFqN n x).cl c2 = s.cl c2 := rfl
@[simp] theorem State.chan_setFqN (n : Nat) (x : FetchQ) (h2 : ChannelId) : (s.setFqN n x).chan h2 = s.chan h2 := rfl
@[simp] theorem State.ses_setFqN (n : Nat) (x : FetchQ) (n2 : Nat) : (s.setFqN n x).ses n2 = s.ses n2 := rfl
@[simp] theorem State.que_setFqN (n : Nat) (x : FetchQ) (q2 : Nat) : (s.setFqN n x).que q2 = s.que q2 := rfl
@[simp] theorem State.die_setFqN (n : Nat) (x : FetchQ) (d2 : Nat) : (s.setFqN n x).die d2 = s.die d2 := rfl
@[simp] theorem State.lnk_setFqN (n : Nat) (x : FetchQ) (l2 : Nat) : (s.setFqN n x).lnk l2 = s.lnk l2 := rfl
@[simp] theorem State.rail_setFqN (n : Nat) (x : FetchQ) (a2 : Nat) : (s.setFqN n x).rail a2 = s.rail a2 := rfl
@[simp] theorem State.byte_setFqN (n : Nat) (x : FetchQ) (a2 : Nat) : (s.setFqN n x).byte a2 = s.byte a2 := rfl
@[simp] theorem State.flashByte_setFqN (n : Nat) (x : FetchQ) (a2 : Nat) : (s.setFqN n x).flashByte a2 = s.flashByte a2 := rfl
@[simp] theorem State.rf_setFqN (n : Nat) (x : FetchQ) (b2 : Nat) (f2 : Fld) : (s.setFqN n x).rf b2 f2 = s.rf b2 f2 := rfl
@[simp] theorem State.bit_setFqN (n : Nat) (x : FetchQ) (b2 : Nat) (f2 : Fld) : (s.setFqN n x).bit b2 f2 = s.bit b2 f2 := rfl
@[simp] theorem State.sem_setFqN (n : Nat) (x : FetchQ) (d2 i2 : Nat) : (s.setFqN n x).sem d2 i2 = s.sem d2 i2 := rfl
@[simp] theorem State.crf_setFqN (n : Nat) (x : FetchQ) (l2 : Nat) (r2 : Bool) (k2 : Nat) (f2 : Fld) : (s.setFqN n x).crf l2 r2 k2 f2 = s.crf l2 r2 k2 f2 := rfl
@[simp] theorem State.on_setFqN (n : Nat) (x : FetchQ)  : (s.setFqN n x).on = s.on := rfl
@[simp] theorem State.stamp_setFqN (n : Nat) (x : FetchQ) (d2 : Nat) : (s.setFqN n x).stamp d2 = s.stamp d2 := rfl

/-! setFq -/
@[simp] theorem State.rd_setFq (c : ClusterId) (q : Nat) (x : FetchQ) (k2 : Nat) : (s.setFq c q x).rd k2 = s.rd k2 := rfl
@[simp] theorem State.brd_setFq (c : ClusterId) (q : Nat) (x : FetchQ) (k2 : Nat) : (s.setFq c q x).brd k2 = s.brd k2 := rfl
@[simp] theorem State.clN_setFq (c : ClusterId) (q : Nat) (x : FetchQ) (n2 : Nat) : (s.setFq c q x).clN n2 = s.clN n2 := rfl
@[simp] theorem State.cl_setFq (c : ClusterId) (q : Nat) (x : FetchQ) (c2 : ClusterId) : (s.setFq c q x).cl c2 = s.cl c2 := rfl
@[simp] theorem State.chan_setFq (c : ClusterId) (q : Nat) (x : FetchQ) (h2 : ChannelId) : (s.setFq c q x).chan h2 = s.chan h2 := rfl
@[simp] theorem State.ses_setFq (c : ClusterId) (q : Nat) (x : FetchQ) (n2 : Nat) : (s.setFq c q x).ses n2 = s.ses n2 := rfl
@[simp] theorem State.que_setFq (c : ClusterId) (q : Nat) (x : FetchQ) (q2 : Nat) : (s.setFq c q x).que q2 = s.que q2 := rfl
@[simp] theorem State.die_setFq (c : ClusterId) (q : Nat) (x : FetchQ) (d2 : Nat) : (s.setFq c q x).die d2 = s.die d2 := rfl
@[simp] theorem State.lnk_setFq (c : ClusterId) (q : Nat) (x : FetchQ) (l2 : Nat) : (s.setFq c q x).lnk l2 = s.lnk l2 := rfl
@[simp] theorem State.rail_setFq (c : ClusterId) (q : Nat) (x : FetchQ) (a2 : Nat) : (s.setFq c q x).rail a2 = s.rail a2 := rfl
@[simp] theorem State.byte_setFq (c : ClusterId) (q : Nat) (x : FetchQ) (a2 : Nat) : (s.setFq c q x).byte a2 = s.byte a2 := rfl
@[simp] theorem State.flashByte_setFq (c : ClusterId) (q : Nat) (x : FetchQ) (a2 : Nat) : (s.setFq c q x).flashByte a2 = s.flashByte a2 := rfl
@[simp] theorem State.rf_setFq (c : ClusterId) (q : Nat) (x : FetchQ) (b2 : Nat) (f2 : Fld) : (s.setFq c q x).rf b2 f2 = s.rf b2 f2 := rfl
@[simp] theorem State.bit_setFq (c : ClusterId) (q : Nat) (x : FetchQ) (b2 : Nat) (f2 : Fld) : (s.setFq c q x).bit b2 f2 = s.bit b2 f2 := rfl
@[simp] theorem State.sem_setFq (c : ClusterId) (q : Nat) (x : FetchQ) (d2 i2 : Nat) : (s.setFq c q x).sem d2 i2 = s.sem d2 i2 := rfl
@[simp] theorem State.crf_setFq (c : ClusterId) (q : Nat) (x : FetchQ) (l2 : Nat) (r2 : Bool) (k2 : Nat) (f2 : Fld) : (s.setFq c q x).crf l2 r2 k2 f2 = s.crf l2 r2 k2 f2 := rfl
@[simp] theorem State.on_setFq (c : ClusterId) (q : Nat) (x : FetchQ)  : (s.setFq c q x).on = s.on := rfl
@[simp] theorem State.stamp_setFq (c : ClusterId) (q : Nat) (x : FetchQ) (d2 : Nat) : (s.setFq c q x).stamp d2 = s.stamp d2 := rfl

/-! setChan -/
@[simp] theorem State.rd_setChan (ch : ChannelId) (x : Channel) (k2 : Nat) : (s.setChan ch x).rd k2 = s.rd k2 := rfl
@[simp] theorem State.brd_setChan (ch : ChannelId) (x : Channel) (k2 : Nat) : (s.setChan ch x).brd k2 = s.brd k2 := rfl
@[simp] theorem State.clN_setChan (ch : ChannelId) (x : Channel) (n2 : Nat) : (s.setChan ch x).clN n2 = s.clN n2 := rfl
@[simp] theorem State.cl_setChan (ch : ChannelId) (x : Channel) (c2 : ClusterId) : (s.setChan ch x).cl c2 = s.cl c2 := rfl
@[simp] theorem State.fqN_setChan (ch : ChannelId) (x : Channel) (n2 : Nat) : (s.setChan ch x).fqN n2 = s.fqN n2 := rfl
@[simp] theorem State.fq_setChan (ch : ChannelId) (x : Channel) (c2 : ClusterId) (q2 : Nat) : (s.setChan ch x).fq c2 q2 = s.fq c2 q2 := rfl
@[simp] theorem State.ses_setChan (ch : ChannelId) (x : Channel) (n2 : Nat) : (s.setChan ch x).ses n2 = s.ses n2 := rfl
@[simp] theorem State.que_setChan (ch : ChannelId) (x : Channel) (q2 : Nat) : (s.setChan ch x).que q2 = s.que q2 := rfl
@[simp] theorem State.die_setChan (ch : ChannelId) (x : Channel) (d2 : Nat) : (s.setChan ch x).die d2 = s.die d2 := rfl
@[simp] theorem State.lnk_setChan (ch : ChannelId) (x : Channel) (l2 : Nat) : (s.setChan ch x).lnk l2 = s.lnk l2 := rfl
@[simp] theorem State.rail_setChan (ch : ChannelId) (x : Channel) (a2 : Nat) : (s.setChan ch x).rail a2 = s.rail a2 := rfl
@[simp] theorem State.byte_setChan (ch : ChannelId) (x : Channel) (a2 : Nat) : (s.setChan ch x).byte a2 = s.byte a2 := rfl
@[simp] theorem State.flashByte_setChan (ch : ChannelId) (x : Channel) (a2 : Nat) : (s.setChan ch x).flashByte a2 = s.flashByte a2 := rfl
@[simp] theorem State.rf_setChan (ch : ChannelId) (x : Channel) (b2 : Nat) (f2 : Fld) : (s.setChan ch x).rf b2 f2 = s.rf b2 f2 := rfl
@[simp] theorem State.bit_setChan (ch : ChannelId) (x : Channel) (b2 : Nat) (f2 : Fld) : (s.setChan ch x).bit b2 f2 = s.bit b2 f2 := rfl
@[simp] theorem State.sem_setChan (ch : ChannelId) (x : Channel) (d2 i2 : Nat) : (s.setChan ch x).sem d2 i2 = s.sem d2 i2 := rfl
@[simp] theorem State.crf_setChan (ch : ChannelId) (x : Channel) (l2 : Nat) (r2 : Bool) (k2 : Nat) (f2 : Fld) : (s.setChan ch x).crf l2 r2 k2 f2 = s.crf l2 r2 k2 f2 := rfl
@[simp] theorem State.on_setChan (ch : ChannelId) (x : Channel)  : (s.setChan ch x).on = s.on := rfl
@[simp] theorem State.stamp_setChan (ch : ChannelId) (x : Channel) (d2 : Nat) : (s.setChan ch x).stamp d2 = s.stamp d2 := rfl

/-! setSes -/
@[simp] theorem State.rd_setSes (n : Nat) (x : Session) (k2 : Nat) : (s.setSes n x).rd k2 = s.rd k2 := rfl
@[simp] theorem State.brd_setSes (n : Nat) (x : Session) (k2 : Nat) : (s.setSes n x).brd k2 = s.brd k2 := rfl
@[simp] theorem State.clN_setSes (n : Nat) (x : Session) (n2 : Nat) : (s.setSes n x).clN n2 = s.clN n2 := rfl
@[simp] theorem State.cl_setSes (n : Nat) (x : Session) (c2 : ClusterId) : (s.setSes n x).cl c2 = s.cl c2 := rfl
@[simp] theorem State.fqN_setSes (n : Nat) (x : Session) (n2 : Nat) : (s.setSes n x).fqN n2 = s.fqN n2 := rfl
@[simp] theorem State.fq_setSes (n : Nat) (x : Session) (c2 : ClusterId) (q2 : Nat) : (s.setSes n x).fq c2 q2 = s.fq c2 q2 := rfl
@[simp] theorem State.chan_setSes (n : Nat) (x : Session) (h2 : ChannelId) : (s.setSes n x).chan h2 = s.chan h2 := rfl
@[simp] theorem State.que_setSes (n : Nat) (x : Session) (q2 : Nat) : (s.setSes n x).que q2 = s.que q2 := rfl
@[simp] theorem State.die_setSes (n : Nat) (x : Session) (d2 : Nat) : (s.setSes n x).die d2 = s.die d2 := rfl
@[simp] theorem State.lnk_setSes (n : Nat) (x : Session) (l2 : Nat) : (s.setSes n x).lnk l2 = s.lnk l2 := rfl
@[simp] theorem State.rail_setSes (n : Nat) (x : Session) (a2 : Nat) : (s.setSes n x).rail a2 = s.rail a2 := rfl
@[simp] theorem State.byte_setSes (n : Nat) (x : Session) (a2 : Nat) : (s.setSes n x).byte a2 = s.byte a2 := rfl
@[simp] theorem State.flashByte_setSes (n : Nat) (x : Session) (a2 : Nat) : (s.setSes n x).flashByte a2 = s.flashByte a2 := rfl
@[simp] theorem State.rf_setSes (n : Nat) (x : Session) (b2 : Nat) (f2 : Fld) : (s.setSes n x).rf b2 f2 = s.rf b2 f2 := rfl
@[simp] theorem State.bit_setSes (n : Nat) (x : Session) (b2 : Nat) (f2 : Fld) : (s.setSes n x).bit b2 f2 = s.bit b2 f2 := rfl
@[simp] theorem State.sem_setSes (n : Nat) (x : Session) (d2 i2 : Nat) : (s.setSes n x).sem d2 i2 = s.sem d2 i2 := rfl
@[simp] theorem State.crf_setSes (n : Nat) (x : Session) (l2 : Nat) (r2 : Bool) (k2 : Nat) (f2 : Fld) : (s.setSes n x).crf l2 r2 k2 f2 = s.crf l2 r2 k2 f2 := rfl
@[simp] theorem State.on_setSes (n : Nat) (x : Session)  : (s.setSes n x).on = s.on := rfl
@[simp] theorem State.stamp_setSes (n : Nat) (x : Session) (d2 : Nat) : (s.setSes n x).stamp d2 = s.stamp d2 := rfl

/-! setQue -/
@[simp] theorem State.rd_setQue (q : Nat) (x : HostQueue) (k2 : Nat) : (s.setQue q x).rd k2 = s.rd k2 := rfl
@[simp] theorem State.brd_setQue (q : Nat) (x : HostQueue) (k2 : Nat) : (s.setQue q x).brd k2 = s.brd k2 := rfl
@[simp] theorem State.clN_setQue (q : Nat) (x : HostQueue) (n2 : Nat) : (s.setQue q x).clN n2 = s.clN n2 := rfl
@[simp] theorem State.cl_setQue (q : Nat) (x : HostQueue) (c2 : ClusterId) : (s.setQue q x).cl c2 = s.cl c2 := rfl
@[simp] theorem State.fqN_setQue (q : Nat) (x : HostQueue) (n2 : Nat) : (s.setQue q x).fqN n2 = s.fqN n2 := rfl
@[simp] theorem State.fq_setQue (q : Nat) (x : HostQueue) (c2 : ClusterId) (q2 : Nat) : (s.setQue q x).fq c2 q2 = s.fq c2 q2 := rfl
@[simp] theorem State.chan_setQue (q : Nat) (x : HostQueue) (h2 : ChannelId) : (s.setQue q x).chan h2 = s.chan h2 := rfl
@[simp] theorem State.ses_setQue (q : Nat) (x : HostQueue) (n2 : Nat) : (s.setQue q x).ses n2 = s.ses n2 := rfl
@[simp] theorem State.die_setQue (q : Nat) (x : HostQueue) (d2 : Nat) : (s.setQue q x).die d2 = s.die d2 := rfl
@[simp] theorem State.lnk_setQue (q : Nat) (x : HostQueue) (l2 : Nat) : (s.setQue q x).lnk l2 = s.lnk l2 := rfl
@[simp] theorem State.rail_setQue (q : Nat) (x : HostQueue) (a2 : Nat) : (s.setQue q x).rail a2 = s.rail a2 := rfl
@[simp] theorem State.byte_setQue (q : Nat) (x : HostQueue) (a2 : Nat) : (s.setQue q x).byte a2 = s.byte a2 := rfl
@[simp] theorem State.flashByte_setQue (q : Nat) (x : HostQueue) (a2 : Nat) : (s.setQue q x).flashByte a2 = s.flashByte a2 := rfl
@[simp] theorem State.rf_setQue (q : Nat) (x : HostQueue) (b2 : Nat) (f2 : Fld) : (s.setQue q x).rf b2 f2 = s.rf b2 f2 := rfl
@[simp] theorem State.bit_setQue (q : Nat) (x : HostQueue) (b2 : Nat) (f2 : Fld) : (s.setQue q x).bit b2 f2 = s.bit b2 f2 := rfl
@[simp] theorem State.sem_setQue (q : Nat) (x : HostQueue) (d2 i2 : Nat) : (s.setQue q x).sem d2 i2 = s.sem d2 i2 := rfl
@[simp] theorem State.crf_setQue (q : Nat) (x : HostQueue) (l2 : Nat) (r2 : Bool) (k2 : Nat) (f2 : Fld) : (s.setQue q x).crf l2 r2 k2 f2 = s.crf l2 r2 k2 f2 := rfl
@[simp] theorem State.on_setQue (q : Nat) (x : HostQueue)  : (s.setQue q x).on = s.on := rfl
@[simp] theorem State.stamp_setQue (q : Nat) (x : HostQueue) (d2 : Nat) : (s.setQue q x).stamp d2 = s.stamp d2 := rfl

/-! setDie -/
@[simp] theorem State.rd_setDie (d : Nat) (x : DieState) (k2 : Nat) : (s.setDie d x).rd k2 = s.rd k2 := rfl
@[simp] theorem State.brd_setDie (d : Nat) (x : DieState) (k2 : Nat) : (s.setDie d x).brd k2 = s.brd k2 := rfl
@[simp] theorem State.clN_setDie (d : Nat) (x : DieState) (n2 : Nat) : (s.setDie d x).clN n2 = s.clN n2 := rfl
@[simp] theorem State.cl_setDie (d : Nat) (x : DieState) (c2 : ClusterId) : (s.setDie d x).cl c2 = s.cl c2 := rfl
@[simp] theorem State.fqN_setDie (d : Nat) (x : DieState) (n2 : Nat) : (s.setDie d x).fqN n2 = s.fqN n2 := rfl
@[simp] theorem State.fq_setDie (d : Nat) (x : DieState) (c2 : ClusterId) (q2 : Nat) : (s.setDie d x).fq c2 q2 = s.fq c2 q2 := rfl
@[simp] theorem State.chan_setDie (d : Nat) (x : DieState) (h2 : ChannelId) : (s.setDie d x).chan h2 = s.chan h2 := rfl
@[simp] theorem State.ses_setDie (d : Nat) (x : DieState) (n2 : Nat) : (s.setDie d x).ses n2 = s.ses n2 := rfl
@[simp] theorem State.que_setDie (d : Nat) (x : DieState) (q2 : Nat) : (s.setDie d x).que q2 = s.que q2 := rfl
@[simp] theorem State.lnk_setDie (d : Nat) (x : DieState) (l2 : Nat) : (s.setDie d x).lnk l2 = s.lnk l2 := rfl
@[simp] theorem State.rail_setDie (d : Nat) (x : DieState) (a2 : Nat) : (s.setDie d x).rail a2 = s.rail a2 := rfl
@[simp] theorem State.byte_setDie (d : Nat) (x : DieState) (a2 : Nat) : (s.setDie d x).byte a2 = s.byte a2 := rfl
@[simp] theorem State.flashByte_setDie (d : Nat) (x : DieState) (a2 : Nat) : (s.setDie d x).flashByte a2 = s.flashByte a2 := rfl
@[simp] theorem State.rf_setDie (d : Nat) (x : DieState) (b2 : Nat) (f2 : Fld) : (s.setDie d x).rf b2 f2 = s.rf b2 f2 := rfl
@[simp] theorem State.bit_setDie (d : Nat) (x : DieState) (b2 : Nat) (f2 : Fld) : (s.setDie d x).bit b2 f2 = s.bit b2 f2 := rfl
@[simp] theorem State.sem_setDie (d : Nat) (x : DieState) (d2 i2 : Nat) : (s.setDie d x).sem d2 i2 = s.sem d2 i2 := rfl
@[simp] theorem State.crf_setDie (d : Nat) (x : DieState) (l2 : Nat) (r2 : Bool) (k2 : Nat) (f2 : Fld) : (s.setDie d x).crf l2 r2 k2 f2 = s.crf l2 r2 k2 f2 := rfl
@[simp] theorem State.on_setDie (d : Nat) (x : DieState)  : (s.setDie d x).on = s.on := rfl

/-! setLnk -/
@[simp] theorem State.rd_setLnk (l : Nat) (x : Link) (k2 : Nat) : (s.setLnk l x).rd k2 = s.rd k2 := rfl
@[simp] theorem State.brd_setLnk (l : Nat) (x : Link) (k2 : Nat) : (s.setLnk l x).brd k2 = s.brd k2 := rfl
@[simp] theorem State.clN_setLnk (l : Nat) (x : Link) (n2 : Nat) : (s.setLnk l x).clN n2 = s.clN n2 := rfl
@[simp] theorem State.cl_setLnk (l : Nat) (x : Link) (c2 : ClusterId) : (s.setLnk l x).cl c2 = s.cl c2 := rfl
@[simp] theorem State.fqN_setLnk (l : Nat) (x : Link) (n2 : Nat) : (s.setLnk l x).fqN n2 = s.fqN n2 := rfl
@[simp] theorem State.fq_setLnk (l : Nat) (x : Link) (c2 : ClusterId) (q2 : Nat) : (s.setLnk l x).fq c2 q2 = s.fq c2 q2 := rfl
@[simp] theorem State.chan_setLnk (l : Nat) (x : Link) (h2 : ChannelId) : (s.setLnk l x).chan h2 = s.chan h2 := rfl
@[simp] theorem State.ses_setLnk (l : Nat) (x : Link) (n2 : Nat) : (s.setLnk l x).ses n2 = s.ses n2 := rfl
@[simp] theorem State.que_setLnk (l : Nat) (x : Link) (q2 : Nat) : (s.setLnk l x).que q2 = s.que q2 := rfl
@[simp] theorem State.die_setLnk (l : Nat) (x : Link) (d2 : Nat) : (s.setLnk l x).die d2 = s.die d2 := rfl
@[simp] theorem State.rail_setLnk (l : Nat) (x : Link) (a2 : Nat) : (s.setLnk l x).rail a2 = s.rail a2 := rfl
@[simp] theorem State.byte_setLnk (l : Nat) (x : Link) (a2 : Nat) : (s.setLnk l x).byte a2 = s.byte a2 := rfl
@[simp] theorem State.flashByte_setLnk (l : Nat) (x : Link) (a2 : Nat) : (s.setLnk l x).flashByte a2 = s.flashByte a2 := rfl
@[simp] theorem State.rf_setLnk (l : Nat) (x : Link) (b2 : Nat) (f2 : Fld) : (s.setLnk l x).rf b2 f2 = s.rf b2 f2 := rfl
@[simp] theorem State.bit_setLnk (l : Nat) (x : Link) (b2 : Nat) (f2 : Fld) : (s.setLnk l x).bit b2 f2 = s.bit b2 f2 := rfl
@[simp] theorem State.sem_setLnk (l : Nat) (x : Link) (d2 i2 : Nat) : (s.setLnk l x).sem d2 i2 = s.sem d2 i2 := rfl
@[simp] theorem State.crf_setLnk (l : Nat) (x : Link) (l2 : Nat) (r2 : Bool) (k2 : Nat) (f2 : Fld) : (s.setLnk l x).crf l2 r2 k2 f2 = s.crf l2 r2 k2 f2 := rfl
@[simp] theorem State.on_setLnk (l : Nat) (x : Link)  : (s.setLnk l x).on = s.on := rfl
@[simp] theorem State.stamp_setLnk (l : Nat) (x : Link) (d2 : Nat) : (s.setLnk l x).stamp d2 = s.stamp d2 := rfl

/-! setRail -/
@[simp] theorem State.rd_setRail (a : Nat) (x : Rail) (k2 : Nat) : (s.setRail a x).rd k2 = s.rd k2 := rfl
@[simp] theorem State.brd_setRail (a : Nat) (x : Rail) (k2 : Nat) : (s.setRail a x).brd k2 = s.brd k2 := rfl
@[simp] theorem State.clN_setRail (a : Nat) (x : Rail) (n2 : Nat) : (s.setRail a x).clN n2 = s.clN n2 := rfl
@[simp] theorem State.cl_setRail (a : Nat) (x : Rail) (c2 : ClusterId) : (s.setRail a x).cl c2 = s.cl c2 := rfl
@[simp] theorem State.fqN_setRail (a : Nat) (x : Rail) (n2 : Nat) : (s.setRail a x).fqN n2 = s.fqN n2 := rfl
@[simp] theorem State.fq_setRail (a : Nat) (x : Rail) (c2 : ClusterId) (q2 : Nat) : (s.setRail a x).fq c2 q2 = s.fq c2 q2 := rfl
@[simp] theorem State.chan_setRail (a : Nat) (x : Rail) (h2 : ChannelId) : (s.setRail a x).chan h2 = s.chan h2 := rfl
@[simp] theorem State.ses_setRail (a : Nat) (x : Rail) (n2 : Nat) : (s.setRail a x).ses n2 = s.ses n2 := rfl
@[simp] theorem State.que_setRail (a : Nat) (x : Rail) (q2 : Nat) : (s.setRail a x).que q2 = s.que q2 := rfl
@[simp] theorem State.die_setRail (a : Nat) (x : Rail) (d2 : Nat) : (s.setRail a x).die d2 = s.die d2 := rfl
@[simp] theorem State.lnk_setRail (a : Nat) (x : Rail) (l2 : Nat) : (s.setRail a x).lnk l2 = s.lnk l2 := rfl
@[simp] theorem State.byte_setRail (a : Nat) (x : Rail) (a2 : Nat) : (s.setRail a x).byte a2 = s.byte a2 := rfl
@[simp] theorem State.flashByte_setRail (a : Nat) (x : Rail) (a2 : Nat) : (s.setRail a x).flashByte a2 = s.flashByte a2 := rfl
@[simp] theorem State.rf_setRail (a : Nat) (x : Rail) (b2 : Nat) (f2 : Fld) : (s.setRail a x).rf b2 f2 = s.rf b2 f2 := rfl
@[simp] theorem State.bit_setRail (a : Nat) (x : Rail) (b2 : Nat) (f2 : Fld) : (s.setRail a x).bit b2 f2 = s.bit b2 f2 := rfl
@[simp] theorem State.sem_setRail (a : Nat) (x : Rail) (d2 i2 : Nat) : (s.setRail a x).sem d2 i2 = s.sem d2 i2 := rfl
@[simp] theorem State.crf_setRail (a : Nat) (x : Rail) (l2 : Nat) (r2 : Bool) (k2 : Nat) (f2 : Fld) : (s.setRail a x).crf l2 r2 k2 f2 = s.crf l2 r2 k2 f2 := rfl
@[simp] theorem State.on_setRail (a : Nat) (x : Rail)  : (s.setRail a x).on = s.on := rfl
@[simp] theorem State.stamp_setRail (a : Nat) (x : Rail) (d2 : Nat) : (s.setRail a x).stamp d2 = s.stamp d2 := rfl

/-! send -/
@[simp] theorem State.rd_send (r : Reply) (k2 : Nat) : (s.send r).rd k2 = s.rd k2 := rfl
@[simp] theorem State.brd_send (r : Reply) (k2 : Nat) : (s.send r).brd k2 = s.brd k2 := rfl
@[simp] theorem State.clN_send (r : Reply) (n2 : Nat) : (s.send r).clN n2 = s.clN n2 := rfl
@[simp] theorem State.cl_send (r : Reply) (c2 : ClusterId) : (s.send r).cl c2 = s.cl c2 := rfl
@[simp] theorem State.fqN_send (r : Reply) (n2 : Nat) : (s.send r).fqN n2 = s.fqN n2 := rfl
@[simp] theorem State.fq_send (r : Reply) (c2 : ClusterId) (q2 : Nat) : (s.send r).fq c2 q2 = s.fq c2 q2 := rfl
@[simp] theorem State.chan_send (r : Reply) (h2 : ChannelId) : (s.send r).chan h2 = s.chan h2 := rfl
@[simp] theorem State.ses_send (r : Reply) (n2 : Nat) : (s.send r).ses n2 = s.ses n2 := rfl
@[simp] theorem State.que_send (r : Reply) (q2 : Nat) : (s.send r).que q2 = s.que q2 := rfl
@[simp] theorem State.die_send (r : Reply) (d2 : Nat) : (s.send r).die d2 = s.die d2 := rfl
@[simp] theorem State.lnk_send (r : Reply) (l2 : Nat) : (s.send r).lnk l2 = s.lnk l2 := rfl
@[simp] theorem State.rail_send (r : Reply) (a2 : Nat) : (s.send r).rail a2 = s.rail a2 := rfl
@[simp] theorem State.byte_send (r : Reply) (a2 : Nat) : (s.send r).byte a2 = s.byte a2 := rfl
@[simp] theorem State.flashByte_send (r : Reply) (a2 : Nat) : (s.send r).flashByte a2 = s.flashByte a2 := rfl
@[simp] theorem State.rf_send (r : Reply) (b2 : Nat) (f2 : Fld) : (s.send r).rf b2 f2 = s.rf b2 f2 := rfl
@[simp] theorem State.bit_send (r : Reply) (b2 : Nat) (f2 : Fld) : (s.send r).bit b2 f2 = s.bit b2 f2 := rfl
@[simp] theorem State.sem_send (r : Reply) (d2 i2 : Nat) : (s.send r).sem d2 i2 = s.sem d2 i2 := rfl
@[simp] theorem State.crf_send (r : Reply) (l2 : Nat) (r2 : Bool) (k2 : Nat) (f2 : Fld) : (s.send r).crf l2 r2 k2 f2 = s.crf l2 r2 k2 f2 := rfl
@[simp] theorem State.on_send (r : Reply)  : (s.send r).on = s.on := rfl
@[simp] theorem State.stamp_send (r : Reply) (d2 : Nat) : (s.send r).stamp d2 = s.stamp d2 := rfl

/-! poke -/
@[simp] theorem State.rd_poke (a : Nat) (b : Byte) (k2 : Nat) : (s.poke a b).rd k2 = s.rd k2 := rfl
@[simp] theorem State.brd_poke (a : Nat) (b : Byte) (k2 : Nat) : (s.poke a b).brd k2 = s.brd k2 := rfl
@[simp] theorem State.clN_poke (a : Nat) (b : Byte) (n2 : Nat) : (s.poke a b).clN n2 = s.clN n2 := rfl
@[simp] theorem State.cl_poke (a : Nat) (b : Byte) (c2 : ClusterId) : (s.poke a b).cl c2 = s.cl c2 := rfl
@[simp] theorem State.fqN_poke (a : Nat) (b : Byte) (n2 : Nat) : (s.poke a b).fqN n2 = s.fqN n2 := rfl
@[simp] theorem State.fq_poke (a : Nat) (b : Byte) (c2 : ClusterId) (q2 : Nat) : (s.poke a b).fq c2 q2 = s.fq c2 q2 := rfl
@[simp] theorem State.chan_poke (a : Nat) (b : Byte) (h2 : ChannelId) : (s.poke a b).chan h2 = s.chan h2 := rfl
@[simp] theorem State.ses_poke (a : Nat) (b : Byte) (n2 : Nat) : (s.poke a b).ses n2 = s.ses n2 := rfl
@[simp] theorem State.que_poke (a : Nat) (b : Byte) (q2 : Nat) : (s.poke a b).que q2 = s.que q2 := rfl
@[simp] theorem State.die_poke (a : Nat) (b : Byte) (d2 : Nat) : (s.poke a b).die d2 = s.die d2 := rfl
@[simp] theorem State.lnk_poke (a : Nat) (b : Byte) (l2 : Nat) : (s.poke a b).lnk l2 = s.lnk l2 := rfl
@[simp] theorem State.rail_poke (a : Nat) (b : Byte) (a2 : Nat) : (s.poke a b).rail a2 = s.rail a2 := rfl
@[simp] theorem State.flashByte_poke (a : Nat) (b : Byte) (a2 : Nat) : (s.poke a b).flashByte a2 = s.flashByte a2 := rfl
@[simp] theorem State.rf_poke (a : Nat) (b : Byte) (b2 : Nat) (f2 : Fld) : (s.poke a b).rf b2 f2 = s.rf b2 f2 := rfl
@[simp] theorem State.bit_poke (a : Nat) (b : Byte) (b2 : Nat) (f2 : Fld) : (s.poke a b).bit b2 f2 = s.bit b2 f2 := rfl
@[simp] theorem State.sem_poke (a : Nat) (b : Byte) (d2 i2 : Nat) : (s.poke a b).sem d2 i2 = s.sem d2 i2 := rfl
@[simp] theorem State.crf_poke (a : Nat) (b : Byte) (l2 : Nat) (r2 : Bool) (k2 : Nat) (f2 : Fld) : (s.poke a b).crf l2 r2 k2 f2 = s.crf l2 r2 k2 f2 := rfl
@[simp] theorem State.on_poke (a : Nat) (b : Byte)  : (s.poke a b).on = s.on := rfl
@[simp] theorem State.stamp_poke (a : Nat) (b : Byte) (d2 : Nat) : (s.poke a b).stamp d2 = s.stamp d2 := rfl

/-! flashPoke -/
@[simp] theorem State.rd_flashPoke (a : Nat) (b : Byte) (k2 : Nat) : (s.flashPoke a b).rd k2 = s.rd k2 := rfl
@[simp] theorem State.brd_flashPoke (a : Nat) (b : Byte) (k2 : Nat) : (s.flashPoke a b).brd k2 = s.brd k2 := rfl
@[simp] theorem State.clN_flashPoke (a : Nat) (b : Byte) (n2 : Nat) : (s.flashPoke a b).clN n2 = s.clN n2 := rfl
@[simp] theorem State.cl_flashPoke (a : Nat) (b : Byte) (c2 : ClusterId) : (s.flashPoke a b).cl c2 = s.cl c2 := rfl
@[simp] theorem State.fqN_flashPoke (a : Nat) (b : Byte) (n2 : Nat) : (s.flashPoke a b).fqN n2 = s.fqN n2 := rfl
@[simp] theorem State.fq_flashPoke (a : Nat) (b : Byte) (c2 : ClusterId) (q2 : Nat) : (s.flashPoke a b).fq c2 q2 = s.fq c2 q2 := rfl
@[simp] theorem State.chan_flashPoke (a : Nat) (b : Byte) (h2 : ChannelId) : (s.flashPoke a b).chan h2 = s.chan h2 := rfl
@[simp] theorem State.ses_flashPoke (a : Nat) (b : Byte) (n2 : Nat) : (s.flashPoke a b).ses n2 = s.ses n2 := rfl
@[simp] theorem State.que_flashPoke (a : Nat) (b : Byte) (q2 : Nat) : (s.flashPoke a b).que q2 = s.que q2 := rfl
@[simp] theorem State.die_flashPoke (a : Nat) (b : Byte) (d2 : Nat) : (s.flashPoke a b).die d2 = s.die d2 := rfl
@[simp] theorem State.lnk_flashPoke (a : Nat) (b : Byte) (l2 : Nat) : (s.flashPoke a b).lnk l2 = s.lnk l2 := rfl
@[simp] theorem State.rail_flashPoke (a : Nat) (b : Byte) (a2 : Nat) : (s.flashPoke a b).rail a2 = s.rail a2 := rfl
@[simp] theorem State.byte_flashPoke (a : Nat) (b : Byte) (a2 : Nat) : (s.flashPoke a b).byte a2 = s.byte a2 := rfl
@[simp] theorem State.rf_flashPoke (a : Nat) (b : Byte) (b2 : Nat) (f2 : Fld) : (s.flashPoke a b).rf b2 f2 = s.rf b2 f2 := rfl
@[simp] theorem State.bit_flashPoke (a : Nat) (b : Byte) (b2 : Nat) (f2 : Fld) : (s.flashPoke a b).bit b2 f2 = s.bit b2 f2 := rfl
@[simp] theorem State.sem_flashPoke (a : Nat) (b : Byte) (d2 i2 : Nat) : (s.flashPoke a b).sem d2 i2 = s.sem d2 i2 := rfl
@[simp] theorem State.crf_flashPoke (a : Nat) (b : Byte) (l2 : Nat) (r2 : Bool) (k2 : Nat) (f2 : Fld) : (s.flashPoke a b).crf l2 r2 k2 f2 = s.crf l2 r2 k2 f2 := rfl
@[simp] theorem State.on_flashPoke (a : Nat) (b : Byte)  : (s.flashPoke a b).on = s.on := rfl
@[simp] theorem State.stamp_flashPoke (a : Nat) (b : Byte) (d2 : Nat) : (s.flashPoke a b).stamp d2 = s.stamp d2 := rfl

/-! poisonEvent -/
@[simp] theorem State.rd_poisonEvent (d : Nat) (k2 : Nat) : (s.poisonEvent d).rd k2 = s.rd k2 := rfl
@[simp] theorem State.brd_poisonEvent (d : Nat) (k2 : Nat) : (s.poisonEvent d).brd k2 = s.brd k2 := rfl
@[simp] theorem State.clN_poisonEvent (d : Nat) (n2 : Nat) : (s.poisonEvent d).clN n2 = s.clN n2 := rfl
@[simp] theorem State.cl_poisonEvent (d : Nat) (c2 : ClusterId) : (s.poisonEvent d).cl c2 = s.cl c2 := rfl
@[simp] theorem State.fqN_poisonEvent (d : Nat) (n2 : Nat) : (s.poisonEvent d).fqN n2 = s.fqN n2 := rfl
@[simp] theorem State.fq_poisonEvent (d : Nat) (c2 : ClusterId) (q2 : Nat) : (s.poisonEvent d).fq c2 q2 = s.fq c2 q2 := rfl
@[simp] theorem State.chan_poisonEvent (d : Nat) (h2 : ChannelId) : (s.poisonEvent d).chan h2 = s.chan h2 := rfl
@[simp] theorem State.ses_poisonEvent (d : Nat) (n2 : Nat) : (s.poisonEvent d).ses n2 = s.ses n2 := rfl
@[simp] theorem State.que_poisonEvent (d : Nat) (q2 : Nat) : (s.poisonEvent d).que q2 = s.que q2 := rfl
@[simp] theorem State.die_poisonEvent (d : Nat) (d2 : Nat) : (s.poisonEvent d).die d2 = s.die d2 := rfl
@[simp] theorem State.lnk_poisonEvent (d : Nat) (l2 : Nat) : (s.poisonEvent d).lnk l2 = s.lnk l2 := rfl
@[simp] theorem State.rail_poisonEvent (d : Nat) (a2 : Nat) : (s.poisonEvent d).rail a2 = s.rail a2 := rfl
@[simp] theorem State.byte_poisonEvent (d : Nat) (a2 : Nat) : (s.poisonEvent d).byte a2 = s.byte a2 := rfl
@[simp] theorem State.flashByte_poisonEvent (d : Nat) (a2 : Nat) : (s.poisonEvent d).flashByte a2 = s.flashByte a2 := rfl
@[simp] theorem State.rf_poisonEvent (d : Nat) (b2 : Nat) (f2 : Fld) : (s.poisonEvent d).rf b2 f2 = s.rf b2 f2 := rfl
@[simp] theorem State.bit_poisonEvent (d : Nat) (b2 : Nat) (f2 : Fld) : (s.poisonEvent d).bit b2 f2 = s.bit b2 f2 := rfl
@[simp] theorem State.sem_poisonEvent (d : Nat) (d2 i2 : Nat) : (s.poisonEvent d).sem d2 i2 = s.sem d2 i2 := rfl
@[simp] theorem State.crf_poisonEvent (d : Nat) (l2 : Nat) (r2 : Bool) (k2 : Nat) (f2 : Fld) : (s.poisonEvent d).crf l2 r2 k2 f2 = s.crf l2 r2 k2 f2 := rfl
@[simp] theorem State.on_poisonEvent (d : Nat)  : (s.poisonEvent d).on = s.on := rfl
@[simp] theorem State.stamp_poisonEvent (d : Nat) (d2 : Nat) : (s.poisonEvent d).stamp d2 = s.stamp d2 := rfl

/-! clearLine -/
@[simp] theorem State.rd_clearLine (l : Nat) (k2 : Nat) : (s.clearLine l).rd k2 = s.rd k2 := rfl
@[simp] theorem State.brd_clearLine (l : Nat) (k2 : Nat) : (s.clearLine l).brd k2 = s.brd k2 := rfl
@[simp] theorem State.clN_clearLine (l : Nat) (n2 : Nat) : (s.clearLine l).clN n2 = s.clN n2 := rfl
@[simp] theorem State.cl_clearLine (l : Nat) (c2 : ClusterId) : (s.clearLine l).cl c2 = s.cl c2 := rfl
@[simp] theorem State.fqN_clearLine (l : Nat) (n2 : Nat) : (s.clearLine l).fqN n2 = s.fqN n2 := rfl
@[simp] theorem State.fq_clearLine (l : Nat) (c2 : ClusterId) (q2 : Nat) : (s.clearLine l).fq c2 q2 = s.fq c2 q2 := rfl
@[simp] theorem State.chan_clearLine (l : Nat) (h2 : ChannelId) : (s.clearLine l).chan h2 = s.chan h2 := rfl
@[simp] theorem State.ses_clearLine (l : Nat) (n2 : Nat) : (s.clearLine l).ses n2 = s.ses n2 := rfl
@[simp] theorem State.que_clearLine (l : Nat) (q2 : Nat) : (s.clearLine l).que q2 = s.que q2 := rfl
@[simp] theorem State.die_clearLine (l : Nat) (d2 : Nat) : (s.clearLine l).die d2 = s.die d2 := rfl
@[simp] theorem State.lnk_clearLine (l : Nat) (l2 : Nat) : (s.clearLine l).lnk l2 = s.lnk l2 := rfl
@[simp] theorem State.rail_clearLine (l : Nat) (a2 : Nat) : (s.clearLine l).rail a2 = s.rail a2 := rfl
@[simp] theorem State.byte_clearLine (l : Nat) (a2 : Nat) : (s.clearLine l).byte a2 = s.byte a2 := rfl
@[simp] theorem State.flashByte_clearLine (l : Nat) (a2 : Nat) : (s.clearLine l).flashByte a2 = s.flashByte a2 := rfl
@[simp] theorem State.rf_clearLine (l : Nat) (b2 : Nat) (f2 : Fld) : (s.clearLine l).rf b2 f2 = s.rf b2 f2 := rfl
@[simp] theorem State.bit_clearLine (l : Nat) (b2 : Nat) (f2 : Fld) : (s.clearLine l).bit b2 f2 = s.bit b2 f2 := rfl
@[simp] theorem State.sem_clearLine (l : Nat) (d2 i2 : Nat) : (s.clearLine l).sem d2 i2 = s.sem d2 i2 := rfl
@[simp] theorem State.crf_clearLine (l : Nat) (l2 : Nat) (r2 : Bool) (k2 : Nat) (f2 : Fld) : (s.clearLine l).crf l2 r2 k2 f2 = s.crf l2 r2 k2 f2 := rfl
@[simp] theorem State.on_clearLine (l : Nat)  : (s.clearLine l).on = s.on := rfl
@[simp] theorem State.stamp_clearLine (l : Nat) (d2 : Nat) : (s.clearLine l).stamp d2 = s.stamp d2 := rfl

/-! The same table -/
@[simp] theorem State.rd_wr_same (k : Nat) (v : W32) : (s.wr k v).rd k = v := Sparse.get_put_same _ _ _ _
theorem State.rd_wr_ne (k j : Nat) (v : W32) (h : j ≠ k) : (s.wr k v).rd j = s.rd j := Sparse.get_put_ne _ _ _ _ _ h
@[simp] theorem State.brd_bwr_same (k : Nat) (v : W32) : (s.bwr k v).brd k = v := Sparse.get_put_same _ _ _ _
theorem State.brd_bwr_ne (k j : Nat) (v : W32) (h : j ≠ k) : (s.bwr k v).brd j = s.brd j := Sparse.get_put_ne _ _ _ _ _ h
@[simp] theorem State.clN_setClN_same (n : Nat) (x : Cluster) : (s.setClN n x).clN n = x := Sparse.get_put_same _ _ _ _
theorem State.clN_setClN_ne (n m : Nat) (x : Cluster) (h : m ≠ n) : (s.setClN n x).clN m = s.clN m := Sparse.get_put_ne _ _ _ _ _ h
@[simp] theorem State.cl_setCl_same (c : ClusterId) (x : Cluster) : (s.setCl c x).cl c = x := Sparse.get_put_same _ _ _ _
@[simp] theorem State.fq_setFq_same (c : ClusterId) (q : Nat) (x : FetchQ) : (s.setFq c q x).fq c q = x := Sparse.get_put_same _ _ _ _
@[simp] theorem State.chan_setChan_same (ch : ChannelId) (x : Channel) : (s.setChan ch x).chan ch = x := Sparse.get_put_same _ _ _ _
@[simp] theorem State.ses_setSes_same (n : Nat) (x : Session) : (s.setSes n x).ses n = x := Sparse.get_put_same _ _ _ _
theorem State.ses_setSes_ne (n m : Nat) (x : Session) (h : m ≠ n) : (s.setSes n x).ses m = s.ses m := Sparse.get_put_ne _ _ _ _ _ h
@[simp] theorem State.que_setQue_same (q : Nat) (x : HostQueue) : (s.setQue q x).que q = x := Sparse.get_put_same _ _ _ _
theorem State.que_setQue_ne (q p : Nat) (x : HostQueue) (h : p ≠ q) : (s.setQue q x).que p = s.que p := Sparse.get_put_ne _ _ _ _ _ h
@[simp] theorem State.die_setDie_same (d : Nat) (x : DieState) : (s.setDie d x).die d = x := Sparse.get_put_same _ _ _ _
theorem State.die_setDie_ne (d e : Nat) (x : DieState) (h : e ≠ d) : (s.setDie d x).die e = s.die e := Sparse.get_put_ne _ _ _ _ _ h
@[simp] theorem State.lnk_setLnk_same (l : Nat) (x : Link) : (s.setLnk l x).lnk l = x := Sparse.get_put_same _ _ _ _
theorem State.lnk_setLnk_ne (l k : Nat) (x : Link) (h : k ≠ l) : (s.setLnk l x).lnk k = s.lnk k := Sparse.get_put_ne _ _ _ _ _ h
@[simp] theorem State.rail_setRail_same (a : Nat) (x : Rail) : (s.setRail a x).rail a = x := Sparse.get_put_same _ _ _ _
@[simp] theorem State.byte_poke_same (a : Nat) (b : Byte) : (s.poke a b).byte a = b := Sparse.get_put_same _ _ _ _
theorem State.byte_poke_ne (a e : Nat) (b : Byte) (h : e ≠ a) : (s.poke a b).byte e = s.byte e := Sparse.get_put_ne _ _ _ _ _ h

end Sys2Proof.Machine
end

