-- ==== Sys2Proof/Laws/Registers.lean ====
section
/-!
SUPPORT. The laws of register fields: a field reads what was written to it, a write leaves fields of other bits and other registers alone.
-/

namespace Sys2Proof.Machine

theorem testBit_fieldN (v hi lo j : Nat) : (fieldN v hi lo).testBit j = (decide (j < hi - lo + 1) && v.testBit (lo + j)) := by
  rw [fieldN, Nat.testBit_mod_two_pow, Nat.testBit_div_two_pow, Nat.add_comm j lo]

theorem getLsbD_maskF (hi lo i : Nat) : (maskF hi lo).getLsbD i = (decide (i < 32) && (decide (lo ≤ i) && decide (i - lo < hi - lo + 1))) := by
  rw [maskF, BitVec.getLsbD_ofNat, Nat.testBit_mul_two_pow, Nat.testBit_two_pow_sub_one]

/-- Bit by bit, a field is replaced and the other bits stay. -/
theorem getLsbD_setF (v : W32) (hi lo x i : Nat) :
    (setF v hi lo x).getLsbD i =
      (decide (i < 32) && if lo ≤ i ∧ i - lo < hi - lo + 1 then x.testBit (i - lo) else v.getLsbD i) := by
  rw [setF, BitVec.getLsbD_or, BitVec.getLsbD_and, BitVec.getLsbD_and, BitVec.getLsbD_not, getLsbD_maskF, BitVec.getLsbD_ofNat,
    Nat.testBit_mul_two_pow]
  by_cases h : i < 32
  · by_cases h1 : lo ≤ i
    · by_cases h2 : i - lo < hi - lo + 1 <;> simp only [h, h1, h2, decide_true, decide_false, Bool.true_and, Bool.and_true, Bool.not_true,
        Bool.and_false, Bool.false_or, Bool.not_false, Bool.or_false, and_self, and_false, if_true, if_false]
    · simp only [h, h1, decide_true, decide_false, Bool.true_and, Bool.and_true, Bool.and_false, Bool.false_and,
        Bool.not_false, Bool.or_false, false_and, if_false]
  · rw [BitVec.getLsbD_of_ge v _ (Nat.le_of_not_lt h)]; simp [h]

theorem testBit_getF (v : W32) (hi lo j : Nat) : (getF v hi lo).testBit j = (decide (j < hi - lo + 1) && v.getLsbD (lo + j)) := by
  rw [getF, testBit_fieldN]; rfl

/-- A field reads what was written to it, cut to its width. -/
theorem getF_setF_same (v : W32) (hi lo x : Nat) (h : hi < 32) (h2 : lo ≤ hi) :
    getF (setF v hi lo x) hi lo = x % 2 ^ (hi - lo + 1) := by
  apply Nat.eq_of_testBit_eq
  intro j
  rw [testBit_getF, getLsbD_setF, Nat.testBit_mod_two_pow]
  by_cases hj : j < hi - lo + 1
  · have a : lo + j < 32 := by omega
    simp [hj, a]
  · simp [hj]

/-- A field of other bits keeps its value. -/
theorem getF_setF_disjoint (v : W32) (hi lo x hi2 lo2 : Nat) (h2 : lo ≤ hi) (h3 : lo2 ≤ hi2) (hd : hi < lo2 ∨ hi2 < lo) :
    getF (setF v hi lo x) hi2 lo2 = getF v hi2 lo2 := by
  apply Nat.eq_of_testBit_eq
  intro j
  rw [testBit_getF, getLsbD_setF, testBit_getF]
  by_cases hj : j < hi2 - lo2 + 1
  · have a : ¬ (lo ≤ lo2 + j ∧ lo2 + j - lo < hi - lo + 1) := by omega
    rw [if_neg a]
    by_cases hb : lo2 + j < 32
    · simp [hb]
    · simp [BitVec.getLsbD_of_ge v _ (Nat.le_of_not_lt hb), hb]
  · simp [hj]

theorem getF_lt (v : W32) (hi lo : Nat) : getF v hi lo < 2 ^ (hi - lo + 1) := Nat.mod_lt _ (Nat.two_pow_pos _)

variable (s : State)

/-- A field of a register after it was set. -/
theorem State.rf_sf_same (b : Nat) (f : Fld) (x : Nat) (h : f.hi < 32) (h2 : f.lo ≤ f.hi) :
    (s.sf b f x).rf b f = x % 2 ^ (f.hi - f.lo + 1) := by
  simp only [State.sf, State.rf, State.rd_wr_same]
  exact getF_setF_same _ _ _ _ h h2

theorem State.rf_sf_small (b : Nat) (f : Fld) (x : Nat) (h : f.hi < 32) (h2 : f.lo ≤ f.hi) (hx : x < 2 ^ (f.hi - f.lo + 1)) :
    (s.sf b f x).rf b f = x := by
  rw [State.rf_sf_same _ _ _ _ h h2, Nat.mod_eq_of_lt hx]

/-- A field of another register. -/
theorem State.rf_sf_ne (b c : Nat) (f g : Fld) (x : Nat) (h : c + g.off ≠ b + f.off) : (s.sf b f x).rf c g = s.rf c g := by
  simp only [State.sf, State.rf]
  rw [State.rd_wr_ne _ _ _ _ h]

theorem State.rd_sf_ne (b k : Nat) (f : Fld) (x : Nat) (h : k ≠ b + f.off) : (s.sf b f x).rd k = s.rd k := by
  simp only [State.sf]
  rw [State.rd_wr_ne _ _ _ _ h]

/-- A field of the same register in other bits. -/
theorem State.rf_sf_disjoint (b : Nat) (f g : Fld) (x : Nat) (ho : g.off = f.off) (h2 : f.lo ≤ f.hi) (h3 : g.lo ≤ g.hi)
    (hd : f.hi < g.lo ∨ g.hi < f.lo) : (s.sf b f x).rf b g = s.rf b g := by
  simp only [State.sf, State.rf, ho, State.rd_wr_same]
  exact getF_setF_disjoint _ _ _ _ _ _ h2 h3 hd

/-- The field of a register is a field of its stored word. -/
theorem State.rf_lt (b : Nat) (f : Fld) : s.rf b f < 2 ^ (f.hi - f.lo + 1) := getF_lt _ _ _

/-- A sticky bit that has been set (R18). -/
theorem State.bit_raise_same (b : Nat) (f : Fld) (h : f.hi < 32) (h2 : f.lo = f.hi) : (s.raise b f).bit b f = true := by
  simp only [State.bit, State.raise]
  rw [State.rf_sf_small _ _ _ _ h (by omega) (by rw [h2]; simp)]
  rfl

/-- A counting field holds at its largest value (R19). -/
theorem State.rf_bump_same (b : Nat) (f : Fld) (n : Nat) (h : f.hi < 32) (h2 : f.lo ≤ f.hi) :
    (s.bump b f n).rf b f = min (s.rf b f + n) (2 ^ (f.hi - f.lo + 1) - 1) := by
  simp only [State.bump]
  exact State.rf_sf_small _ _ _ _ h h2 (by have := Nat.two_pow_pos (f.hi - f.lo + 1); omega)

theorem State.crf_csf_same (l : Nat) (r : Bool) (ch : Nat) (f : Fld) (x : Nat) (h : f.hi < 32) (h2 : f.lo ≤ f.hi) :
    (s.csf l r ch f x).crf l r ch f = x % 2 ^ (f.hi - f.lo + 1) := by
  simp only [State.csf, State.crf, State.brd_bwr_same]
  exact getF_setF_same _ _ _ _ h h2

end Sys2Proof.Machine
end

