-- ==== Sys2Proof/Laws/Memory.lean ====
section
/-!
SUPPORT. The laws of memory: a byte that is written reads back, every other byte stays, and every operation on memory keeps its canonical form.
-/

namespace Sys2Proof.Machine

/-- What every step of a fold keeps, the fold keeps. -/
theorem foldl_keeps {α β γ : Type} (g : α → γ) (f : α → β → α) (h : ∀ a b, g (f a b) = g a) (xs : List β) (a : α) :
    g (xs.foldl f a) = g a := by
  induction xs generalizing a with
  | nil => rfl
  | cons x rest ih => rw [List.foldl_cons, ih, h]

/-- A property that every step of a fold keeps holds after it. -/
theorem foldl_prop {α β : Type} (p : α → Prop) (f : α → β → α) (h : ∀ a b, p a → p (f a b)) (xs : List β) (a : α) (ha : p a) :
    p (xs.foldl f a) := by
  induction xs generalizing a with
  | nil => exact ha
  | cons x rest ih => exact ih _ (h _ _ ha)

variable (s : State)

/-- A write of bytes: the bytes written read back, the others stay. -/
theorem State.byte_pokes (a : Nat) (bs : List Byte) (e : Nat) :
    (s.pokes a bs).byte e = if a ≤ e ∧ e < a + bs.length then bs.getD (e - a) 0 else s.byte e := by
  induction bs generalizing s a with
  | nil => simp only [State.pokes, List.length_nil, Nat.add_zero]; split <;> first | omega | rfl
  | cons b rest ih =>
    simp only [State.pokes, List.length_cons]
    rw [ih]
    by_cases h : e = a
    · subst h
      rw [if_neg (by omega), if_pos (by omega)]
      simp
    · rw [State.byte_poke_ne _ _ _ _ h]
      by_cases h2 : a + 1 ≤ e ∧ e < a + 1 + rest.length
      · rw [if_pos h2, if_pos (by omega)]
        obtain ⟨k, hk⟩ : ∃ k, e - a = k + 1 := ⟨e - a - 1, by omega⟩
        have : e - (a + 1) = k := by omega
        rw [hk, this, List.getD_cons_succ]
      · rw [if_neg h2, if_neg (by omega)]

theorem State.poke_wf (a : Nat) (b : Byte) (h : Memory.wf s.mem = true) : Memory.wf (s.poke a b).mem = true :=
  Sparse.put_wf _ _ _ _ h

theorem State.pokes_wf (a : Nat) (bs : List Byte) (h : Memory.wf s.mem = true) : Memory.wf (s.pokes a bs).mem = true := by
  induction bs generalizing s a with
  | nil => exact h
  | cons b rest ih => exact ih (s.poke a b) (a + 1) (s.poke_wf a b h)

@[simp] theorem State.markLine_mem (l : Nat) : (s.markLine l).mem = s.mem := by
  simp only [State.markLine]
  split
  · rfl
  · split <;> rfl

theorem State.poisonAfter_mem (a n : Nat) (p : Bool) : (s.poisonAfter a n p).mem = s.mem := by
  refine foldl_keeps State.mem _ (fun t l => ?_) _ _
  split
  · exact State.markLine_mem t l
  · split <;> rfl

theorem State.touchTx_mem (a n : Nat) : (s.touchTx a n).mem = s.mem := rfl

/-- Bytes stored change exactly what a write of bytes changes in memory. -/
theorem State.store_mem (a : Nat) (bs : List Byte) (p : Bool) : (s.store a bs p).mem = (s.pokes a bs).mem := by
  rw [State.store, State.touchTx_mem, State.poisonAfter_mem]

theorem State.byte_store (a : Nat) (bs : List Byte) (p : Bool) (e : Nat) :
    (s.store a bs p).byte e = if a ≤ e ∧ e < a + bs.length then bs.getD (e - a) 0 else s.byte e := by
  have : (s.store a bs p).byte e = (s.pokes a bs).byte e := by simp only [State.byte, State.store_mem]
  rw [this, State.byte_pokes]

theorem State.store_wf (a : Nat) (bs : List Byte) (p : Bool) (h : Memory.wf s.mem = true) : Memory.wf (s.store a bs p).mem = true := by
  rw [State.store_mem]; exact s.pokes_wf a bs h

theorem State.zeroRange_wf (a n : Nat) (h : Memory.wf s.mem = true) : Memory.wf (s.zeroRange a n).mem = true :=
  Sparse.filter_wf _ _ _ h

/-- Bytes programmed into the flash read back, the others stay. -/
theorem State.flashByte_flashPokes (a : Nat) (bs : List Byte) (e : Nat) :
    (s.flashPokes a bs).flashByte e = if a ≤ e ∧ e < a + bs.length then bs.getD (e - a) 0 else s.flashByte e := by
  induction bs generalizing s a with
  | nil => simp only [State.flashPokes, List.length_nil, Nat.add_zero]; split <;> first | omega | rfl
  | cons b rest ih =>
    simp only [State.flashPokes, List.length_cons]
    rw [ih]
    by_cases h : e = a
    · subst h
      rw [if_neg (by omega), if_pos (by omega)]
      exact (Sparse.get_put_same _ _ _ _).trans (by simp)
    · rw [show (s.flashPoke a b).flashByte e = s.flashByte e from Sparse.get_put_ne _ _ _ _ _ h]
      by_cases h2 : a + 1 ≤ e ∧ e < a + 1 + rest.length
      · rw [if_pos h2, if_pos (by omega)]
        obtain ⟨k, hk⟩ : ∃ k, e - a = k + 1 := ⟨e - a - 1, by omega⟩
        have : e - (a + 1) = k := by omega
        rw [hk, this, List.getD_cons_succ]
      · rw [if_neg h2, if_neg (by omega)]

theorem State.flashPokes_wf (a : Nat) (bs : List Byte) (h : Sparse.wf flashDefault s.flash = true) :
    Sparse.wf flashDefault (s.flashPokes a bs).flash = true := by
  induction bs generalizing s a with
  | nil => exact h
  | cons b rest ih => exact ih (s.flashPoke a b) (a + 1) (Sparse.put_wf _ _ _ _ h)

end Sys2Proof.Machine
end

