-- ==== Sys2Proof/Laws/Settle.lean ====
section
/-!
SUPPORT. What ends every meaning, said once: settle changes nothing but partitions and the command's poison events while no partition
outside SERVICE has met poison, and how the wrappers onDie and onPackage answer.
-/

namespace Sys2Proof.Machine

variable (s : State)

/-- No partition outside SERVICE has met poison in the running command. -/
def State.noPoisonReset (s : State) : Prop := s.pev = [] ∨ ∀ p ∈ s.parts, p.state = .service

theorem State.poisonResets_none (h : s.noPoisonReset) :
    s.parts.filter (fun p => p.state != .service && s.pev.any (fun d => p.dies.getLsbD d)) = [] := by
  rw [List.filter_eq_nil_iff]
  intro p hp
  rcases h with h | h
  · simp [h]
  · simp [h p hp]

/-- With no poison reset due, settle does what toRecovery does once a drain has left no session, and forgets the poison events. -/
theorem State.settle_eq (h : s.noPoisonReset) :
    s.settle = { (if s.pkg.drain.isSome && !s.anySession then s.toRecovery else s) with pev := [] } := by
  simp only [State.settle, s.poisonResets_none h, List.foldl_nil]

/-- With no drain in progress and no poison event, nothing remains to be settled. -/
theorem State.settle_calm (hp : s.pev = []) (hd : s.pkg.drain = none) : s.settle = s := by
  rw [s.settle_eq (.inl hp)]
  simp [hd, ← hp]

theorem onDie_on (d : Nat) (f : State → State) (h : s.dieOn d = true) : onDie d s f = .next (f s).settle := by
  simp only [onDie, h, if_true]

theorem onDie_off (d : Nat) (f : State → State) (h : s.dieOn d = false) : onDie d s f = .next s.settle := by
  simp [onDie, h]

theorem onPackage_on (f : State → State) (h : s.on = true) : onPackage s f = .next (f s).settle := by
  simp only [onPackage, h, if_true]

theorem onPackage_off (f : State → State) (h : s.on = false) : onPackage s f = .next s.settle := by
  simp [onPackage, h]

/-- Entering RECOVERY leaves no partition in SERVICE or TEST. -/
theorem State.toRecovery_parts : ∀ p ∈ s.toRecovery.parts, p.state ≠ .service ∧ p.state ≠ .test := by
  simp only [State.toRecovery]
  split
  · intro p hp
    simp only [List.mem_map] at hp
    obtain ⟨q, _, rfl⟩ := hp
    split
    · simp
    · rename_i hq
      simpa using hq
  · rename_i h
    intro p hp
    simp only [List.any_eq_true, not_exists, not_and, Bool.not_eq_true, Bool.or_eq_false_iff, beq_eq_false_iff_ne] at h
    exact h p hp

/-- A settled state holds no poison event. -/
theorem State.settle_pev : s.settle.pev = [] := rfl

/-- After a drain, no partition stays in SERVICE or TEST without a session. -/
theorem State.settle_recovered (h : s.noPoisonReset) (hd : s.pkg.drain.isSome = true) (ha : s.anySession = false) :
    ∀ p ∈ s.settle.parts, p.state ≠ .service ∧ p.state ≠ .test := by
  rw [s.settle_eq h, hd, ha]
  exact s.toRecovery_parts

end Sys2Proof.Machine
end

