-- ==== Sys2Proof/Machine/Jtag.lean ====
section
/-!
DEFINITION. Boundary scan (R559): the chain of 25 TAPs of IEEE 1149.1, die 0 nearest TDI, with BYPASS, IDCODE, SAMPLE/PRELOAD and EXTEST. No row of
the opcode table clocks TCK, so no command does; one period of TCK is State.jtagClock (notes/assumptions/75.md).
-/

namespace Sys2Proof.Machine

/-! ### The controller -/

/-- The state after a rising edge of TCK with a level of TMS, by IEEE 1149.1. -/
def nextTap : TapState → Bool → TapState
  | .testLogicReset, tms => if tms then .testLogicReset else .runTestIdle
  | .runTestIdle, tms => if tms then .selectDr else .runTestIdle
  | .selectDr, tms => if tms then .selectIr else .captureDr
  | .captureDr, tms => if tms then .exit1Dr else .shiftDr
  | .shiftDr, tms => if tms then .exit1Dr else .shiftDr
  | .exit1Dr, tms => if tms then .updateDr else .pauseDr
  | .pauseDr, tms => if tms then .exit2Dr else .pauseDr
  | .exit2Dr, tms => if tms then .updateDr else .shiftDr
  | .updateDr, tms => if tms then .selectDr else .runTestIdle
  | .selectIr, tms => if tms then .testLogicReset else .captureIr
  | .captureIr, tms => if tms then .exit1Ir else .shiftIr
  | .shiftIr, tms => if tms then .exit1Ir else .shiftIr
  | .exit1Ir, tms => if tms then .updateIr else .pauseIr
  | .pauseIr, tms => if tms then .exit2Ir else .pauseIr
  | .exit2Ir, tms => if tms then .updateIr else .shiftIr
  | .updateIr, tms => if tms then .selectDr else .runTestIdle

/-! ### Lands and registers -/

/-- IDCODE (R559). -/
def idcode : W32 := if Config.steppingS2 then 0x2C25_05D3 else 0x1C25_05D3

/-- RESET_N is high. -/
def State.resetHigh (s : State) : Bool := s.pkg.powered && !s.pkg.resetLow

/-- The level of a low-speed land in service, numbered from 0 in the order of R560: RESET_N, PRESENT_N, READY, FAULT_N, DRAINED_N, THERMTRIP_N;
the level of any other is the board's or a protocol's. -/
def State.landLevel (s : State) (land : Nat) : Bool :=
  match land with
  | 0 => s.resetHigh
  | 1 => false
  | 2 => s.pkg.ready
  | 3 => s.pkg.faultN
  | 4 => s.pkg.drainedN
  | 5 => s.pkg.thermtripN
  | _ => (Config.freeValue s.fresh).getLsbD (land % 64)

/-- The TAP of a die. -/
def State.testPort (s : State) (d : Nat) : TestPort := Sparse.get (fun _ => {}) s.jtag.taps d

/-- The TAP of a die changed. -/
def State.setTap (s : State) (d : Nat) (x : TestPort) : State :=
  { s with jtag := { s.jtag with taps := Sparse.put (fun _ => {}) s.jtag.taps d x } }

/-- The data register of a die that its instruction connects, as Capture-DR loads it; the bit nearest TDO is first. -/
def State.captureDr (s : State) (d : Nat) : List Bool :=
  match (s.testPort d).instr with
  | .bypass => [false]
  | .idcode => (List.range 32).map (fun i => idcode.getLsbD i)
  | .samplePreload => (Config.boundaryLands d).map s.landLevel
  | .extest => (Config.boundaryLands d).map s.landLevel

/-- EXTEST loaded while RESET_N is high acts as BYPASS (R559). -/
def State.loadInstr (s : State) (d : Nat) : State :=
  let x := s.testPort d
  let i := match Config.tapCode x.shift with | 1 => .idcode | 2 => .samplePreload | 3 => if s.resetHigh then .bypass else .extest | _ => TapInstr.bypass
  s.setTap d { x with instr := i }

/-- Update-DR: the boundary register takes what has been shifted in. -/
def State.loadBoundary (s : State) (d : Nat) : State :=
  let x := s.testPort d
  match x.instr with
  | .samplePreload => s.setTap d { x with boundary := x.data }
  | .extest => s.setTap d { x with boundary := x.data }
  | .idcode => s
  | .bypass => s

/-- The level that the board sees on a land: what a TAP in EXTEST drives, else the level in service. -/
def State.landOut (s : State) (land : Nat) : Bool :=
  match (List.range 25).findSome? (fun d =>
    if (s.testPort d).instr = .extest then
      (((Config.boundaryLands d).zip (s.testPort d).boundary).find? (fun c => c.1 == land)).map (·.2)
    else none) with
  | some b => b
  | none => s.landLevel land

/-! ### One period of TCK -/

/-- A bit goes into a data register, whose bit nearest TDO comes out. -/
def shiftBit (r : List Bool) (b : Bool) : List Bool × Bool :=
  match r with
  | [] => ([], b)
  | x :: rest => (rest ++ [b], x)

/-- One die's part of a shift: the bit that comes from the die before it, and the one that goes to the next. -/
def State.shiftDie (ir : Bool) (a : State × Bool) (d : Nat) : State × Bool :=
  let x := a.1.testPort d
  if ir then (a.1.setTap d { x with shift := (x.shift >>> 1) ||| (if a.2 then 0x80 else 0) }, x.shift.getLsbD 0)
  else
    let r := shiftBit x.data a.2
    (a.1.setTap d { x with data := r.1 }, r.2)

/-- A rising edge of TCK: what the controller's state does on every die, then the next state; TDO while it shifts. TRST_N low, or Test-Logic-Reset,
leaves IDCODE in every TAP. -/
def State.jtagClock (s : State) (trstN tms tdi : Bool) : State × Option Bool :=
  let dies := List.range 25
  let each := fun (s : State) (f : State → Nat → State) => dies.foldl f s
  if !trstN then ({ s with jtag := {} }, none)
  else
    let r : State × Option Bool :=
      match s.jtag.state with
      | .testLogicReset => ({ s with jtag := { s.jtag with taps := [] } }, none)
      | .captureDr => (each s (fun s d => s.setTap d { s.testPort d with data := s.captureDr d }), none)
      | .captureIr => (each s (fun s d => s.setTap d { s.testPort d with shift := 0x01 }), none)
      | .shiftDr => let r := dies.foldl (State.shiftDie false) (s, tdi); (r.1, some r.2)
      | .shiftIr => let r := dies.foldl (State.shiftDie true) (s, tdi); (r.1, some r.2)
      | .updateDr => (each s State.loadBoundary, none)
      | .updateIr => (each s State.loadInstr, none)
      | .runTestIdle | .selectDr | .exit1Dr | .pauseDr | .exit2Dr | .selectIr | .exit1Ir | .pauseIr | .exit2Ir => (s, none)
    ({ r.1 with jtag := { r.1.jtag with state := nextTap s.jtag.state tms } }, r.2)

end Sys2Proof.Machine
end

