-- ==== Sys2Proof/WellFormed.lean ====
section
/-!
DEFINITION. What a command must satisfy that its type does not say: the lengths that flits, lines, packets and reports have, and lists in which no
unit stands twice. The meanings do not ask for it; a sender of commands keeps it.
-/

namespace Sys2Proof

/-- Does no number stand twice in a list? -/
def distinct : List Nat → Bool
  | [] => true
  | x :: rest => !rest.contains x && distinct rest

/-- A range of 1 to 1,024 bytes within one aligned block of 1,024 bytes, below the end of the 52-bit address space (R376, R394). -/
def inBlock (addr len : Nat) : Bool :=
  decide (1 ≤ len) && addr / 1024 == (addr + len - 1) / 1024 && decide (addr + len ≤ 0x10_0000_0000_0000)

/-- The width of a CXL link in lanes: down, 8 or 16 (R372). -/
def goodWidth (w : Nat) : Bool := w == 0 || w == 8 || w == 16

/-- Is a command well formed? -/
def Instr.wf : Instr → Bool
  | .nop _ => true
  | .endList _ => true
  | .step _ => true
  | .mmInt _ => true
  | .mmLut _ => true
  | .mmFloat _ => true
  | .tbuild _ => true
  | .fnload _ => true
  | .convInt _ => true
  | .convLut _ => true
  | .convFloat _ => true
  | .pool _ => true
  | .resample _ => true
  | .requant _ => true
  | .ewInt _ => true
  | .ewFloat _ => true
  | .ffn _ => true
  | .softmax _ => true
  | .norm _ => true
  | .lquant _ => true
  | .lrecon _ => true
  | .lstat _ => true
  | .cdf _ => true
  | .feedpack _ => true
  | .rng _ => true
  | .sem _ => true
  | .efeed _ => true
  | .eres _ => true
  | .fetchArm _ => true
  | .instructionComplete _ _ _ => true
  | .semWaitSatisfied _ => true
  | .semPostArrive _ => true
  | .waitTimeout _ => true
  | .exeStart _ => true
  | .halt _ => true
  | .pauseReq _ => true
  | .exeResume _ => true
  | .islandEnWrite _ _ _ => true
  | .exeConfigWrite _ _ _ => true
  | .storeScrub _ _ _ => true
  | .arm _ => true
  | .fetQAbort _ _ => true
  | .fetDescWrite _ _ _ => true
  | .fetCtrlEnable _ _ => true
  | .deliveryRowStart _ _ => true
  | .fetchRequestIssue _ _ => true
  | .fetchRequestReturn _ _ _ _ => true
  | .semValWrite _ _ _ => true
  | .semPost _ _ _ => true
  | .latent _ _ => true
  | .latentCdf _ _ => true
  | .side _ _ => true
  | .segmentStart _ => true
  | .segmentEnd _ => true
  | .entResultWrite _ => true
  | .entChAbort _ => true
  | .entChEnable _ => true
  | .laneContextWrite _ _ _ _ => true
  | .sideTableWrite _ _ _ _ _ => true
  | .streamUnit _ => true
  | .pictureUnit _ => true
  | .sliceUnit _ => true
  | .closeUnit _ => true
  | .droppedPictureUnit _ => true
  | .crcError _ => true
  | .unknownUnit _ => true
  | .sliceEmit _ _ _ latents => latents.all (fun l => l.code != 0x80)
  | .closeUnitEmit _ => true
  | .createQueue _ => true
  | .deleteQueue _ => true
  | .test _ => true
  | .openSession _ => true
  | .closeSession _ => true
  | .submit _ => true
  | .withdraw _ => true
  | .refresh _ => true
  | .pause _ => true
  | .resume _ => true
  | .query _ => true
  | .bell _ => true
  | .fwcSqTailWrite _ _ => true
  | .fwcCqHeadWrite _ _ => true
  | .jobDispatch _ => true
  | .bellRing _ => true
  | .loadUpdate _ busy active used most => decide (busy ≤ active) && decide (used ≤ most)
  | .duplicateCompare _ _ _ => true
  | .voteDecide _ _ _ _ result => result.flatten.all (fun p => decide (p.1 < 0x10_0000_0000_0000))
  | .drainNow _ => true
  | .clearRecord _ => true
  | .drainRecordWrite => true
  | .cardArchive _ => true
  | .weightDigestCheck _ _ _ => true
  | .examStart _ => true
  | .examComplete _ _ => true
  | .hltLibGo => true
  | .libInstallComplete _ => true
  | .fwcBootGo => true
  | .procReady _ _ => true
  | .dieTimeout _ => true
  | .procFail _ _ => true
  | .watchdog _ _ _ => true
  | .protection _ _ _ _ => true
  | .memoryUe _ _ _ => true
  | .illegal _ _ _ => true
  | .restart _ _ _ => true
  | .procRestartDone _ _ => true
  | .fwcActGo => true
  | .fwcActAbort => true
  | .actCommit => true
  | .emergencyTimeout => true
  | .actConfirm => true
  | .packageReset => true
  | .resetNRise => true
  | .fwcPkgReset _ => true
  | .startupHardwareDone _ => true
  | .linkTrainingDone found => distinct (found.map (fun t => t.link.val))
  | .librarySelect => true
  | .startupExamsDone _ => true
  | .gddr7TrainingDone gddr cxl => distinct (gddr.map (fun t => t.die.val)) && distinct (cxl.map (fun t => t.port.val)) && cxl.all (fun t => goodWidth t.width && decide (t.gib ≤ 1024))
  | .chartBuild => true
  | .fwcAdminEnable => true
  | .fwcPartReset => true
  | .partitionReady _ => true
  | .serviceFaultReport _ _ => true
  | .faultResponse _ _ => true
  | .faultGiveUp _ _ => true
  | .faultLimitExpiry _ _ => true
  | .memFaultHeadWrite _ _ => true
  | .memInvGo _ => true
  | .invalidationComplete _ => true
  | .sramApertureWrite _ _ addr data => inBlock addr data.length
  | .gddr7Refresh _ _ _ patrol => patrol.all (fun p => decide (p.1 < 0x800_0000))
  | .cxlLinkDown _ => true
  | .cxlRetrainDone _ width => goodWidth width
  | .flitReceive _ flit => flit.length == 256
  | .readReq _ addr len => inBlock addr len
  | .readData _ addr data poison _ => inBlock addr data.length && addr % 64 == 0 && data.length % 64 == 0 && poison.length == data.length / 64
  | .write _ addr data _ => inBlock addr data.length
  | .msg _ _ _ _ _ => true
  | .ack _ _ _ => true
  | .chan _ _ line => line.length == 64
  | .mgmt _ _ => true
  | .chanLineSend _ _ => true
  | .linkSilenceTimeout _ => true
  | .laneLockLoss _ => true
  | .linkTrainDone _ => true
  | .retrain _ => true
  | .hostRouteTimeout _ => true
  | .usingSecondaryClear _ => true
  | .lnkChEnable _ => true
  | .lnkChAbort _ => true
  | .lnkHoldExpiry _ => true
  | .pmbusPoll readings => distinct (readings.map (fun r => r.address.toNat)) && readings.all (fun r => decide (0x40 ≤ r.address.toNat))
  | .pmbAlert _ _ => true
  | .refclkLost _ => true
  | .limiterPeriod dies _ _ => dies.length == 25
  | .capCeilingStep _ => true
  | .capFallback _ => true
  | .thermalCeilingStep _ sensors => sensors.length == 9
  | .thermalTrip _ => true
  | .thermtripN _ => true
  | .pwrFreqReqWrite _ _ => true
  | .pwrVregWrite _ _ => true
  | .alStateRequest _ _ => true
  | .sdoUpload _ _ => true
  | .sdoDownload _ _ _ => true
  | .sdoInformation _ => true
  | .sdoSegmentTimeout => true
  | .ectFrame _ _ _ _ => true
  | .mirrorRefresh => true
  | .login _ => true
  | .logout => true
  | .loginIdleTimeout => true
  | .lockExpiry => true
  | .txpdoMappingWrite _ _ => true
  | .testAction _ => true
  | .odRefresh _ => true
  | .stop _ => true
  | .clearDrainRecord _ => true
  | .odDrainNow _ => true
  | .libStage _ _ _ => true
  | .libInstall => true
  | .ectKeyCommit => true
  | .ectKeyClear => true
  | .secAttGo => true
  | .attSignDone _ _ => true
  | .secRevGo => true
  | .registerReadClear _ _ => true
  | .registerWrite _ _ _ _ => true
  | .vddAuxRemoved => true
  | .packageResetRelease => true
  | .revocationComplete blown => decide (blown ≤ 3)
  | .portLinkChange _ _ => true
  | .rngHealthFail _ => true
  | .secRngRefill _ => true

end Sys2Proof
end

