-- ==== Sys2Proof/Tests/Slice0.lean ====
section
/-!
SUPPORT. Tests of the model on small states: ill-formed commands, worked examples of the manual, and for each statement a state and operands that
meet its hypotheses.
-/

namespace Sys2Proof.Tests

-- one theorem after the other: many at once would each take a thread
set_option Elab.async false

open Machine Claims

/-! ### States -/

/-- The package in service with no session: one partition of all dies. -/
def base : State := { State.reset with parts := [{ dies := BitVec.allOnes 25, state := .service }] }

/-- Cluster 0.0.0, and link 0 of die 0. -/
def c0 : ClusterId := { die := 0, region := 0, slot := 0 }

/-- An instruction from its opcode and the rest of its fields. -/
def word (op rest : Nat) : Nat := op * 2 ^ 119 + rest

/-- Engine 0.0.0 runs for session 1, with w as its next instruction, its record at offset 64 and a second record at offset 128. -/
def runningAt (c : ClusterId) (w : Nat) : State :=
  (((((base.sf c.base F.exeStatusState Ex.running).sf c.base F.clsCtrlIslandEn 1).sf c.base F.exeListLen 4).sf c.base F.exeListSize 4).sf c.base F.exeSession 1).pokes
    c.store (natLe 16 w)
def running (w : Nat) : State := runningAt c0 w

/-- The state in which the next instruction is issued, its tile-step begun, and the state as the instruction's work begins. -/
def issueAt (c : ClusterId) (s : State) : State := ((s.beginTile c).passLine c).getD s
def workAt (c : ClusterId) (s : State) : State := (((issueAt c s).passOwn c).getD s)
def atIssue (s : State) : State := issueAt c0 s
def atWork (s : State) : State := workAt c0 s

/-- The word's fields REC = 1 (offset 64), UNITS = 1 and NARROW = 1. -/
def rec1 : Nat := 2 ^ 67 + 2 ^ 42 + 2 ^ 50

/-! Witnesses over tables, and over a region that is not fused: which one that is, is no value of the model. -/

theorem get_of_all {α : Type} (d : Nat → α) (P : α → Prop) (hd : ∀ i, P (d i)) :
    ∀ t : Sparse α, (∀ e ∈ t, P e.2) → ∀ i, P (Sparse.get d t i) := by
  intro t
  induction t with
  | nil => exact fun _ i => hd i
  | cons e rest ih =>
    intro h i
    obtain ⟨k, v⟩ := e
    unfold Sparse.get
    split
    · exact ih (fun x hx => h x (List.mem_cons_of_mem _ hx)) i
    · split
      · exact h (k, v) List.mem_cons_self
      · exact hd i

theorem unloaded_of (s : State) (h : ∀ e ∈ s.links, e.2.waiting = []) : Unloaded s :=
  get_of_all (fun _ => ({} : Link)) (fun x : Link => x.waiting = []) (fun _ => rfl) s.links h
theorem unpaused_of (s : State) (h : ∀ e ∈ s.sessions, e.2.pauseTo = none) (n : Nat) : (s.ses n).pauseTo = none :=
  get_of_all (fun _ => ({} : Session)) (fun x : Session => x.pauseTo = none) (fun _ => rfl) s.sessions h n

/-- Cluster 0 of a region of die 0. -/
def idleIn (r : Fin 8) : ClusterId := { die := 0, region := r, slot := 0 }

/-- Regions 0 and 1 of a die are not both fused. -/
theorem live_region (P : ClusterId → Prop) (h : ∀ r : Fin 8, r = 0 ∨ r = 1 → fused (idleIn r).die (idleIn r).region = false → P (idleIn r)) :
    ∃ c : ClusterId, fused c.die c.region = false ∧ P c := by
  by_cases e : fused (idleIn 0).die (idleIn 0).region = false
  · exact ⟨idleIn 0, e, h 0 (.inl rfl) e⟩
  · have e : fusedRegion 0 = some 0 := by simpa [fused, idleIn] using e
    have f : fused (idleIn 1).die (idleIn 1).region = false := by simp [fused, idleIn, e]
    exact ⟨idleIn 1, f, h 1 (.inr rfl) f⟩

theorem fetchOn_of (s : State) (c : ClusterId) (h : fused c.die c.region = false) (b : s.bit c.base F.fetCtrlEnable = true) : s.fetchOn c = true := by
  simp [State.fetchOn, h, b]

/-! ### Ill-formed commands -/

theorem test_wf_flit : (Instr.flitReceive 0 [0]).wf = false ∧ (Instr.flitReceive 0 (List.replicate 256 0)).wf = true := by decide +kernel
theorem test_wf_block : (Instr.readReq 0 1000 25).wf = false ∧ (Instr.readReq 0 1000 24).wf = true ∧ (Instr.write 0 0 [] false).wf = false ∧
    (Instr.sramApertureWrite .host 0 1023 [0, 0]).wf = false := by decide +kernel
theorem test_wf_data : (Instr.readData 0 32 (List.replicate 64 0) [false] false).wf = false ∧
    (Instr.readData 0 64 (List.replicate 64 0) [] false).wf = false ∧ (Instr.readData 0 64 (List.replicate 64 0) [false] false).wf = true := by
  decide +kernel
theorem test_wf_line : (Instr.chan 0 0 []).wf = false ∧ (Instr.chan 0 0 (List.replicate 64 0)).wf = true := by decide +kernel
theorem test_wf_power : (Instr.limiterPeriod [0] 0 0).wf = false ∧ (Instr.thermalCeilingStep 0 [0]).wf = false := by decide +kernel
theorem test_wf_rails : (Instr.pmbusPoll [⟨0x40, none, false⟩, ⟨0x40, none, true⟩]).wf = false ∧
    (Instr.pmbusPoll [⟨0x3F, none, false⟩]).wf = false ∧ (Instr.pmbusPoll [⟨0x40, none, false⟩]).wf = true := by decide +kernel
theorem test_wf_load : (Instr.loadUpdate 0 2 1 0 0).wf = false ∧ (Instr.loadUpdate 0 0 0 3 2).wf = false := by decide +kernel
theorem test_wf_patrol : (Instr.gddr7Refresh 0 0 0 (some (0x800_0000, .clean))).wf = false := by decide +kernel
theorem test_wf_training : (Instr.linkTrainingDone [⟨1, true, true, .none, 0⟩, ⟨1, true, true, .none, 0⟩]).wf = false ∧
    (Instr.gddr7TrainingDone [⟨0, 1, 1⟩, ⟨0, 1, 1⟩] []).wf = false ∧ (Instr.gddr7TrainingDone [] [⟨0, 4, 1⟩]).wf = false ∧
    (Instr.gddr7TrainingDone [] [⟨0, 8, 1025⟩]).wf = false ∧ (Instr.cxlRetrainDone 0 9).wf = false := by decide +kernel
theorem test_wf_vote : (Instr.voteDecide c0 0 .none .none [[(2 ^ 52, 0)]]).wf = false := by decide +kernel
theorem test_wf_blown : (Instr.revocationComplete 4).wf = false ∧ (Instr.revocationComplete 3).wf = true := by decide +kernel

/-! ### Worked examples of the manual -/


/-- The MM_LUT of the example of R214. -/
theorem test_word_r214 : let w := 0x1090_0004_B3E0_0D00_686F_FC00_0000_0000
    iOp w = 0x21 ∧ iV w = false ∧ iFence w = false ∧ iWaitEn w = false ∧ iPostEn w = true ∧ iPostSem w = 300 ∧ iPostDie w = 31 ∧
    iRec w = 0x6800 ∧ iQpb w = 0x6840 ∧ iQpbEn w = true ∧ iAccInit w = 1 ∧ iNarrow w = true ∧ iUnits w = 0xFF ∧
    badInstruction w = false ∧ natLe 16 w = [0, 0, 0, 0, 0, 0xFC, 0x6F, 0x68, 0, 0x0D, 0xE0, 0xB3, 4, 0, 0x90, 0x10] := by decide +kernel

/-- The codes of the example of R70, with the clamp, and the ties of S = 254. -/
theorem test_quantise : quantise 5000 4000 = (127, true) ∧ quantise 1234 4000 = (39, false) ∧ reconstruct 39 4000 = 1228 ∧
    quantise 1 254 = (1, false) ∧ quantise (-1) 254 = (-1, false) := by decide +kernel

/-- The scales of the example of R70: history of picture 1 gives 5,000, and its maximum of 117 gives 4,606. -/
theorem test_scales : reconstruct 117 5000 = 4606 ∧ reconstruct 69 5758 = 3128 ∧ reconstruct 64 5758 = 2902 ∧
    reconstruct 55 5758 = 2494 := by decide +kernel

/-- The four symbols of the example of R92: their CDF values. -/
theorem test_cdf : latentCdf 40 24 129 = 22285 ∧ latentCdf 40 24 130 = 32770 ∧ latentCdf (-8) 16 130 = 62315 ∧
    latentCdf (-8) 16 131 = 64237 ∧ latentCdf 0 8 127 = 17683 ∧ latentCdf 0 8 128 = 47852 ∧ latentCdf 0 8 122 = 122 ∧
    latentCdf 0 8 123 = 123 := by decide +kernel

/-- The lane of that example, encoded and flushed. -/
def exampleLane : Lane × List Byte :=
  let a := ({} : Lane).encode 22285 10485
  let b := a.1.encode 62315 1922
  let c := b.1.encode 17683 30169
  let d := c.1.encode 122 1
  let e := d.1.flush
  (d.1, trimZeros (a.2 ++ b.2 ++ c.2 ++ d.2 ++ e.2))

theorem test_encode : exampleLane.2 = [0x7E, 0x50, 0x7C, 0x11, 0x8E] ∧ exampleLane.1.low = 0x118E_0000 ∧
    exampleLane.1.range = 2371026944 ∧ exampleLane.1.cache = 0x7C := by decide +kernel

/-- The first symbol of that example decoded: k = 129 and code 658,756,382. -/
theorem test_decode : let x := ({} : Lane).startDecode (fun i => [0x7E, 0x50, 0x7C, 0x11, 0x8E].getD i 0)
    let d := x.decode (fun i => [0x7E, 0x50, 0x7C, 0x11, 0x8E].getD i 0) (latentCdf 40 24) 255
    x.low = 2119203857 ∧ d.2.1 = 129 ∧ d.2.2 = false ∧ d.1.low = 658756382 := by decide +kernel

/-- The check value that R110 gives for the CRC of a unit. -/
theorem test_crc32 : crc32 [0x31, 0x32, 0x33, 0x34, 0x35, 0x36, 0x37, 0x38, 0x39] = 0xCBF4_3926 := by decide +kernel

/-- cost16 of the examples of R129. -/
theorem test_cost : cost16 1 = 256 ∧ cost16 32768 = 16 ∧ cost16 49152 = 7 ∧ cost16 65000 = 1 := by decide +kernel

/-- The budget of the picture that caps out (R129). -/
theorem test_budget : budgetOf { capPic := 1200000, capPer := 20000000 } 19100000 = 14400000 := by decide +kernel

/-- The dot product of the example of R150, from its two passes. -/
theorem test_dot : (accumulate 1000 (cellTerms 2 1 0 [-12345, 20000] [93, -6])).1 = -1267085 ∧
    containerOf 5 (-1267085) = [0x73, 0xAA, 0xEC, 0xFF, 0xFF, 0xFF, 0xFF, 0xFF] := by decide +kernel

/-- The split of the FP32 activation of the example of R164, and the tie that rounds away from zero. -/
theorem test_float : (accumulateF 0 (floatTerms 8 6 [0x3F80_2013] [0x4040])).1 = 0x4040_301D := by decide +kernel

/-- The table, the resolve and the requantisation of the example of R189, with its three channels. -/
def exampleBlock : Qpb := { outFmt := 0, lo := -128, hi := 127, zpOut := 5 }
theorem test_requantise : (requantise exampleBlock (20 + 8 * 2 ^ 16) [] [] 1422) = (116, false) ∧
    (requantise exampleBlock (32 + 8 * 2 ^ 16) [] [] (-932)) = (-112, false) ∧
    (requantise exampleBlock (300 + 8 * 2 ^ 16) [] [] 1422) = (127, true) := by decide +kernel
theorem test_lookup : (accumulate 1000 (cellTerms 1 1 2 [72, -111, 0, 127] [3, -3, 1, -1])).1 = 1422 ∧
    (accumulate (-2) (cellTerms 1 1 2 [72, -111, 0, 127] [-3, 3, -1, -3])).1 = -932 := by decide +kernel

/-- The first round of the generator's example (R305). -/
theorem test_round : permRound 0 1 0 { x0 := 0, x1 := 0, x2 := 0, x3 := 0 } =
    { x0 := 0x2441_4082, x1 := 0x4102_2020, x2 := 0x4102_0020, x3 := 0x0010_0081 } := by decide +kernel

/-- The size and the mapped coordinates of the dilated window of R241's example. -/
theorem test_window : padIndex false (-35) 32 = 27 ∧ padIndex false 45 32 = 17 ∧ padIndex false (-33) 32 = 29 ∧
    padIndex false 47 32 = 15 ∧ padIndex true (-35) 32 = 0 ∧ padIndex true 45 32 = 31 ∧ rshift (99 * 16) 5 = 50 ∧
    rshift (109 * 16) 5 = 55 := by decide +kernel

/-- The index of each level and the address that the walk of R379's example gives. -/
theorem test_walk_index : walkIndex 1 0x40_0001_0200 = 0 ∧ walkIndex 2 0x40_0001_0200 = 256 ∧ walkIndex 3 0x40_0001_0200 = 0 ∧
    walkIndex 4 0x40_0001_0200 = 1 ∧ fieldN 0xC_1A30_0007 51 8 * 256 + 0x40_0001_0200 % 2 ^ 16 = 0xC_1A30_0200 := by decide +kernel

/-- The region word of the example of R473. -/
theorem test_region : buildRegion [9] = (0x009A_0000_1800_0000, false) := by decide +kernel

/-- The caps of the limiter's example (R516), in 1/8 W. -/
theorem test_caps : dieCap (56 * 8) (80 * 8) (804 * 8) = 419 ∧ dieCap (48 * 8) (80 * 8) (804 * 8) = 361 := by decide +kernel

/-! ### Instructions -/

/-- The state with bytes at an offset of the store of cluster 0.0.0. -/
def put (s : State) (off : Nat) (b : List Byte) : State := s.pokes (c0.store + off) b

/-- Engine 0.0.0 before an instruction whose record at offset 64 is r, after other bytes were placed. -/
def before (op rest : Nat) (r : List Byte) : State := put (running (word op (rec1 + rest))) 64 r

/-- A finish record: source, destination, count and format. -/
def finRec (src dst count fmt : Nat) : List Byte :=
  natLe 4 src ++ natLe 4 0 ++ natLe 4 dst ++ natLe 12 0 ++ natLe 2 count ++ natLe 8 0 ++ natLe 1 fmt ++ natLe 29 0

/-- A matrix record of one row, one channel and two elements. -/
def matRec (a b out : Nat) : List Byte :=
  natLe 4 128 ++ natLe 4 192 ++ natLe 4 256 ++ natLe 4 64 ++ natLe 4 64 ++ natLe 4 64 ++ natLe 2 1 ++ natLe 2 1 ++ natLe 4 2 ++
  natLe 1 a ++ natLe 1 b ++ natLe 1 out ++ natLe 29 0

/-- A window record of one element: 1 × 1 × 1 in, one channel out, a 1 × 1 window. -/
def winRec (a b out : Nat) (op : Nat) : List Byte :=
  natLe 4 128 ++ natLe 4 192 ++ natLe 4 256 ++ natLe 4 64 ++ natLe 4 64 ++ natLe 4 0 ++ natLe 2 1 ++ natLe 2 1 ++ natLe 2 1 ++ natLe 2 1 ++
  natLe 8 0 ++ natLe 1 0x11 ++ natLe 1 0x11 ++ natLe 1 1 ++ natLe 1 1 ++ natLe 4 0 ++ natLe 1 0 ++ natLe 1 op ++ natLe 1 a ++ natLe 1 b ++
  natLe 1 out ++ natLe 1 0 ++ natLe 2 0 ++ natLe 2 0 ++ natLe 2 1 ++ natLe 4 0

/-- The record of an EFEED or ERES: 16 slots, or a ring of 64 entries. -/
def feedRec (size : Nat) : List Byte := natLe 2 0 ++ natLe 2 size ++ natLe 60 0

/-- The engine of cluster 0.0.0 issues a computing instruction whose work is clean. -/
def Ready (i : Instr) (op : Nat) (work : Work) (s : State) : Prop :=
  computes i = some (c0, op, work) ∧ Issues s (atIssue s) (atWork s) c0 op ∧ CleanRun c0 (work c0 (nextWord (atIssue s) c0) (atWork s))

/-- Session 1 is an encoder whose scales start at 4,000. -/
def scaled (s : State) : State := s.setSes 1 { kind := .encode, enc := { params := { sInit := 4000 } } }

/-- The lookup instruction stands behind the TBUILD of its pair, which has filled a half of cluster 0.0.0's lookup buffer. -/
def built (s : State) : State :=
  let s := put s 16 (s.bytes c0.store 16)
  s.setCl c0 { s.cl c0 with issue := 1, tables := [{ index := 0, word := BitVec.ofNat 128 (word 0x40 rec1), cells := s.storeBytes c0 }] }

/-! For each instruction that computes, a state in which it is issued and its work is clean. -/

theorem test_hyp_mm_int : Ready (.mmInt c0) 0x20 (workMat .int) (put (put (before 0x20 0 (matRec 0 0 0)) 128 [3, 4]) 192 [5, 6]) := by
  unfold Ready Issues InService CleanRun; exact ⟨rfl, by decide +kernel, by decide +kernel⟩
theorem test_hyp_mm_lut : Ready (.mmLut c0) 0x21 (workMat .lut) (built (put (put (before 0x21 0 (matRec 0 0xA 0)) 128 [3, 4]) 192 [5, 6])) := by
  unfold Ready Issues InService CleanRun; exact ⟨rfl, by decide +kernel, by decide +kernel⟩
theorem test_hyp_mm_float : Ready (.mmFloat c0) 0x22 (workMat .float) (put (put (before 0x22 0 (matRec 6 6 8)) 128 [0x80, 0x3F, 0x80, 0x3F]) 192 [0x80, 0x3F, 0x80, 0x3F]) := by
  unfold Ready Issues InService CleanRun; exact ⟨rfl, by decide +kernel, by decide +kernel⟩
theorem test_hyp_tbuild : Ready (.tbuild c0) 0x40 workBuild (before 0x40 0 (matRec 0 0xA 0)) := by
  unfold Ready Issues InService CleanRun; exact ⟨rfl, by decide +kernel, by decide +kernel⟩
theorem test_hyp_fnload : Ready (.fnload c0) 0x41 workFnload (before 0x41 0 (finRec 128 0 2 0)) := by
  unfold Ready Issues InService CleanRun; exact ⟨rfl, by decide +kernel, by decide +kernel⟩
theorem test_hyp_conv_int : Ready (.convInt c0) 0x60 (fun c w s => s.winRun c w .int) (put (put (before 0x60 0 (winRec 0 0 0 0)) 128 [3]) 192 [5]) := by
  unfold Ready Issues InService CleanRun; exact ⟨rfl, by decide +kernel, by decide +kernel⟩
theorem test_hyp_conv_lut : Ready (.convLut c0) 0x61 (fun c w s => s.winRun c w .lut) (built (put (put (before 0x61 0 (winRec 0 0xA 0 0)) 128 [3]) 192 [5])) := by
  unfold Ready Issues InService CleanRun; exact ⟨rfl, by decide +kernel, by decide +kernel⟩
theorem test_hyp_conv_float : Ready (.convFloat c0) 0x62 (fun c w s => s.winRun c w .float) (put (put (before 0x62 0 (winRec 6 6 8 0)) 128 [0x80, 0x3F]) 192 [0x80, 0x3F]) := by
  unfold Ready Issues InService CleanRun; exact ⟨rfl, by decide +kernel, by decide +kernel⟩
theorem test_hyp_pool : Ready (.pool c0) 0x63 (fun c w s => s.winRun c w .pool) (put (running (word 0x63 (2 ^ 67 + 2 ^ 42))) 64 (winRec 0 0 0 0)) := by
  unfold Ready Issues InService CleanRun; exact ⟨rfl, by decide +kernel, by decide +kernel⟩
theorem test_hyp_resample : Ready (.resample c0) 0x64 (fun c w s => s.winRun c w .resample) (put (running (word 0x64 (2 ^ 67 + 2 ^ 42))) 64 (winRec 0 0 0 4)) := by
  unfold Ready Issues InService CleanRun; exact ⟨rfl, by decide +kernel, by decide +kernel⟩
theorem test_hyp_requant : Ready (.requant c0) 0x80 workRequant (put (before 0x80 0 (finRec 128 192 2 0)) 128 [200, 0]) := by
  unfold Ready Issues InService CleanRun; exact ⟨rfl, by decide +kernel, by decide +kernel⟩
theorem test_hyp_ew_int : Ready (.ewInt c0) 0x81 workEwInt (before 0x81 0 (finRec 128 192 0 0)) := by
  unfold Ready Issues InService CleanRun; exact ⟨rfl, by decide +kernel, by decide +kernel⟩
theorem test_hyp_ew_float : Ready (.ewFloat c0) 0x82 workEwFloat (before 0x82 0 (finRec 128 192 0 6)) := by
  unfold Ready Issues InService CleanRun; exact ⟨rfl, by decide +kernel, by decide +kernel⟩
theorem test_hyp_ffn : Ready (.ffn c0) 0x83 workFfn (before 0x83 0 (finRec 128 192 2 6)) := by
  unfold Ready Issues InService CleanRun; exact ⟨rfl, by decide +kernel, by decide +kernel⟩
theorem test_hyp_softmax : Ready (.softmax c0) 0x84 (workRow (fun _ _ _ => 0)) (before 0x84 0 (finRec 128 192 0 6)) := by
  unfold Ready Issues InService CleanRun; exact ⟨rfl, by decide +kernel, by decide +kernel⟩
theorem test_hyp_norm : Ready (.norm c0) 0x85 (workRow (fun s c w => 1 + finSelect s c w 2)) (before 0x85 0 (finRec 128 192 0 6)) := by
  unfold Ready Issues InService CleanRun; exact ⟨rfl, by decide +kernel, by decide +kernel⟩
theorem test_hyp_lquant : Ready (.lquant c0) 0x86 workLquant (scaled (before 0x86 0 (finRec 128 192 2 0))) := by
  unfold Ready Issues InService CleanRun; exact ⟨rfl, by decide +kernel, by decide +kernel⟩
theorem test_hyp_lrecon : Ready (.lrecon c0) 0x87 workLrecon (before 0x87 0 (finRec 128 192 2 3)) := by
  unfold Ready Issues InService CleanRun; exact ⟨rfl, by decide +kernel, by decide +kernel⟩
theorem test_hyp_lstat : Ready (.lstat c0) 0x88 workLstat (before 0x88 0 (finRec 128 192 1 4)) := by
  unfold Ready Issues InService CleanRun; exact ⟨rfl, by decide +kernel, by decide +kernel⟩
theorem test_hyp_cdf : Ready (.cdf c0) 0x89 workCdf (before 0x89 0 (finRec 128 192 1 4)) := by
  unfold Ready Issues InService CleanRun; exact ⟨rfl, by decide +kernel, by decide +kernel⟩
theorem test_hyp_feedpack : Ready (.feedpack c0) 0x8A workFeedpack (before 0x8A 0 (finRec 128 192 0 0)) := by
  unfold Ready Issues InService CleanRun; exact ⟨rfl, by decide +kernel, by decide +kernel⟩
theorem test_hyp_rng : Ready (.rng c0) 0x8B workRng (before 0x8B 0 (finRec 2 192 4 4)) := by
  unfold Ready Issues InService CleanRun; exact ⟨rfl, by decide +kernel, by decide +kernel⟩
theorem test_hyp_efeed : Ready (.efeed c0) 0xC0 (feedWork false) (put (running (word 0xC0 (2 ^ 67))) 64 (feedRec 16)) := by
  unfold Ready Issues InService CleanRun; exact ⟨rfl, by decide +kernel, by decide +kernel⟩
theorem test_hyp_eres : Ready (.eres c0) 0xC1 (feedWork true) (put (running (word 0xC1 (2 ^ 67))) 64 (feedRec 6)) := by
  unfold Ready Issues InService CleanRun; exact ⟨rfl, by decide +kernel, by decide +kernel⟩

/-! ### The machine as a whole -/

/-- The package in package reset. -/
def inReset : State := { State.reset with pkg := { State.reset.pkg with resetLow := true } }

theorem test_hyp_idle : State.reset.pending = [] := rfl
theorem test_hyp_off : inReset.on = false ∧ Calm inReset ∧ Instr.nop c0 ≠ .packageReset := by unfold Calm; decide +kernel
theorem test_hyp_drain : Recovered base ∧ ∃ t, step base = .next t := ⟨by unfold Recovered; decide, _, rfl⟩

/-- An idle step counts the stamp of each die. -/
theorem test_tick : (match step base with | .next t => t.stamp 24 | _ => 0) = 1 := by decide +kernel

/-! ### Control instructions -/

/-- A wait for semaphore 3, and a post to semaphore 4 of the cluster's own die. -/
def waits : Nat := 2 ^ 117 + 3 * 2 ^ 103
def posts : Nat := 2 ^ 116 + 4 * 2 ^ 90 + 31 * 2 ^ 85

/-- Engine 0.0.0 with a semaphore of value 5 before an instruction that waits and posts. -/
def waiting (w : Nat) : State := (running w).setSem 0 3 5

def nopState : State := waiting (word 0x00 (waits + posts))
def semState : State := waiting (word 0xA0 (waits + posts + 5 * 2 ^ 64 + 7 * 2 ^ 48))
def stepState : State := waiting (word 0x02 (2 ^ 79))
def endState : State := running (word 0x01 0)

theorem test_hyp_own_wait : (atIssue nopState).bit c0.base F.exeListSemStreamed = false ∧ (atIssue nopState).passOwn c0 = some (atWork nopState) := by
  decide +kernel
theorem test_hyp_nop : Issues nopState (atIssue nopState) (atWork nopState) c0 0x00 := by unfold Issues InService; decide +kernel
theorem test_hyp_sem : Issues semState (atIssue semState) (atWork semState) c0 0xA0 := by unfold Issues InService; decide +kernel
theorem test_hyp_step : Issues stepState (atIssue stepState) (atWork stepState) c0 0x02 ∧
    (atWork stepState).bit c0.base F.exeCtrlPauseReq = false ∧
    ((atWork stepState).ses ((atWork stepState).rf c0.base F.exeSession)).nanTrap = false := by unfold Issues InService; decide +kernel
theorem test_hyp_end : Issues endState (atIssue endState) (atWork endState) c0 0x01 := by unfold Issues InService; decide +kernel

/-- The two counts of SEM are those of its body. -/
theorem test_sem_counts : (match execSem c0 semState with | .next t => (t.sem 0 3, t.posts.map (·.count)) | _ => (9, [])) = (0, [7]) := by decide +kernel

/-- A descriptor of one row of n bytes between two stores, for queue 2. -/
def descOf (n flags : Nat) : List Byte :=
  natLe 8 0x1000 ++ natLe 8 0x2000 ++ natLe 1 1 ++ natLe 1 1 ++ natLe 4 0 ++ natLe 1 2 ++ natLe 1 1 ++ natLe 4 n ++ natLe 44 0 ++
  natLe 2 9 ++ natLe 1 31 ++ natLe 1 flags ++ natLe 2 5 ++ natLe 2 6 ++ natLe 1 4 ++ natLe 47 0

/-- The engine of a cluster before a FETCH_ARM whose record names n bytes. -/
def armAt (c : ClusterId) (n : Nat) : State :=
  ((runningAt c (word 0xE0 (2 ^ 68))).pokes (c.store + 128) (descOf n 0)).setSes 1 { kind := .model, state := .open_, dies := BitVec.allOnes 25 }
def armBusyAt (c : ClusterId) : State := (armAt c 64).sf (c.fetchBase 2) F.fetQStatusState Fq.active
def ArmIssues (c : ClusterId) (s : State) : Prop :=
  Issues s (issueAt c s) (workAt c s) c 0xE0 ∧ CleanRun c (workFetchArm c (nextWord (issueAt c s) c) (workAt c s))

theorem test_hyp_fetch_arm : ∃ c : ClusterId, fused c.die c.region = false ∧ ArmIssues c (armAt c 64) ∧ (workAt c (armAt c 64)).fqBusy c 2 = false ∧
    (parseDesc (descOf 64 0)).empty = false ∧ ArmIssues c (armBusyAt c) ∧ (workAt c (armBusyAt c)).fqBusy c 2 = true ∧
    ArmIssues c (armAt c 0) ∧ (workAt c (armAt c 0)).fqBusy c 2 = false ∧ (parseDesc (descOf 0 0)).empty = true :=
  live_region _ (by rintro r (rfl | rfl) _ <;> unfold ArmIssues Issues InService CleanRun <;> decide +kernel)

theorem test_hyp_cells : 1 ≤ 2 ∧ 1 ≤ 1 ∧ outside48 1000 = false ∧ (accumulate 1000 [5]).2 = false := by decide +kernel
theorem test_hyp_requantise : exampleBlock.lo ≤ exampleBlock.hi ∧ bitN (2 ^ 22) 22 = true ∧ bitN 0 22 = false ∧ exampleBlock.fn = 0 := by decide +kernel
theorem test_hyp_latent_code : 0 < 4000 ∧ (4000 : Int).natAbs ≤ 4000 ∧ (-1234 : Int).natAbs ≤ 4000 := by decide +kernel
theorem test_hyp_latent_cdf : 0 < 1 ∧ 254 < 255 := by decide +kernel

/-! ### The execute engine: events and registers -/

/-- An instruction that posts is in flight in each pipe of engine 0.0.0. -/
def inPipes : State := (running (word 0x20 0)).setCl c0
  { unitPipe := [{ index := 0, word := BitVec.ofNat 128 (word 0x20 posts) }], finPipe := [{ index := 1, word := BitVec.ofNat 128 (word 0x80 posts) }] }

/-- The same with an EFEED of one record that has been copied. -/
def feedDone : State := (running (word 0x20 0)).setCl c0
  { finPipe := [{ index := 1, word := BitVec.ofNat 128 (word 0xC0 (posts + 2 ^ 51)), done := 1 }] }

theorem test_hyp_completes : inPipes.dieOn c0.die = true ∧ InService inPipes ∧ inPipes.engineBusy c0 = true ∧
    inPipes.bit c0.base F.clsCtrlIslandEn = true ∧ (inPipes.cl c0).unitPipe.map (fun f => iClass f.word.toNat) = [1] ∧
    (inPipes.cl c0).finPipe.map (fun f => iClass f.word.toNat) = [4] := by unfold InService; decide +kernel
theorem test_hyp_feed : feedDone.dieOn c0.die = true ∧ InService feedDone ∧ feedDone.engineBusy c0 = true ∧
    (feedDone.cl c0).finPipe.map (fun f => (iClass f.word.toNat, iCount f.word.toNat, f.done)) = [(6, 1, 1)] := by unfold InService; decide +kernel

def idleEngine : State := base.sf c0.base F.exeStatusState Ex.ended
def pausedEngine : State := base.sf c0.base F.exeStatusState Ex.paused

/-- Session 1 runs a job on engine 0.0.0. -/
def jobRuns : State := (running (word 0x20 0)).setSes 1
  { kind := .model, state := .open_, jobs := [{ tag := 7, queue := 3, sqHead := 0, seq := 1, ins := [], outs := [], audit := 0, phase := .running }] }

theorem test_hyp_start : idleEngine.dieOn c0.die = true ∧ Recovered idleEngine ∧ idleEngine.exe c0 = Ex.ended := by unfold Recovered; decide +kernel
theorem test_hyp_resume : pausedEngine.dieOn c0.die = true ∧ Recovered pausedEngine ∧ pausedEngine.exe c0 = Ex.paused := by
  unfold Recovered; decide +kernel
theorem test_hyp_halt : inPipes.dieOn c0.die = true ∧ Recovered inPipes ∧ inPipes.engineBusy c0 = true ∧
    inPipes.runningJob (inPipes.rf c0.base F.exeSession) = none := by unfold Recovered; decide +kernel
theorem test_hyp_halt_job : jobRuns.dieOn c0.die = true ∧ Recovered jobRuns ∧ jobRuns.engineBusy c0 = true ∧
    (jobRuns.runningJob (jobRuns.rf c0.base F.exeSession)).isSome = true := by unfold Recovered; decide +kernel
theorem test_hyp_config : idleEngine.engineBusy c0 = false ∧ jobRuns.engineBusy c0 = true ∧ goodListSize 4 = true ∧ goodListSize 16384 = true ∧
    goodListSize 5 = false ∧ goodListSize 32768 = false := by decide +kernel

def scrubbing : State := base.sf c0.base F.clsCtrlScrub 1
theorem test_hyp_scrub : scrubbing.dieOn c0.die = true ∧ InService scrubbing ∧ Recovered scrubbing ∧
    scrubbing.bit c0.base F.clsCtrlScrub = true := by unfold InService Recovered; decide +kernel

/-! ### Semaphores -/

/-- Semaphore 8191 of die 24 belongs to session 1 and holds a value. -/
def owned (v : Nat) : State := (base.wr (semCfgKey 24 8191) 0x1001).setSem 24 8191 v

/-- Two posts on their way to it. -/
def posted : State := { owned 3 with posts := [{ src := 5, die := 24, sem := 8191, count := 1 }, { src := 6, die := 24, sem := 8191, count := 2 }] }

theorem test_hyp_post : (owned 3).dieOn 24 = true ∧ Recovered (owned 3) ∧ (owned 3).semOwned 24 8191 = true ∧
    (owned 3).sem 24 8191 + (2 ^ 32 - 4) < 2 ^ 32 ∧ base.semOwned 24 8191 = false := by unfold Recovered; decide +kernel
theorem test_hyp_arrive : Recovered posted ∧ posted.posts[1]?.map (fun p => (p.die, p.sem, p.count)) = some (24, 8191, 2) ∧
    (posted.posts.take 1).all (fun q => !(q.src == 6 && q.die == 24 && q.sem == 8191)) = true := by unfold Recovered; decide +kernel
theorem test_hyp_overflow : (owned 3).dieOn 24 = true ∧ (owned 3).semOwned 24 8191 = true ∧
    2 ^ 32 ≤ (owned 3).sem 24 8191 + (0xFFFF_FFFD : W32).toNat := by decide +kernel
/-- A post that takes the value to its largest changes it; the next one would pass it (R221). -/
theorem test_sem_limit : (match exec (.semPost 24 8191 0xFFFF_FFFC) (owned 3) with | .next t => t.sem 24 8191 | _ => 0) = 2 ^ 32 - 1 := by
  decide +kernel

/-- Engine 0.0.0 is blocked on semaphore 3 with a value. -/
def blocked (v : Nat) : State := ((running (word 0x00 waits)).sf c0.base F.exeStatusState Ex.waiting).setSem 0 3 v

/-- The same for the line of a streamed list. -/
def lineBlocked : State := (((blocked 1).sf c0.base F.exeListSemStreamed 1).sf c0.base F.exeListSemReady 3)

def ch0 : ChannelId := { die := 0, unit := 0, chan := 0 }
/-- Channel 0 of unit 0 is enabled and waits for a record. -/
def channelWaits : State :=
  ((base.sf ch0.unitBase F.entCtrlEnable 1).sf ch0.base F.entChCtrlEnable 1).setSem 0 ((base.rf ch0.base F.entChSemFeedReady)) 1

theorem test_hyp_satisfied : (blocked 1).dieOn c0.die = true ∧ Recovered (blocked 1) ∧ (blocked 1).exe c0 = Ex.waiting ∧
    (blocked 1).nextWait c0 = some (false, 3, 1) ∧ 1 ≤ (blocked 1).sem c0.die 3 := by unfold Recovered; decide +kernel
theorem test_hyp_satisfied_line : Recovered lineBlocked ∧ lineBlocked.exe c0 = Ex.waiting ∧ lineBlocked.nextWait c0 = some (true, 3, 1) ∧
    1 ≤ lineBlocked.sem c0.die 3 := by unfold Recovered; decide +kernel
theorem test_hyp_satisfied_channel : channelWaits.dieOn ch0.die = true ∧ Recovered channelWaits ∧
    channelWaits.bit ch0.unitBase F.entCtrlEnable = true ∧ channelWaits.bit ch0.base F.entChCtrlEnable = true ∧
    (channelWaits.chan ch0).result = none ∧ (channelWaits.chan ch0).fed = false ∧
    1 ≤ channelWaits.sem ch0.die (channelWaits.rf ch0.base F.entChSemFeedReady) := by unfold Recovered; decide +kernel
theorem test_hyp_timeout : (blocked 0).dieOn c0.die = true ∧ (blocked 0).exe c0 = Ex.waiting ∧ (blocked 0).nextWait c0 = some (false, 3, 1) ∧
    (blocked 0).sem c0.die 3 < 1 := by decide +kernel

/-! ### The fetch engine -/

/-- Fetch queue 2 of a cluster holds a descriptor for session 1, and FET_QSEL selects it; the engine is enabled. -/
def fetchIdle (c : ClusterId) (b : List Byte) : State :=
  let s := base.setSes 1 { kind := .model, state := .open_, dies := BitVec.allOnes 25 }
  (((s.sf c.base F.fetCtrlEnable 1).sf c.base F.fetQsel 2).sf (c.fetchBase 2) F.fetQCtrlSession 1).setFq c 2 { desc := b }

/-- A ring of 8 lines with credit: rows of one line. -/
def ringDesc : List Byte := overlay (overlay (descOf 64 2) 84 [8]) 56 [64]

def creditWaits (c : ClusterId) (v : Nat) : State := ((fetchIdle c ringDesc).sf (c.fetchBase 2) F.fetQStatusState Fq.creditWait).setSem 0 5 v
def rowOpen (c : ClusterId) : State := (((fetchIdle c (descOf 64 0)).sf (c.fetchBase 2) F.fetQStatusState Fq.active).setFq c 2
  { desc := descOf 64 0, rowOpen := true })
def request (c : ClusterId) (dst : Nat) (drop : Bool) : Request :=
  { src := c.store + 0x1000, len := 64, parts := [(0, dst, 64)], row := 0, drop := drop }
def inFlightTo (c : ClusterId) (dst : Nat) (drop : Bool) : State := ((rowOpen c).pokes (c.store + 0x1000) [1, 2, 3]).setFq c 2
  { desc := descOf 64 0, row := 1, inflight := [request c dst drop] }

theorem test_hyp_delivery : ∃ c : ClusterId, fused c.die c.region = false ∧ (creditWaits c 1).fetchOn c = true ∧ Recovered (creditWaits c 1) ∧
    (creditWaits c 1).dieOn c.die = true ∧ (creditWaits c 1).fqState c 2 = Fq.creditWait ∧ ((creditWaits c 1).fq c 2).rowOpen = false ∧
    (parseDesc ringDesc).empty = false ∧ (parseDesc ringDesc).creditEn = true ∧ 0 < (parseDesc ringDesc).rows ∧ (parseDesc ringDesc).lines = 1 ∧
    1 ≤ (creditWaits c 1).sem c.die (parseDesc ringDesc).freeSem ∧ (creditWaits c 0).sem c.die (parseDesc ringDesc).freeSem < 1 :=
  live_region _ (fun r hr h => ⟨fetchOn_of _ _ h (by rcases hr with rfl | rfl <;> decide +kernel),
    by rcases hr with rfl | rfl <;> unfold Recovered <;> decide +kernel⟩)
theorem test_hyp_delivery_pauses : ∃ c : ClusterId, fused c.die c.region = false ∧ let s := (creditWaits c 1).setFq c 2 { desc := ringDesc, pausing := true }
    s.fetchOn c = true ∧ Recovered s ∧ s.fqState c 2 = Fq.creditWait ∧ (s.fq c 2).rowOpen = false ∧ (s.fq c 2).posted = (s.fq c 2).row ∧
    (parseDesc ringDesc).empty = false :=
  live_region _ (fun r hr h => ⟨fetchOn_of _ _ h (by rcases hr with rfl | rfl <;> decide +kernel),
    by rcases hr with rfl | rfl <;> unfold Recovered <;> decide +kernel⟩)
/-- Queues that FET_Q_CTRL.ARM finds idle, busy, with a bad descriptor and with an empty one. -/
def badDescOf : List Byte := overlay (descOf 64 0) 16 [9]
theorem test_hyp_arm : ∃ c : ClusterId, fused c.die c.region = false ∧ Recovered (fetchIdle c (descOf 64 0)) ∧ (fetchIdle c (descOf 64 0)).fqBusy c 2 = false ∧
    (rowOpen c).fqBusy c 2 = true ∧ (parseDesc (descOf 64 0)).empty = false ∧ (parseDesc (descOf 0 0)).empty = true ∧
    (fetchIdle c (descOf 64 0)).badDescFor c 1 (descOf 64 0) = false ∧ (fetchIdle c (descOf 0 0)).badDescFor c 1 (descOf 0 0) = false ∧
    (fetchIdle c badDescOf).badDescFor c 1 badDescOf = true ∧ (fetchIdle c badDescOf).fqSession c 2 = 1 :=
  live_region _ (by rintro r (rfl | rfl) _ <;> unfold Recovered <;> decide +kernel)
theorem test_hyp_abort : (inFlightTo c0 0 false).dieOn c0.die = true ∧ Recovered (inFlightTo c0 0 false) ∧ (inFlightTo c0 0 false).fqBusy c0 2 = true := by
  unfold Recovered; decide +kernel
/-- A busy queue of a disabled engine, with nothing to post. -/
def disabledBusy : State := (rowOpen c0).sf c0.base F.fetCtrlEnable 0
theorem test_hyp_fet_ctrl : disabledBusy.fqBusy c0 2 = true ∧ Recovered disabledBusy ∧
    (∀ q, q < 64 → disabledBusy.fqBusy c0 q = true → (parseDesc (disabledBusy.fq c0 q).desc).empty = false ∧
      (disabledBusy.fq c0 q).row ≤ (disabledBusy.fq c0 q).posted ∧ (disabledBusy.fq c0 q).pausing = false) ∧
    ∀ n, (disabledBusy.ses n).pauseTo = none :=
  ⟨by decide +kernel, by unfold Recovered; decide +kernel, by decide +kernel, unpaused_of _ (by decide +kernel)⟩
theorem test_hyp_request : ∃ c : ClusterId, fused c.die c.region = false ∧ let d := parseDesc (descOf 64 0)
    (rowOpen c).fetchOn c = true ∧ InService (rowOpen c) ∧ (rowOpen c).fqState c 2 = Fq.active ∧ ((rowOpen c).fq c 2).rowOpen = true ∧
    ((rowOpen c).fq c 2).inflight.length < d.outstanding ∧ d.outstanding ≤ 64 ∧ d.srcKind ≠ 0 ∧ d.dstKind ≠ 0 ∧
    d.cutRing 0 ((rowOpen c).rowLine c 2 d 0) 0 0 64 = [(0, 0x2000, 64)] ∧
    (rowOpen c).hostSource { request c 0x2000 false with src := (rowOpen c).sideAddr c 1 d.srcKind d.srcLoc 0x1000 } = none ∧ Unloaded (rowOpen c) :=
  live_region _ (fun r hr h => ⟨fetchOn_of _ _ h (by rcases hr with rfl | rfl <;> decide +kernel),
    by rcases hr with rfl | rfl <;> unfold InService <;> decide +kernel, by rcases hr with rfl | rfl <;> decide +kernel,
    by rcases hr with rfl | rfl <;> decide +kernel, by rcases hr with rfl | rfl <;> decide +kernel, by decide +kernel, by decide +kernel,
    by decide +kernel, by rcases hr with rfl | rfl <;> decide +kernel, by rcases hr with rfl | rfl <;> decide +kernel,
    unloaded_of _ (by rcases hr with rfl | rfl <;> decide +kernel)⟩)

/-- The state with the request taken out, and what its data does there. -/
def returned (s : State) : State := s.putFq c0 2 { s.fq c0 2 with inflight := [] }
def returnWork (s : State) (r : Request) : State × Option Nat := (returned s).moveRequest c0 2 1 r ((returned s).failedLines r [])
theorem test_hyp_return : let s := inFlightTo c0 (c0.store + 0x2000) false
    InService s ∧ s.fqBusy c0 2 = true ∧ (s.fq c0 2).inflight[0]? = some (request c0 (c0.store + 0x2000) false) ∧
    s.unanswered c0 (request c0 (c0.store + 0x2000) false) = false ∧ (s.ses (s.fqSession c0 2)).pauseTo = none ∧
    64 ≤ 64 - (c0.store + 0x2000) % 64 ∧ s.anyPoison (c0.store + 0x1000) 64 = false ∧ s.target (c0.store + 0x1000) = .store 0 0 0 0x1000 ∧
    s.target (c0.store + 0x2000) = .store 0 0 0 0x2000 ∧ (returned s).fqBusy c0 2 = true ∧
    (returnWork s (request c0 (c0.store + 0x2000) false)).2 = none ∧ Unloaded s :=
  ⟨by unfold InService; decide +kernel, by decide +kernel, by decide +kernel, by decide +kernel, by decide +kernel, by decide +kernel,
    by decide +kernel, by decide +kernel, by decide +kernel, by decide +kernel, by decide +kernel, unloaded_of _ (by decide +kernel)⟩
theorem test_hyp_return_drop : let s := inFlightTo c0 (c0.store + 0x2000) true
    InService s ∧ s.fqBusy c0 2 = true ∧ (s.fq c0 2).inflight[0]? = some (request c0 (c0.store + 0x2000) true) ∧
    s.unanswered c0 (request c0 (c0.store + 0x2000) true) = false := by unfold InService; decide +kernel
theorem test_hyp_return_refused : let s := inFlightTo c0 0x3_0000 false
    InService s ∧ s.fqBusy c0 2 = true ∧ (returned s).fqBusy c0 2 = true ∧ (returnWork s (request c0 0x3_0000 false)).2.isSome = true := by
  unfold InService; decide +kernel


/-! ### The entropy units -/

/-- Session 1 has a window of two granules on die 0, and channel 0 of unit 0 works for it: feed ring at 0, result ring at 0x1000, lane 0. -/
def channelBase : State :=
  let s := base.setDie 0 { windows := [(0, some (1, 2, 2))] }
  let s := ((s.sf ch0.unitBase F.entCtrlEnable 1).sf ch0.base F.entChCtrlEnable 1).sf ch0.base F.entChCtrlSession 1
  let s := ((s.sf ch0.base F.entChFeedSize 16).sf ch0.base F.entChResBase 0x1000).sf ch0.base F.entChResSize 64
  (s.sf ch0.base F.entChLanes 1).sf ch0.base F.entChSemFeedFree 2

/-- The next record of the channel is r, and its wait is satisfied; the lane has offset 0x2000 and 16 bytes. -/
def feeding (decode opened : Nat) (r : Nat) : State :=
  let s := ((channelBase.sf ch0.base F.entChCtrlDir decode).sf ch0.base F.entChStatusOpen opened).setChan ch0 { fed := true, desc := 0x40 }
  let s := ((s.sf (ch0.laneBase 0) F.entLcRange 0xFFFF_FFFF).sf (ch0.laneBase 0) F.entLcOffset 0x2000).sf (ch0.laneBase 0) F.entLcLen 16
  s.pokes (s.chAddr ch0 0) (natLe 8 r)

/-- A record of a kind with a code, B and A. -/
def recOf (kind : Nat) (sym b a : Nat) : Nat := kind * 2 ^ 53 + sym * 2 ^ 40 + b * 2 ^ 16 + a

def latentIn : State := feeding 0 1 (recOf 0 2 24 40)
def pairIn : State := feeding 0 1 (recOf 1 0 10485 22285)
def sideIn : State := (feeding 0 1 (recOf 2 31 0 0)).wr (ch0.unitBase + 0x407C) 100
def latentOut : State := (feeding 1 1 (recOf 0 0 24 40)).sf (ch0.laneBase 0) F.entLcLow 0x7E50_7C11
def sideOut : State := feeding 1 1 (recOf 2 0 0 0)
def startIn : State := (feeding 0 0 (recOf 3 0 0 0x40)).pokes (dbufAddr 0 0x2_0040) (natLe 4 0x3000 ++ natLe 4 32)
def endOut : State := feeding 1 1 (recOf 4 0 0 0)
def endIn : State := (feeding 0 1 (recOf 4 0 0 0)).sf (ch0.laneBase 0) F.entLcSyms 1
def resultOut : State := channelBase.setChan ch0 { result := some 5, freed := true, postAfter := true, unposted := 3 }
def disabled : State := channelBase.sf ch0.base F.entChCtrlEnable 0
def badRings : State := disabled.sf ch0.base F.entChFeedSize 17
def openSegment : State := (channelBase.sf ch0.base F.entChStatusOpen 1).setChan ch0 { result := some 9 }

theorem test_hyp_latent : TakesRecord latentIn latentIn ch0 0 (recOf 0 2 24 40) ∧ latentIn.decodes ch0 = false ∧
    recordPair latentIn ch0 false (.latent ch0 false) (recOf 0 2 24 40) 22285 10485 ∧ degenerate (latentIn.lane ch0 0) 10485 = false ∧
    latentIn.laneOf ch0 = 0 ∧ (latentIn.lane ch0 0).pos + ((latentIn.lane ch0 0).encode 22285 10485).2.length ≤ 16 :=
  ⟨by unfold TakesRecord InService; decide +kernel, by decide +kernel,
   .inl ⟨rfl, by decide +kernel, by decide +kernel, 129, by decide +kernel, by decide +kernel, by decide +kernel⟩,
   by decide +kernel, by decide +kernel, by decide +kernel⟩
theorem test_hyp_latent_cdf_record : TakesRecord pairIn pairIn ch0 1 (recOf 1 0 10485 22285) ∧
    recordPair pairIn ch0 true (.latentCdf ch0 true) (recOf 1 0 10485 22285) 22285 10485 :=
  ⟨by unfold TakesRecord InService; decide +kernel, .inr (.inl ⟨rfl, by decide +kernel, by decide +kernel, by decide +kernel⟩)⟩
theorem test_hyp_side : TakesRecord sideIn sideIn ch0 2 (recOf 2 31 0 0) ∧ recordPair sideIn ch0 false (.side ch0 false) (recOf 2 31 0 0) 100 65436 :=
  ⟨by unfold TakesRecord InService; decide +kernel,
   .inr (.inr ⟨rfl, by decide +kernel, 62, by decide +kernel, by decide +kernel, by decide +kernel⟩)⟩
theorem test_hyp_decode_latent : TakesRecord latentOut latentOut ch0 0 (recOf 0 0 24 40) ∧ latentOut.decodes ch0 = true ∧
    degenerate (latentOut.lane ch0 0) (latentCdf 40 24 130 - latentCdf 40 24 129) = false ∧
    ((latentOut.lane ch0 0).decode (latentOut.laneRead ch0 0) (latentCdf 40 24) 255).2.1 = 129 ∧
    latentOut.lanePoison ch0 0 0 1 = false := ⟨by unfold TakesRecord InService; decide +kernel, by decide +kernel⟩
theorem test_hyp_decode_side : TakesRecord sideOut sideOut ch0 2 (recOf 2 0 0 0) ∧ sideOut.decodes ch0 = true ∧
    ((sideOut.lane ch0 0).decode (sideOut.laneRead ch0 0) (sideOut.sideCdf ch0 0) 63).2.1 = 62 ∧
    degenerate (sideOut.lane ch0 0) (sideOut.sideCdf ch0 0 63 - sideOut.sideCdf ch0 0 62) = false :=
  ⟨by unfold TakesRecord InService; decide +kernel, by decide +kernel⟩
theorem test_hyp_segment_start : TakesRecord startIn startIn ch0 3 (recOf 3 0 0 0x40) ∧ startIn.decodes ch0 = false ∧
    startIn.chInside ch0 0x40 64 = true ∧ startIn.anyPoison (startIn.chAddr ch0 0x40) 64 = false ∧
    (startIn.lanesOf ch0).all (startIn.goodLane ch0 0x40) = true := ⟨by unfold TakesRecord InService; decide +kernel, by decide +kernel⟩
theorem test_hyp_segment_end : TakesRecord (endOut.sf (ch0.laneBase 0) F.entLcLen 0) (endOut.sf (ch0.laneBase 0) F.entLcLen 0) ch0 4 (recOf 4 0 0 0) ∧
    (((endOut.sf (ch0.laneBase 0) F.entLcLen 0)).lanesOf ch0).any ((endOut.sf (ch0.laneBase 0) F.entLcLen 0).surplus ch0) = false ∧
    (((endOut.sf (ch0.laneBase 0) F.entLcLen 0)).lanesOf ch0).any ((endOut.sf (ch0.laneBase 0) F.entLcLen 0).trailing ch0) = false :=
  ⟨by unfold TakesRecord InService; decide +kernel, by decide +kernel⟩
theorem test_hyp_segment_end_encode : TakesRecord endIn endIn ch0 4 (recOf 4 0 0 0) ∧ endIn.decodes ch0 = false ∧ endIn.lanesOf ch0 = [0] ∧
    (endIn.lane ch0 0).pos + (endIn.lane ch0 0).flush.2.length ≤ endIn.rf (ch0.laneBase 0) F.entLcLen :=
  ⟨by unfold TakesRecord InService; decide +kernel, by decide +kernel⟩
theorem test_hyp_result : resultOut.dieOn ch0.die = true ∧ InService resultOut ∧ resultOut.bit ch0.unitBase F.entCtrlEnable = true ∧
    resultOut.bit ch0.base F.entChCtrlEnable = true ∧ (resultOut.chan ch0).result = some 5 ∧ (resultOut.chan ch0).freed = true := by
  unfold InService; decide +kernel
theorem test_hyp_ch_enable : Recovered disabled ∧ disabled.bit ch0.base F.entChCtrlEnable = false ∧ disabled.goodChannel ch0 = true ∧
    badRings.goodChannel ch0 = false := by unfold Recovered; decide +kernel
theorem test_hyp_ch_abort : Recovered openSegment ∧ openSegment.bit ch0.base F.entChCtrlEnable = true ∧
    openSegment.bit ch0.base F.entChStatusOpen = true ∧ (openSegment.chan ch0).fed = false ∧
    openSegment.sem ch0.die (openSegment.rf ch0.base F.entChSemFeedReady) = 0 := by unfold Recovered; decide +kernel
theorem test_hyp_side_table : ∀ x : Fin 4, base.bit ({ ch0 with chan := x } : ChannelId).base F.entChCtrlEnable = false := by decide +kernel

/-! ### The stream -/

/-- A job that runs, of a session whose queue is not in use. -/
def runs : Job := { tag := 7, queue := 3, sqHead := 0, seq := 1, ins := [], outs := [], audit := 0, phase := .running }

/-- A stream of pictures of two slices. -/
def stream2 : StreamParams :=
  { format := 0, width := 64, height := 128, sliceRows := 1, window := 1, group := 8, sInit := 64, sMin := 64, picBase := 5 }

/-- Session 1 decodes: its image has the codec block of that stream; its bytes are b, and its decoder is d otherwise. -/
def decoding (d : Decoder) (b : List Byte) : State := base.setSes 1
  { kind := .decode, state := .open_, jobs := [runs], dec := { d with inbuf := b }
    image := { codecDigest := List.replicate 32 0, codec := { qmask := 1, sizes := [(64, 128)] } } }

def open5 : DecPicture := { pic := 5, slices := 2, noref := true, unit := [] }
def held5 (e : Nat) : DecPicture := { open5 with held := [{ index := 0, edition := e, lanes := [], unit := [] }, { index := 1, edition := 0, lanes := [], unit := [] }] }
def fresh5 : Decoder := { stream := some stream2, blocked := false, fresh := true, expect := some 5 }

def streamP : List Byte := streamPayload { stream2 with codecDigest := List.replicate 32 0 }
def pictureP (pic : W32) : List Byte := picturePayload pic true false false 2 []
def sliceP (pic : W32) (e : Nat) : List Byte := slicePayload pic 1 e false 0 0 []
def closeP (e0 : Nat) : List Byte := closePayload 5 2 0 0 0 [e0, 0] none
def unitOf (t : Nat) (p : List Byte) : List Byte := wsfUnit t 1 p

def atStream : State := decoding {} (unitOf Wu.stream streamP)
def atPicture (pic : W32) : State := decoding fresh5 (unitOf Wu.picture (pictureP pic))
def atSeen : State := decoding { fresh5 with fresh := false, previous := some 4 } (unitOf Wu.picture (pictureP 4))
def atSlice (pic : W32) (old e : Nat) : State := decoding { fresh5 with current := some (held5 old) } (unitOf Wu.slice (slicePayload pic 0 e false 0 0 []))
def atClose (p : DecPicture) : State := decoding { fresh5 with current := some p } (unitOf Wu.close (closeP 0))
def atDropped (pic : W32) : State := decoding fresh5 (unitOf Wu.dropped (droppedPayload pic 1))

set_option maxRecDepth 20000 in
theorem test_hyp_stream : Receives atStream 1 Wu.stream streamP (unitOf Wu.stream streamP) ∧ (atStream.ses 1).dec.current = none ∧
    checkStream (atStream.ses 1).image (parseStream streamP) = none := ⟨by unfold Receives; decide +kernel, by decide +kernel⟩
theorem test_hyp_picture : Receives (atPicture 5) 1 Wu.picture (pictureP 5) (unitOf Wu.picture (pictureP 5)) ∧ skipped (some 5) 5 = 0 ∧
    beAt (pictureP 5) 6 2 = sliceCount stream2 ∧ bitN (beAt (pictureP 5) 4 1) 0 = true ∧ unitPic (pictureP 5) = 5 :=
  ⟨by unfold Receives; decide +kernel, by decide +kernel⟩
theorem test_hyp_picture_gap : Receives (atPicture 7) 1 Wu.picture (pictureP 7) (unitOf Wu.picture (pictureP 7)) ∧ skipped (some 5) 7 = 2 :=
  ⟨by unfold Receives; decide +kernel, by decide +kernel⟩
theorem test_hyp_picture_seen : Receives atSeen 1 Wu.picture (pictureP 4) (unitOf Wu.picture (pictureP 4)) ∧
    (atSeen.ses 1).dec.previous = some (unitPic (pictureP 4)) := ⟨by unfold Receives; decide +kernel, by decide +kernel⟩
theorem test_hyp_slice : Receives (atSlice 5 0 7) 1 Wu.slice (slicePayload 5 0 7 false 0 0 []) (unitOf Wu.slice (slicePayload 5 0 7 false 0 0 [])) ∧
    (heldSlice (held5 0) 0).map (·.edition) = some 0 ∧ heldSlice open5 0 = none ∧ beAt (slicePayload 5 0 7 false 0 0 []) 6 1 % 8 = 7 ∧
    beAt (slicePayload 5 0 7 false 0 0 []) 4 2 < open5.slices := ⟨by unfold Receives; decide +kernel, by decide +kernel⟩
theorem test_hyp_slice_old : Receives (atSlice 5 7 7) 1 Wu.slice (slicePayload 5 0 7 false 0 0 []) (unitOf Wu.slice (slicePayload 5 0 7 false 0 0 [])) ∧
    (heldSlice (held5 7) 0).map (·.edition) = some 7 := ⟨by unfold Receives; decide +kernel, by decide +kernel⟩
theorem test_hyp_slice_late : Receives (atSlice 4 0 0) 1 Wu.slice (slicePayload 4 0 0 false 0 0 []) (unitOf Wu.slice (slicePayload 4 0 0 false 0 0 [])) ∧
    (held5 0).pic ≠ unitPic (slicePayload 4 0 0 false 0 0 []) := ⟨by unfold Receives; decide +kernel, by decide +kernel⟩
theorem test_hyp_close : Receives (atClose (held5 0)) 1 Wu.close (closeP 0) (unitOf Wu.close (closeP 0)) ∧ closesWhole (held5 0) (closeP 0) = true ∧
    closesWhole open5 (closeP 0) = false := ⟨by unfold Receives; decide +kernel, by decide +kernel⟩
theorem test_hyp_close_lost : Receives (atClose open5) 1 Wu.close (closeP 0) (unitOf Wu.close (closeP 0)) := by unfold Receives; decide +kernel
theorem test_hyp_dropped : Receives (atDropped 5) 1 Wu.dropped (droppedPayload 5 1) (unitOf Wu.dropped (droppedPayload 5 1)) ∧
    Receives (atDropped 6) 1 Wu.dropped (droppedPayload 6 1) (unitOf Wu.dropped (droppedPayload 6 1)) ∧
    (fresh5.expect = some (unitPic (droppedPayload 5 1))) ∧ fresh5.expect ≠ some (unitPic (droppedPayload 6 1)) :=
  ⟨by unfold Receives; decide +kernel, by unfold Receives; decide +kernel, by decide +kernel⟩

def atBad : State := decoding fresh5 [0x57, 0x53, 1]
def atNoise : State := decoding fresh5 [0, 0x57]
def atReserved : State := decoding fresh5 (unitOf 6 [])
theorem test_hyp_bad_unit : atNoise.on = true ∧ (atNoise.ses 1).kind = .decode ∧ (atNoise.runningJob 1).isSome = true ∧
    (atNoise.ses 1).dec.closing = none ∧ frontOf (atNoise.ses 1).dec.inbuf = .bad := by decide +kernel
theorem test_hyp_unknown_unit : (atReserved.runningJob 1).isSome = true ∧ frontOf (atReserved.ses 1).dec.inbuf = .unit 6 1 [] (unitOf 6 []) := by
  decide +kernel

/-- Session 1 encodes that stream, with a window on die 0 whose lane table names no byte; its picture 5 has some slices out. -/
def encoding (k : Nat) : State := (base.setDie 0 { windows := [(0, some (1, 2, 2))] }).setSes 1
  { kind := .encode, state := .open_, dies := 1, jobs := [runs],
    enc := { params := stream2, refreshDue := false, nextPic := 5,
             current := some { pic := 5, noref := true, forced := false, requested := false, unitOut := true, unitSize := 56,
                               slices := (List.range k).map (fun i => { index := i, edition := 0, lanes := [], unit := List.replicate 60 0 }) } } }
def table0 : LaneTable := { die := 0, offset := 0 }

theorem test_hyp_slice_emit : (encoding 1).on = true ∧ ((encoding 1).ses 1).kind = .encode ∧ ((encoding 1).runningJob 1).isSome = true ∧
    (encoding 1).tableInside 1 table0 = true ∧ (encoding 1).tablePoison 1 table0 = false ∧ 1 < sliceCount ((encoding 1).ses 1).enc.params := by
  decide +kernel
theorem test_hyp_close_emit : (encoding 2).on = true ∧ (encoding 2).runningJob 1 = some runs ∧ sliceCount ((encoding 2).ses 1).enc.params = 2 ∧
    (encoding 2).listsEnded 1 = true ∧ (encoding 2).checksDone 1 = true ∧ (encoding 2).nanDue 1 = false ∧ runs.tainted = false ∧
    (((encoding 2).emitUnit 1 Wu.close (closePayload 5 2 ((encoding 2).sessionStep 1) 0 0 [0, 0] none)).ses 1).kind = .encode := by
  decide +kernel

/-! ### Queues and host commands -/

/-- Queue 0 and queue 3 are active, with rings of 16 in host memory; the homeroom of both is die 12, and link 0 is its host route. -/
def queues : State :=
  let s := base.sf (queueBase 12 0) F.fwcQStatusState Qs.active
  let s := (s.sf (queueBase 12 3) F.fwcQStatusState Qs.active).setQue 3 { sq := 0x10000, cq := 0x11000, sqLog2 := 4, cqLog2 := 4 }
  let s := s.setQue 0 { sq := 0x12000, cq := 0x13000, sqLog2 := 4, cqLog2 := 4 }
  let s := ((s.sf (lnkBase 0) F.lnkStatusState 2).sf (lnkBase 0) F.lnkStatusPartner 2).setLnk 0 { role := 2 }
  (s.sf (key 12 0) F.lnkHroutePrimaryValid 1).sf (key 12 0) F.lnkHroutePrimary 0

/-- A command in front of a queue, and one of session 1. -/
def fetched (s : State) (q : Nat) (c : HostCmd) : State := s.setQue q { s.que q with fetched := [c] }
def cmd (op : Nat) (args : List W64) : HostCmd := { opcode := BitVec.ofNat 8 op, session := 1, tag := 77, args := args, head := 5 }

/-- Page tables in host memory: the first 2 MiB lie at 0x20_0000 of host memory. -/
def withTables (s : State) : State :=
  ((s.pokes (hostAddr 0x1000) (natLe 8 (hostAddr 0x2005))).pokes (hostAddr 0x2000) (natLe 8 (hostAddr 0x3005))).pokes (hostAddr 0x3000)
    (natLe 8 (hostAddr 0x20_0007))

/-- A queued job, and session 1 open with it. -/
def job0 : Job := { tag := 7, queue := 3, sqHead := 4, seq := 9, ins := [], outs := [], audit := 0 }
def job1 : Job := { job0 with tag := 8, seq := 10, order := 1 }
def session (k : Kind) (js : List Job) : State :=
  queues.setSes 1 { kind := k, state := .open_, queue := 3, homeroom := 12, dies := BitVec.allOnes 25, root := hostAddr 0x1000, jobs := js }

theorem test_hyp_ring : queues.qState 3 = Qs.active ∧ (queues.que 3).held = [] ∧ queues.route (queues.qDie 3) = some 0 ∧
    (queues.que 3).written - (queues.que 3).consumed < 2 ^ (queues.que 3).cqLog2 ∧ queues.unacked 0 = false := by decide +kernel

/-- Queue 1023 with the largest rings, at the last homeroom. -/
def createArgs : List W64 := [0x10_0000, 0x20_0000, BitVec.ofNat 64 (1023 + 16 * 2 ^ 16 + 4 * 2 ^ 24 + 24 * 2 ^ 32 + 5 * 2 ^ 40)]
theorem test_hyp_create : NextCommand (fetched queues 0 (cmd 1 createArgs)) 0 0x01 (cmd 1 createArgs) [] ∧
    fieldN ((cmd 1 createArgs).arg 2) 9 0 = 1023 ∧ (fetched queues 0 (cmd 1 createArgs)).queueUsed 1023 = false ∧
    fieldN ((cmd 1 createArgs).arg 2) 20 16 = 16 ∧ fieldN ((cmd 1 createArgs).arg 2) 28 24 = 4 ∧ fieldN ((cmd 1 createArgs).arg 2) 36 32 = 24 := by
  unfold NextCommand Recovered; decide +kernel
theorem test_hyp_delete : NextCommand (fetched queues 0 (cmd 2 [0, 0, 3])) 0 0x02 (cmd 2 [0, 0, 3]) [] ∧
    (fetched queues 0 (cmd 2 [0, 0, 3])).queueUsed 3 = true ∧ (fetched queues 0 (cmd 2 [0, 0, 3])).lastQueue 3 = false := by
  unfold NextCommand Recovered; decide +kernel

def enterTest : HostCmd := cmd 5 [0x1FF_FFFF, 1]
def leaveTest : HostCmd := cmd 5 [0x1FF_FFFF, 0]
def testing : State := { queues with parts := [{ dies := BitVec.allOnes 25, state := .test }] }
theorem test_hyp_enter : NextCommand (fetched queues 0 enterTest) 0 0x05 enterTest [] ∧ bitN (enterTest.arg 1) 0 = true ∧
    bitN (enterTest.arg 1) 1 = false ∧ queues.parts.any (fun p => p.dies == BitVec.ofNat 25 (enterTest.arg 0) && p.state == .service) = true ∧
    queues.anySession = false := by unfold NextCommand Recovered; decide +kernel
theorem test_hyp_leave : NextCommand (fetched testing 0 leaveTest) 0 0x05 leaveTest [] ∧ bitN (leaveTest.arg 1) 0 = false ∧
    testing.parts.any (fun p => p.dies == BitVec.ofNat 25 (leaveTest.arg 0) && p.state == .test && p.leaving.isNone) = true ∧
    testing.inRecess (BitVec.ofNat 25 (leaveTest.arg 0)) = false ∧ testing.anySession = false := by unfold NextCommand Recovered; decide +kernel
theorem test_hyp_test_queue : NextCommand (fetched queues 3 enterTest) 3 0x05 enterTest [] := by unfold NextCommand Recovered; decide +kernel

/-- SHAKE256 of no byte, as FIPS 202 has it. -/
def emptyDigest : List Byte :=
  [0x46, 0xB9, 0xDD, 0x2B, 0x0B, 0xA8, 0x8D, 0x13, 0x23, 0x3B, 0x3F, 0xEB, 0x74, 0x3E, 0xEB, 0x24,
   0x3F, 0xCD, 0x52, 0xEA, 0x62, 0xB8, 0x1B, 0x82, 0xB5, 0x0C, 0x27, 0x64, 0x6E, 0xD5, 0x76, 0x2F]
theorem test_digest : digest32 [] = emptyDigest := by decide +kernel

/-- An image with no section, and a block that asks for a model session of all dies with it. -/
def emptyImage : List Byte :=
  [0x42, 0x44, 0x49, 0x01] ++ natLe 2 3 ++ List.replicate 42 0 ++ emptyDigest ++ emptyDigest ++ List.replicate 80 0
def modelBlock : List Byte := natLe 1 3 ++ natLe 1 0 ++ natLe 2 3 ++ natLe 4 (2 ^ 25 - 1)
def openArgs : List W64 := [0x8000, 0, 192, BitVec.ofNat 64 (hostAddr 0x1000), 0]
def opening : State := fetched (((withTables queues).pokes (hostAddr 0x20_0000) emptyImage).pokes (hostAddr 0x8000) modelBlock) 3 (cmd 3 openArgs)
theorem test_hyp_open : NextCommand opening 3 0x03 (cmd 3 openArgs) [] ∧ (cmd 3 openArgs).arg 4 = 0 ∧ opening.activating = false := by
  unfold NextCommand Recovered; decide +kernel
theorem test_hyp_opens : ((opening.setQue 3 (popped opening 3 [])).openWith (opening.qDie 3) (cmd 3 openArgs).args).2.1 = St.ok := by decide +kernel
def drainedQueue : State := fetched { queues with pkg := { queues.pkg with drained := true } } 3 (cmd 3 openArgs)
theorem test_hyp_open_drained : NextCommand drainedQueue 3 0x03 (cmd 3 openArgs) [] ∧ drainedQueue.pkg.drained = true ∧
    drainedQueue.activating = false := by unfold NextCommand Recovered; decide +kernel

theorem test_hyp_close_session : SessionCommand (fetched (session .model []) 3 (cmd 4 [])) 3 0x04 (cmd 4 []) [] 1 ∧
    ((session .model []).ses 1).closing = none ∧ ((session .model []).ses 1).jobs = [] := by
  unfold SessionCommand NextCommand Recovered; decide +kernel
def submitCmd : HostCmd := cmd 0x10 [0, 64, 0, 11]
def submitting : State := fetched ((withTables (session .model [job0])).pokes (hostAddr 0x20_0000) (natLe 8 0x1000 ++ natLe 4 64 ++ natLe 4 64)) 3 submitCmd
theorem test_hyp_submit : SessionCommand submitting 3 0x10 submitCmd [] 1 ∧ (submitting.ses 1).state ≠ .ending ∧ submitting.pkg.drained = false := by
  unfold SessionCommand NextCommand Recovered; decide +kernel
/-- The job has the one buffer that its list of inputs names, and none that an entry of length 0 stands for. -/
theorem test_submit : (match exec (.submit 3) submitting with
    | .next t => (t.ses 1).jobs.map (fun j => (j.ins, j.outs, j.seq)) | _ => []) =
      [([], [], 9), ([{ addr := 0x1000, pitch := 64, len := 64 }], [], 11)] := by decide +kernel

def withdrawCmd (seq : W64) : HostCmd := cmd 0x11 [0, 0, 0, seq]
def withdrawing (seq : W64) : State := fetched (session .model [job0, job1]) 3 (withdrawCmd seq)
theorem test_hyp_withdraw : SessionCommand (withdrawing 10) 3 0x11 (withdrawCmd 10) [] 1 ∧
    ((withdrawing 10).ses 1).jobs.find? (fun j => j.seq.toNat == (withdrawCmd 10).arg 3 % 2 ^ 32 && !j.withdrawn
      && !jobComplete ((withdrawing 10).ses 1) j) = some job1 ∧ ((withdrawing 10).ses 1).jobs.head? ≠ some job1 := by
  unfold SessionCommand NextCommand Recovered; decide +kernel
theorem test_hyp_withdraw_none : SessionCommand (withdrawing 12) 3 0x11 (withdrawCmd 12) [] 1 ∧
    ((withdrawing 12).ses 1).jobs.find? (fun j => j.seq.toNat == (withdrawCmd 12).arg 3 % 2 ^ 32 && !j.withdrawn
      && !jobComplete ((withdrawing 12).ses 1) j) = none := by unfold SessionCommand NextCommand Recovered; decide +kernel
theorem test_hyp_refresh : SessionCommand (fetched (session .encode []) 3 (cmd 0x12 [])) 3 0x12 (cmd 0x12 []) [] 1 ∧
    ((session .encode []).ses 1).kind = .encode := by unfold SessionCommand NextCommand Recovered; decide +kernel
theorem test_hyp_refresh_refused : SessionCommand (fetched (session .model []) 3 (cmd 0x12 [])) 3 0x12 (cmd 0x12 []) [] 1 ∧
    ((session .model []).ses 1).kind ≠ .encode := by unfold SessionCommand NextCommand Recovered; decide +kernel
theorem test_hyp_bell : SessionCommand (fetched (session .model []) 3 (cmd 0x16 [])) 3 0x16 (cmd 0x16 []) [] 1 := by
  unfold SessionCommand NextCommand Recovered; decide +kernel
theorem test_hyp_pause_session : SessionCommand (fetched (session .model []) 3 (cmd 0x13 [0, 0])) 3 0x13 (cmd 0x13 [0, 0]) [] 1 ∧
    ((session .model []).ses 1).state = .open_ ∧ ((session .model []).ses 1).pauseTo = none ∧
    ((session .model []).ses 1).saveBytes ≤ (cmd 0x13 [0, 0]).arg 1 := by unfold SessionCommand NextCommand Recovered; decide +kernel

/-- Session 1 is paused, and a record of it lies at its first address. -/
def saveHead : List Byte := [0x5A, 0x53, 0x56, 0x01] ++ natLe 2 1 ++ natLe 2 0 ++ natLe 8 160 ++ List.replicate 112 0
def paused : State :=
  let s := session .model []
  let s := s.setSes 1 { s.ses 1 with state := .paused, saveBytes := 160 }
  let s := (withTables s).pokes (hostAddr 0x20_0000) (saveHead ++ digest32 saveHead)
  fetched { s with saves := [(digest32 saveHead, { session := s.ses 1 })] } 3 (cmd 0x14 [0, 160])
theorem test_hyp_resume_session : SessionCommand paused 3 0x14 (cmd 0x14 [0, 160]) [] 1 ∧ (paused.ses 1).state = .paused := by
  unfold SessionCommand NextCommand Recovered; decide +kernel
def pausedRead : List Byte × Bool × State := (paused.setQue 3 (popped paused 3 [])).virtRead 12 1 0 160
theorem test_hyp_resume_record : pausedRead.2.2.readSave 1 pausedRead.1 = (St.ok, some { session := paused.ses 1 }) := by decide +kernel
def queryCmd (cap : W64) : HostCmd := cmd 0x15 [0x100, cap]
def querying (cap : W64) : State := fetched (withTables (session .model [])) 3 (queryCmd cap)
theorem test_hyp_query : SessionCommand (querying 4096) 3 0x15 (queryCmd 4096) [] 1 ∧ SessionCommand (querying 8) 3 0x15 (queryCmd 8) [] 1 ∧
    ((querying 4096).statusBlock 1).length ≤ (queryCmd 4096).arg 1 ∧ (queryCmd 8).arg 1 < ((querying 8).statusBlock 1).length := by
  unfold SessionCommand NextCommand Recovered; decide +kernel

/-! ### Doorbells, jobs and bells -/

def tailAt (v : W32) : W32 := v
def rung : State := queues.sf (queueBase 12 3) F.fwcQStatusHead 14
theorem test_hyp_doorbell : rung.dieOn (rung.qDie 3) = true ∧ Recovered rung ∧ rung.qState 3 = Qs.active ∧ getF (1 : W32) 15 0 < 2 ^ (rung.que 3).sqLog2 ∧
    rung.rf (rung.qBase 3) F.fwcQStatusHead < 2 ^ (rung.que 3).sqLog2 ∧ (rung.que 3).sqLog2 ≤ 16 ∧ (rung.route (rung.qDie 3)).isSome = true := by
  unfold Recovered; decide +kernel
theorem test_hyp_doorbell_link : ∀ e ∈ rung.links, e.2.waitingWrites = [] := by decide +kernel
theorem test_hyp_doorbell_live : ∀ n, rung.sharesHomeroom 3 n = true → (rung.ses n).live = false := by
  intro n h; rfl
def stalledQueue : State := queues.sf (queueBase 12 3) F.fwcQStatusState Qs.stalled
theorem test_hyp_doorbell_out : queues.dieOn (queues.qDie 3) = true ∧ Recovered queues ∧ 2 ^ (queues.que 3).sqLog2 ≤ getF (16 : W32) 15 0 ∧
    Recovered stalledQueue ∧ stalledQueue.qState 3 = Qs.stalled ∧ getF (15 : W32) 15 0 < 2 ^ (stalledQueue.que 3).sqLog2 ∧
    queues.qState 4 = Qs.unused := by unfold Recovered; decide +kernel
theorem test_hyp_completion : queues.dieOn (queues.qDie 3) = true ∧ Recovered queues ∧ queues.qState 3 = Qs.active ∧ (queues.que 3).held = [] ∧
    getF (15 : W32) 15 0 < 2 ^ (queues.que 3).cqLog2 ∧ 2 ^ (queues.que 3).cqLog2 ≤ getF (16 : W32) 15 0 := by unfold Recovered; decide +kernel

/-- The scheduler core of die 12 runs. -/
def scheduled (k : Kind) (js : List Job) : State := (session k js).sf (procBase 12 scheduler) F.fwcProcStatusState 2
theorem test_hyp_dispatch : (scheduled .model [job0]).on = true ∧ ReadyFirst (scheduled .model [job0]) 1 ∧
    job0.withdrawn = false ∧ badLayout ((scheduled .model [job0]).ses 1) job0 = false := by unfold ReadyFirst; decide +kernel
def withdrawn0 : Job := { job0 with withdrawn := true }
theorem test_hyp_dispatch_withdrawn : ReadyFirst (scheduled .model [withdrawn0]) 1 ∧ withdrawn0.withdrawn = true := by unfold ReadyFirst; decide +kernel
theorem test_hyp_dispatch_refused : ReadyFirst (scheduled .encode [job0]) 1 ∧ badLayout ((scheduled .encode [job0]).ses 1) job0 = true := by
  unfold ReadyFirst; decide +kernel
theorem test_hyp_dispatch_not : ¬ ReadyFirst (session .model [job0]) 1 ∧ (session .model [job0]).claims 1 = false ∧
    ((session .model [job0]).ses 1).yields = [] ∧ ((session .model [job0]).ses 1).yielding = false ∧ Recovered (session .model [job0]) := by
  unfold ReadyFirst Recovered; decide +kernel

/-- A resident list of 3 instructions at line 5 of cluster 3.2.L1, which session 1 uses. -/
def place5 : ListPlace := { lclus := BitVec.ofNat 16 (lclusOf 3 2 1), line := 5, sizeLog2 := 2, streamed := false, words := List.replicate 48 7, len := 3, advSteps := 0 }
def c321 : ClusterId := { die := 3, region := 2, slot := 1 }
def listed : State := (session .model [job0]).sf c321.base F.exeSession 1
theorem test_hyp_list : listed.physOf place5.lclus.toNat = some c321 ∧ listed.rf c321.base F.exeSession = 1 ∧
    (listed.ses 1).image.descs = [] := by decide +kernel

/-- At most one region of a die is fused, whatever the part: one of regions 0 and 1 of die 0 is not. -/
theorem test_hyp_slots : ∃ r : Fin 8, fused 0 r = false ∧ State.reset.lost 0 r = false ∧ State.reset.chart.failedDies.getLsbD 0 = false := by
  by_cases h : fusedRegion 0 = some 0
  · exact ⟨1, by simp [fused, h], by decide, by decide⟩
  · exact ⟨0, by simp [fused, h], by decide, by decide⟩

/-- Session 1 runs a job on cluster 3.2.L1, and live session 2 has one ready for the same cluster. -/
def sharing (x : Session) : State :=
  let s := scheduled .model [{ job0 with phase := .running }]
  let s := s.setSes 1 { s.ses 1 with image := { lists := [place5] }, yields := x.yields, jobs := if x.jobs.isEmpty then (s.ses 1).jobs else x.jobs }
  let s := s.setSes 2 { s.ses 1 with kind := .decode, live := true, yields := [], jobs := x.jobs.drop 1, bell := some 0, period := 1000
                                     image := { lists := [place5] } }
  if x.yields.isEmpty then (s.sf c321.base F.exeSession 1).setExe c321 Ex.running else s.sf c321.base F.exeSession 2
def asked : State := sharing { jobs := [{ job0 with phase := .running }, { job1 with due := some 2 }] }
def yielded1 : Yielded := { lclus := place5.lclus, cluster := { issue := 2 } }
def yielded : State := sharing { yields := [yielded1] }
theorem test_hyp_asked : asked.on = true ∧ Recovered asked ∧ asked.procRuns (asked.ses 2).homeroom scheduler = true ∧ asked.claims 2 = true ∧
    asked.holders 2 = [1] ∧ asked.enginesStill 1 = false ∧ asked.exe c321 = Ex.running := by unfold Recovered; decide +kernel
theorem test_hyp_yielded : yielded.on = true ∧ Recovered yielded ∧ yielded.procRuns (yielded.ses 1).homeroom scheduler = true ∧
    (yielded.runningJob 1).isSome = true ∧ yielded.resumable 1 = true ∧ yielded.comesFirst 1 = true ∧ (yielded.ses 1).pauseTo = none ∧
    (yielded.ses 1).image.lists = [place5] ∧ (yielded.ses 1).yields = [yielded1] ∧ yielded1.lclus = place5.lclus ∧
    yielded.physOf place5.lclus.toNat = some c321 := by unfold Recovered; decide +kernel

/-- Session 1 is a live stream whose bell 6 has rung, with a job due at bell 7 or 8. -/
def live (due : Nat) (stop : Option Nat) : State :=
  let s := session .model [{ job0 with due := some due }]
  s.setSes 1 { s.ses 1 with live := true, bell := some 6, stopAtBell := stop, period := 1000, deadline := 1 }
theorem test_hyp_bell_ring : (live 8 none).on = true ∧ ((live 8 none).ses 1).live = true ∧ ((live 8 none).ses 1).bellHost = false ∧
    ((live 8 none).ses 1).bell = some 6 ∧ dueJob ((live 8 none).ses 1) 7 = none ∧ Recovered (live 8 none) ∧
    ((live 8 none).ses 1).stopAtBell = none ∧ ((live 8 (some St.sessionEnded)).ses 1).stopAtBell = some St.sessionEnded := by
  unfold Recovered; decide +kernel
theorem test_hyp_bell_due : dueJob ((live 7 none).ses 1) 7 = some { job0 with due := some 7 } ∧
    ((live 7 none).ses 1).jobs = [{ job0 with due := some 7 }] ∧ (live 7 none).schedulerRestarts ((live 7 none).ses 1).homeroom = false := by
  decide +kernel
/-- A load of 30 % of the cycles and 99.9 % of the memory shows the greater (R349). -/
theorem test_load : (match exec (.loadUpdate 3 30 100 999 1000) base with | .next t => t.parts.map (·.load) | _ => []) = [999] := by decide +kernel

/-! ### Health -/

theorem checkers_draw (s : State) (c : ClusterId) (t : Tile) : ∃ y, s.checkers c t =
    (((List.range 7).map (fun k => (c.region.val + 1 + (y + k) % 7) % 8)).filter (s.regionOk c.die)).filterMap
      (fun r => s.physOf (lclusOf c.die r (fieldN (s.lclusOfCluster c) 11 8))) := ⟨_, rfl⟩

theorem draw_two (y g : Nat) : (g + 1 + (y + 0) % 7) % 8 ≠ (g + 1 + (y + 1) % 7) % 8 := by omega

/-- Some region of a die other than one region can check for it, whichever regions are fused. -/
theorem checkers_ne_nil (s : State) (c : ClusterId) (t : Tile) (hl : s.chart.lost = []) (hf : s.chart.failedDies = 0)
    (hp : ∀ r, r < 8 → ∀ n, n < 16 → (s.physOf (lclusOf c.die r n)).isSome = true) : s.checkers c t ≠ [] := by
  obtain ⟨y, e⟩ := checkers_draw s c t
  rw [e]
  intro h
  rw [List.filterMap_eq_nil_iff] at h
  have key : ∀ k, k < 7 → s.regionOk c.die ((c.region.val + 1 + (y + k) % 7) % 8) = false := by
    intro k hk
    by_contra hne
    have hok := Bool.eq_true_of_not_eq_false hne
    have e := h _ (List.mem_filter.mpr ⟨List.mem_map.mpr ⟨k, List.mem_range.mpr hk, rfl⟩, hok⟩)
    have hr := hp ((c.region.val + 1 + (y + k) % 7) % 8) (Nat.mod_lt _ (by decide)) (fieldN (s.lclusOfCluster c) 11 8)
      (by unfold fieldN; exact Nat.mod_lt _ (by decide))
    rw [e] at hr
    exact absurd hr (by simp)
  have ok : ∀ d r, s.regionOk d r = !fused d r := by
    intro d r
    unfold State.regionOk State.lost
    rw [hl, hf]
    simp [NatSet.mem]
  have k0 := key 0 (by decide)
  have k1 := key 1 (by decide)
  simp only [ok, fused, Bool.not_eq_false', beq_iff_eq] at k0 k1
  exact draw_two y c.region.val (Option.some.inj (k0.symm.trans k1))

/-- Of two regions of a die that has lost none, one is not fused. -/
theorem some_region_ok (s : State) (d : Nat) (hl : s.chart.lost = []) (hf : s.chart.failedDies = 0) :
    (s.regionOk d 0 = true ∧ fused d 0 = false) ∨ (s.regionOk d 1 = true ∧ fused d 1 = false) := by
  have ok : ∀ r, s.regionOk d r = !fused d r := by
    intro r
    unfold State.regionOk State.lost
    rw [hl, hf]
    simp [NatSet.mem]
  rw [ok, ok]
  unfold fused
  by_cases h : fusedRegion d = some 0 <;> simp [h]

def sampledTile : Tile := { number := 3, session := 1, id := 7, classE := true, begun := true, ended := true, sampled := true }
def trappedTile : Tile := { sampledTile with trap := some .divZero }
def checkedTile : Tile := { sampledTile with checker := some 98 }
def readerTile : Tile := { sampledTile with id := 9, sources := [7], sampled := false }
def sampledAt (x : Tile) : State := base.setCl c0 { base.cl c0 with window := [{}, x] }
theorem test_hyp_duplicate : (sampledAt sampledTile).dieOn c0.die = true ∧ (sampledAt sampledTile).windowTile c0 1 = some sampledTile ∧
    sampledTile.sampled = true ∧ sampledTile.compared = false ∧ sampledTile.checker = none ∧ Recovered (sampledAt sampledTile) := by
  unfold Recovered; decide +kernel
theorem test_hyp_checkers : (sampledAt sampledTile).checkers c0 sampledTile ≠ [] := checkers_ne_nil _ _ _ rfl rfl (by decide +kernel)
theorem test_hyp_checker : ∃ k, k ∈ (sampledAt sampledTile).checkers c0 sampledTile := List.exists_mem_of_ne_nil _ test_hyp_checkers
theorem test_hyp_vote : (sampledAt checkedTile).windowTile c0 1 = some checkedTile ∧ checkedTile.checker.isSome = true ∧
    (sampledAt trappedTile).windowTile c0 1 = some trappedTile ∧ trappedTile.trap.bind trapStatus = some St.exeDivZero := by decide +kernel
/-- The result of tile-step 7 has been replaced, and tile-step 9 of cluster 3.2.1 read it; or another vote of the step is open. -/
def readBy (x : Tile) : State := { (sampledAt sampledTile).setCl c321 { window := [x] } with redo := [7] }
theorem test_hyp_readers : (readBy readerTile).redo ≠ [] ∧ (readBy readerTile).otherVote sampledTile = false ∧
    (readBy readerTile).readers (readBy readerTile).redo = [9] ∧
    (readBy { readerTile with checker := some 98 }).otherVote sampledTile = true := by decide +kernel
/-- The tile-step before the last is not yet compared, or is and read from one that is. -/
def twoEnded (x : Tile) : State :=
  let s := (running (word 0x00 0)).setCl c321 { window := [{ sampledTile with compared := true }] }
  s.setCl c0 { window := [{ readerTile with id := 10, sources := [] }, x] }
theorem test_hyp_step_held : let s := twoEnded sampledTile
    (s.cl c0).tile.begun = false ∧ (s.cl c0).window = [{ readerTile with id := 10, sources := [] }, sampledTile] ∧ sampledTile.isChecked = false ∧
    s.dieOn c0.die = true ∧ Recovered s ∧ (twoEnded readerTile).canIssue c0 = true := by unfold Recovered; decide +kernel
/-- A cluster is suspect only after 5 cards, on every die. -/
def patient : State := allDies.foldl (fun s d => s.sf (key d 0) F.hltSuspectN 5) (sampledAt checkedTile)
theorem test_hyp_vote_cards : ∀ k, (patient.recentCards k).length + 2 < patient.rf (key k.die 0) F.hltSuspectN := by
  intro k
  have h : (patient.cl k).cardStamps = [] := by
    have hc : patient.clusters = (base.setCl c0 { base.cl c0 with window := [{}, checkedTile] }).clusters := by decide +kernel
    show (Sparse.get _ patient.clusters k.no).cardStamps = []
    rw [hc]
    by_cases e : k.no = c0.no
    · rw [e]; decide +kernel
    · exact congrArg Cluster.cardStamps (State.clN_setClN_ne base c0.no k.no _ e)
  have g : ∀ d : Fin 25, patient.rf (key d 0) F.hltSuspectN = 5 := by decide +kernel
  rw [g k.die]
  unfold State.recentCards
  rw [h]
  exact (by decide : 0 + 2 < 5)

theorem test_hyp_drain_now : (session .model [job0]).dieOn 12 = true ∧ InService (session .model [job0]) ∧ (session .model [job0]).pkg.drain = none ∧
    ((session .model [job0]).ses 1).kind ≠ .none ∧ ((live 8 none).ses 1).live = true ∧ (live 8 none).pkg.drain = none := by
  unfold InService; decide +kernel
def drainedBy (d : Drain) : State := { base with parts := [{ dies := BitVec.allOnes 25, state := .recovery }], pkg := { base.pkg with drain := some d } }
def aDrain : Drain := { card := List.replicate 64 5, flagged := [c0, c321] }
theorem test_hyp_record : base.dieOn 12 = true ∧ Recovered (drainedBy aDrain) ∧ (drainedBy aDrain).pkg.drain = some aDrain ∧ aDrain.written = false ∧
    aDrain.card.length = 64 ∧ Recovered base ∧ (drainedBy { aDrain with written := true }).pkg.drain = some { aDrain with written := true } := by
  unfold Recovered; decide +kernel
/-- Die 7 holds a card that die 12 has not taken, and both health cores run. -/
def withCard : State :=
  ((((base.setDie 7 { cards := [List.replicate 64 5, List.replicate 64 6], unsent := 1 }).sf (procBase 7 healthCore) F.fwcProcStatusState 2).sf
    (procBase 12 healthCore) F.fwcProcStatusState 2).sf (procBase 12 sessionCore) F.fwcProcStatusState 2)
theorem test_hyp_archive : withCard.dieOn 7 = true ∧ Recovered withCard ∧ (withCard.die 7).unsent ≠ 0 ∧ withCard.procRuns 7 healthCore = true ∧
    withCard.procRuns 12 healthCore = true ∧ withCard.procRuns 12 sessionCore = true ∧ (withCard.die 7).cards[(withCard.die 7).cards.length - (withCard.die 7).unsent]? =
      some (List.replicate 64 6) ∧ withCard.ect.emergencies.length < 16 := by unfold Recovered; decide +kernel
/-- Die 0's health core runs, and its partition is in TEST with the exams of clusters 0.0.0 and 0.1.0, or in SERVICE below the band. -/
def examining : State := { base.sf (procBase 0 healthCore) F.fwcProcStatusState 2 with
  parts := [{ dies := BitVec.allOnes 25, state := .test, exams := [clusterNo 0 0 0, clusterNo 0 1 0] }] }
def serving : State := (base.sf (procBase 0 healthCore) F.fwcProcStatusState 2).sf (key 0 0) F.pwrTjTemp 300
theorem test_hyp_exam : examining.dieOn c0.die = true ∧ Recovered examining ∧ examining.mayExam c0 = true := by unfold Recovered; decide +kernel
def inRegion (r : Fin 8) : ClusterId := { die := 0, region := r, slot := 16 }
/-- A card against cluster 0.r.16 brings its exam forward, and the die has been below the band for 7 days. -/
def carded (r : Fin 8) : State :=
  let s := serving.setCl (inRegion r) { serving.cl (inRegion r) with cardStamps := [700_000_000_000_000] }
  s.setDie 0 { s.die 0 with stamp := 700_000_000_000_000 }
theorem may_exam_service (s : State) (c : ClusterId) (p : Partition) (hp : s.partOf c.die = some p) (hs : p.state = .service)
    (hr : s.procRuns c.die healthCore = true) (h : s.examReady c = true)
    (hi : ((s.die c.die).recess.isEmpty && !s.bit (key c.die 0) F.hltExamCfgPause && s.bandOk c.die) = true)
    (ho : (clustersOf c.die).all (fun e => !s.examBefore e c) = true) : s.mayExam c = true := by
  have hn : (clustersOf c.die).any (fun e => s.examBefore e c && s.examReady e) = false := by
    rw [List.any_eq_false]
    intro e he
    have := List.all_eq_true.mp ho e he
    simp only [Bool.not_eq_true'] at this
    simp [this]
  unfold State.mayExam
  simp only [Bool.and_eq_true] at hi
  rw [hp]
  simp [hs, hr, h, hn, hi.1.1, hi.1.2, hi.2]
theorem may_exam_carded (r : Fin 8) (h : (carded r).regionOk 0 r = true) (hr : r = 0 ∨ r = 1) : (carded r).mayExam (inRegion r) = true := by
  have ready : (carded r).examReady (inRegion r) = true := by
    unfold State.examReady
    have h' : (carded r).regionOk (inRegion r).die (inRegion r).region = true := h
    rw [h']
    rcases hr with rfl | rfl <;> decide +kernel
  rcases hr with rfl | rfl <;>
    exact may_exam_service _ (inRegion _) { dies := BitVec.allOnes 25, state := .service } (by decide +kernel) rfl (by decide +kernel) ready
      (by decide +kernel) (by decide +kernel)
theorem test_hyp_exam_cold : ∃ s c, (s : State).mayExam c = true ∧ s.dieOn c.die = true ∧ Recovered s ∧ fused c.die c.region = false ∧
    s.partState c.die = some .service ∧ s.junction c.die < 680 := by
  have hrec : ∀ r, r = 0 ∨ r = 1 → Recovered (carded r) := by unfold Recovered; rintro r (rfl | rfl) <;> decide +kernel
  rcases some_region_ok serving 0 (by decide +kernel) (by decide +kernel) with h | h
  · exact ⟨carded 0, inRegion 0, may_exam_carded 0 h.1 (.inl rfl), by decide +kernel, hrec 0 (.inl rfl), h.2, by decide +kernel, by decide +kernel⟩
  · exact ⟨carded 1, inRegion 1, may_exam_carded 1 h.1 (.inr rfl), by decide +kernel, hrec 1 (.inr rfl), h.2, by decide +kernel, by decide +kernel⟩
/-- A cluster of die 0 is in RECESS, from a slot that had this state. -/
def inExam (slot : Fin 17) (seat : Nat) : State :=
  let c : ClusterId := { die := 0, region := 0, slot := slot }
  (serving.setDie 0 { serving.die 0 with recess := [examNo c], seats := [(examNo c, seat)] }).setSlot c 4
theorem test_hyp_exam_end (slot : Fin 17) : ∀ x ∈ [1, 2, 3], (inExam slot x).dieOn 0 = true ∧ Recovered (inExam slot x) ∧
    ((inExam slot x).die 0).recess = [examNo { die := 0, region := 0, slot := slot }] ∧ (∀ p ∈ (inExam slot x).parts, p.leaving = none) ∧
    (inExam slot x).seatState { die := 0, region := 0, slot := slot } = x ∧ (inExam slot x).pkg.drain = none ∧ InService (inExam slot x) := by
  unfold Recovered InService; revert slot; decide +kernel

theorem test_hyp_exam_restarts : let s := (inExam 3 1).sf (procBase 0 healthCore) F.fwcProcStatusState Ps.restarting
    s.dieOn 0 = true ∧ Recovered s ∧ (s.die 0).recess = [examNo { die := 0, region := 0, slot := 3 }] ∧ s.procRuns 0 healthCore = false := by
  unfold Recovered; decide +kernel

def libState (code : Nat) (len : Nat) : State := (base.sf die12 F.hltLibStatusCode code).sf die12 F.hltLibLen len
def noRoute12 (s : State) : State := s.setDie 12 { s.die 12 with noRoute := true }
theorem test_hyp_library_go : (libState 1 5).rf die12 F.hltLibStatusCode = Lib.writing ∧ (libState 0 5).ect.staging = false ∧
    bankSize < (libState 0 (bankSize + 1)).rf die12 F.hltLibLen ∧ (libState 0 bankSize).rf die12 F.hltLibLen ≤ bankSize ∧
    ((libState 0 5).hostRead 12 0 5).2 = false ∧ ((noRoute12 (libState 0 5)).hostRead 12 0 5).2 = true ∧ Recovered (libState 0 5) := by
  unfold Recovered; decide +kernel

/-- A library of no pattern in bank 1, with its signature, where an install of it ends. -/
def library : List Byte := [0x5A, 0x45, 0x4C, 1, 1, 0, 0x25, 0] ++ natLe 4 7 ++ natLe 4 (64 + sigBytes) ++ [0, 0, 3, 0] ++ natLe 4 0
  ++ emptyDigest ++ natLe 8 0
def installing (b : List Byte) (len : Nat) : State :=
  let s := base.flashPokes (bankBase 0) b
  { s with pkg := { s.pkg with install := some { bank := 0, len := len, staged := false } } }
theorem test_hyp_install : (installing library 64).dieOn 12 = true ∧ Recovered (installing library 64) ∧
    ((installing library 64).pkg.install.map (fun i => (i.bank, i.len, i.staged))) = some (0, 64, false) ∧ (installing library 64).phase ≠ 5 := by
  unfold Recovered; decide +kernel
theorem test_hyp_install_bad : (installing [1] 64).libFailure ((installing [1] 64).flashBytes 0 64) 64 none = some Lib.badHeader ∧
    (installing library 64).libFailure ((installing library 64).flashBytes 0 64) 64 none = some Lib.tooLarge := by decide +kernel

def full : State := installing library (64 + sigBytes)
theorem flashBytes_pokes (s t : State) (a k n : Nat) (b : List Byte) (hf : t.flash = (s.flashPokes a b).flash) (hn : n = b.length + k)
    (h : ∀ e, s.flashByte e = 0xFF) : t.flashBytes a n = b ++ List.replicate k 0xFF := by
  subst hn
  have g : ∀ e, t.flashByte e = if a ≤ e ∧ e < a + b.length then b.getD (e - a) 0 else 0xFF := by
    intro e
    have := State.flashByte_flashPokes s a b e
    rw [h e] at this
    rw [← this]
    unfold State.flashByte
    rw [hf]
  unfold State.flashBytes
  refine List.ext_getElem (by simp) (fun i h1 h2 => ?_)
  simp only [List.getElem_map, List.getElem_range, g]
  by_cases e : i < b.length
  · rw [List.getElem_append_left e, if_pos ⟨by omega, by omega⟩, Nat.add_sub_cancel_left]
    simp [e]
  · rw [List.getElem_append_right (by omega), if_neg (by omega)]
    simp
theorem library_length : 64 + sigBytes = library.length + sigBytes := by rw [show library.length = 64 by decide +kernel]
def libraryBytes : List Byte := library ++ List.replicate sigBytes 0xFF
theorem test_hyp_install_bytes : full.flashBytes (bankBase 0) (64 + sigBytes) = libraryBytes :=
  flashBytes_pokes base full (bankBase 0) sigBytes _ library rfl library_length (fun _ => rfl)
/-- A library of these bytes fails no check where its signature verifies. -/
theorem test_hyp_library_good (s : State) (h : s.verifies 1 libraryBytes = true) : s.libFailure libraryBytes (64 + sigBytes) none = none := by
  unfold State.libFailure
  rw [h]
  rw [if_neg (by decide +kernel), if_neg (by decide +kernel), if_neg (by decide +kernel)]
  rw [if_neg (by cases Config.steppingS2 <;> decide +kernel), if_neg (by decide +kernel), if_neg (by decide +kernel)]
  rfl

/-! ### Firmware -/

/-- A package with five empty sections, and die 12's buffer with it in a phase of the start. -/
def fwPackage : List Byte := [0x5A, 0x46, 0x57, 1] ++ natLe 2 1 ++ natLe 2 5 ++ natLe 4 9 ++ natLe 4 (272 + sigBytes) ++ natLe 2 0x25 ++ List.replicate 14 0
  ++ ((List.range 5).flatMap (fun k => natLe 4 (k + 1) ++ natLe 4 272 ++ natLe 4 0 ++ natLe 4 0 ++ emptyDigest))
def boot (phase code : Nat) (b : List Byte) : State :=
  (((base.pokes (dbufAddr 12 0) b).sf die12 F.fwcBootLen (272 + sigBytes)).sf die12 F.fwcStartStatusPhase phase).sf die12 F.fwcBootStatusCode code
def everyProc (st : Nat) (s : State) : State := allProcs.foldl (fun s x => s.setProc x.1 x.2 st) s
theorem test_hyp_boot : (boot 3 0 fwPackage).dieOn 12 = true ∧ Recovered (boot 3 0 fwPackage) ∧ (boot 3 0 fwPackage).phase = 3 ∧
    (boot 4 0 []).phase = 4 ∧ (boot 4 1 []).rf die12 F.fwcBootStatusCode = Fw.busy ∧
    (boot 4 0 [1]).fwFailure ((boot 4 0 [1]).bytes (dbufAddr 12 0) 4) 4 = some Fw.badHeader := by unfold Recovered; decide +kernel
theorem bytes_pokes (s t : State) (a k n : Nat) (b : List Byte) (hm : t.mem = (s.pokes a b).mem) (hn : n = b.length + k)
    (h : ∀ e, s.byte e = 0) : t.bytes a n = b ++ List.replicate k 0 := by
  subst hn
  have g : ∀ e, t.byte e = if a ≤ e ∧ e < a + b.length then b.getD (e - a) 0 else 0 := by
    intro e
    have := State.byte_pokes s a b e
    rw [h e] at this
    rw [← this]
    unfold State.byte
    rw [hm]
  unfold State.bytes
  refine List.ext_getElem (by simp) (fun i h1 h2 => ?_)
  simp only [List.getElem_map, List.getElem_range, g]
  by_cases e : i < b.length
  · rw [List.getElem_append_left e, if_pos ⟨by omega, by omega⟩, Nat.add_sub_cancel_left]
    simp [e]
  · rw [List.getElem_append_right (by omega), if_neg (by omega)]
    simp
theorem package_length : 272 + sigBytes = fwPackage.length + sigBytes := by rw [show fwPackage.length = 272 by decide +kernel]
def packageBytes : List Byte := fwPackage ++ List.replicate sigBytes 0
theorem test_hyp_boot_bytes : (boot 3 0 fwPackage).bytes (dbufAddr 12 0) (272 + sigBytes) = packageBytes :=
  bytes_pokes base _ (dbufAddr 12 0) sigBytes _ fwPackage (by decide +kernel) package_length (fun _ => rfl)
/-- A package of these bytes fails no check where its signature verifies. -/
theorem test_hyp_package_good (s : State) (h : s.verifies 0 packageBytes = true) : s.fwFailure packageBytes (272 + sigBytes) = none := by
  unfold State.fwFailure
  rw [h]
  rw [if_neg (by decide +kernel), if_neg (by decide +kernel), if_neg (by decide +kernel), if_neg (by decide +kernel), if_neg (by decide +kernel),
    if_neg ?_]
  have hx : fwSections packageBytes = (List.range 5).map (fun k => { type := k + 1, off := 272, len := 0, digest := emptyDigest, zero := true }) := by
    decide +kernel
  rw [hx]
  simp [sliceB, test_digest]
def starting (code : Nat) : State := (everyProc Ps.running (boot 4 code fwPackage)).setProc 24 2 Ps.starting
theorem test_hyp_ready : (starting 1).dieOn 24 = true ∧ Recovered (starting 1) ∧ (starting 1).proc 24 2 = Ps.starting ∧ hasProc 24 2 = true ∧
    (starting 1).rf die12 F.fwcBootStatusCode = Fw.busy ∧ (∀ x ∈ allProcs, x ≠ (24, 2) → (starting 1).proc x.1 x.2 = Ps.running) ∧
    (starting 2).rf die12 F.fwcBootStatusCode ≠ Fw.busy := by unfold Recovered; decide +kernel
def activating (code : Nat) : State := (((everyProc Ps.running base).sf die12 F.fwcBootStatusCode 2).sf die12 F.fwcActStatusCode code)
theorem test_hyp_timeout_die : (activating 1).rf die12 F.fwcBootStatusCode ≠ Fw.busy ∧ (activating 1).rf die12 F.fwcActStatusCode = Fw.loading ∧
    Recovered (activating 1) ∧ ((activating 3).setProc 7 1 Ps.restarting).rf die12 F.fwcActStatusCode = Fw.committing ∧
    ((activating 3).setProc 7 1 Ps.restarting).proc 7 1 = Ps.restarting ∧ hasProc 7 1 = true := by unfold Recovered; decide +kernel

/-- Every processor runs, and the processors of die 12 have restarted k times, just now. -/
def restarted (k : Nat) : State :=
  let s := everyProc Ps.running (queues.sf die12 F.fwcBootStatusCode 2)
  s.setDie 12 { s.die 12 with restarts := [(0, List.replicate k 0), (3, List.replicate k 0)] }
theorem test_hyp_restart : (restarted 2).dieOn 12 = true ∧ hasProc 12 3 = true ∧ (restarted 2).proc 12 3 = Ps.running ∧
    ((restarted 2).recentRestarts 12 3).length < 3 ∧ ¬ ((restarted 3).recentRestarts 12 0).length < 3 ∧ Recovered (restarted 2) ∧
    (restarted 2).qState 0 = Qs.active ∧ ((restarted 2).queues.any (fun e => e.1 == 3)) = true ∧ (restarted 2).qDie 3 = 12 ∧
    (restarted 2).qState 3 = Qs.active ∧ (restarted 2).rf die12 F.fwcBootStatusCode ≠ Fw.busy := by unfold Recovered; decide +kernel
def inRestart (p : Nat) : State := ((restarted 0).setProc 12 p Ps.restarting).sf (queueBase 12 0) F.fwcQStatusState Qs.stalled
theorem test_hyp_restart_done : (inRestart 1).dieOn 12 = true ∧ (inRestart 1).proc 12 1 = Ps.restarting ∧ (inRestart 3).proc 12 3 = Ps.restarting ∧
    (inRestart 3).sec.held = false ∧ (inRestart 3).qState 0 = Qs.stalled ∧ (inRestart 3).ect.held = [] ∧ Recovered (inRestart 3) := by
  unfold Recovered; decide +kernel

theorem test_hyp_activate : (activating 0).dieOn 12 = true ∧ Recovered (activating 0) ∧ (activating 0).rf die12 F.fwcBootStatusCode = Fw.ok ∧
    (activating 0).activating = false ∧ (activating 0).anySession = false ∧ (noRoute12 (activating 0)).activating = false ∧
    ((noRoute12 (activating 0)).hostRead 12 0 8).2 = true ∧ ((activating 0).hostRead 12 0 0).2 = false ∧
    (activating 0).fwFailure [] 0 = some Fw.badHeader := by unfold Recovered; decide +kernel
/-- The package of this size in host memory. -/
def sent : State := ((activating 0).pokes (hostAddr 0) fwPackage).sf die12 F.fwcActLen (272 + sigBytes)
theorem test_hyp_sent : sent.hostRead 12 0 (272 + sigBytes) = (packageBytes, false) := by
  have b : sent.bytes (hostAddr 0) (272 + sigBytes) = packageBytes :=
    bytes_pokes base _ (hostAddr 0) sigBytes _ fwPackage (by decide +kernel) package_length (fun _ => rfl)
  have p : sent.anyPoison (hostAddr 0) (272 + sigBytes) = false := by decide +kernel
  unfold State.hostRead
  rw [if_neg (by decide +kernel), b, p]
def atStamp (s : State) (t : W64) : State := s.setDie 12 { s.die 12 with stamp := t }
def committing (again : Bool) : State :=
  let s := atStamp (activating 3) 10_000_005
  { s with fw := { s.fw with commitStamp := some 5, commitRestart := again } }
def emergencySince : State := let s := atStamp (activating 2) 1_000_000_007; { s with fw := { s.fw with firstEmergency := some 7, lastEmergency := some 8 } }
theorem test_hyp_commit : AllMayRestart emergencySince ∧ emergencySince.emergencyNow = false ∧
    emergencySince.rf die12 F.fwcActStatusCode = Fw.waitEmergency ∧ emergencySince.fw.firstEmergency = some 7 ∧
    (7 : W64).toNat + tenSeconds ≤ (emergencySince.stamp 12).toNat ∧ emergencySince.fw.lastEmergency = some 8 ∧
    (8 : W64).toNat + hundredMs ≤ (emergencySince.stamp 12).toNat ∧ Recovered emergencySince := by
  unfold AllMayRestart Recovered; decide +kernel
theorem test_hyp_confirm : AllMayRestart (committing true) ∧ (committing true).rf die12 F.fwcActStatusCode = Fw.committing ∧
    (committing true).fw.commitStamp = some 5 ∧ (5 : W64).toNat + hundredMs ≤ ((committing true).stamp 12).toNat ∧
    (committing true).fw.commitRestart = true ∧ (committing false).fw.commitRestart = false ∧ AllMayRestart (committing false) ∧
    (committing true).rf die12 F.fwcBootStatusCode = Fw.ok := by unfold AllMayRestart; decide +kernel
theorem test_hyp_emergency_now : ((activating 2).sf (key 4 0) F.pwrStatusEmergency 1).emergencyNow = true := by decide +kernel

/-! ### Reset and start-up -/

def inPackageReset (low : Bool) : State := { base with pkg := { base.pkg with powered := true, resetLow := low, keyReset := !low } }
theorem test_hyp_package_reset : base.dieOn 12 = true ∧ Recovered base ∧ (0 : W32) ≠ 0x5053_5421 ∧ (inPackageReset true).pkg.resetLow = true ∧
    (inPackageReset false).pkg.keyReset = true ∧ (inPackageReset false).pkg.resetLow = false := by unfold Recovered; decide +kernel
def inPhase (p : Nat) : State := base.sf die12 F.fwcStartStatusPhase p
def host4 : List Training := [3, 2, 8, 20, 30, 39].map (fun l => { link := l, lowOk := true, highOk := l.val != 8, partner := .mha4 5 1, rttNs := 90 })
theorem test_hyp_phases : (inPhase 1).on = true ∧ Recovered (inPhase 1) ∧ (inPhase 1).phase = 1 ∧ (inPhase 2).phase = 2 ∧ hostRoles [] = [] ∧
    hostRoles host4 = [2, 8, 20, 30] ∧ (inPhase 6).phase = 6 ∧ (inPhase 6).pkg.examsDone = false ∧ (inPhase 6).emergencyNow = false ∧
    (inPhase 5).phase = 5 ∧ (inPhase 5).pkg.trained = false := by unfold Recovered; decide +kernel
/-- A flash whose banks hold no library, and one with the library above in its bank 0. -/
def noLibrary : State := ((inPhase 5).flashPokes (bankBase 0 + 12) (natLe 4 0)).flashPokes (bankBase 1 + 12) (natLe 4 0)
theorem test_hyp_no_library : noLibrary.bankPasses 0 = false ∧ noLibrary.bankPasses 1 = false ∧ noLibrary.selectedBank.getD 0 = 0 ∧
    noLibrary.phase = 5 := by decide +kernel
def withLibrary : State := (inPhase 5).flashPokes (bankBase 0) library
theorem test_hyp_library (h : withLibrary.verifies 1 libraryBytes = true) : withLibrary.bankPasses 0 = true := by
  have n : min (leNat (withLibrary.flashBytes (bankBase 0 + 12) 4)) bankSize = 64 + sigBytes := by decide +kernel
  have b : withLibrary.flashBytes (bankBase 0) (64 + sigBytes) = libraryBytes :=
    flashBytes_pokes (inPhase 5) withLibrary (bankBase 0) sigBytes _ library rfl library_length (fun _ => rfl)
  unfold State.bankPasses
  simp only [n]
  rw [b, test_hyp_library_good _ h]
  rfl
theorem test_hyp_training : let g : List GddrTraining := [⟨0, 2, 2⟩, ⟨4, 1, 1⟩, ⟨6, 1, 1⟩, ⟨24, 1, 2⟩, ⟨23, 0, 1⟩]
    let x : List CxlTraining := [⟨0, 16, 1024⟩, ⟨3, 8, 1⟩, ⟨1, 0, 0⟩]
    (g.map (·.die)).Nodup ∧ (x.map (·.port)).Nodup ∧ isPerimeter 0 = true ∧ isPerimeter 24 = true ∧ isPerimeter 6 = false := by decide +kernel
theorem test_hyp_chart : (inPhase 7).on = true ∧ Recovered (inPhase 7) ∧ (inPhase 7).phase = 7 ∧ (inPhase 7).hasDrainRecord = false ∧
    (inPhase 7).pkg.drain = none := by unfold Recovered; decide +kernel
def admin (lo a b : Nat) : State := (((base.sf die12 F.fwcBootStatusCode 2).sf die12 F.fwcAdminSqLo lo).sf die12 F.fwcAdminSizeSq a).sf die12 F.fwcAdminSizeCq b
theorem test_hyp_admin : (admin 4096 4 16).dieOn 12 = true ∧ Recovered (admin 4096 4 16) ∧ (admin 4096 4 16).rf die12 F.fwcBootStatusCode = Fw.ok ∧
    (admin 4096 4 16).qState 0 = Qs.unused ∧ (admin 4096 4 16).rf die12 F.fwcAdminSizeCq = 16 ∧ (admin 4096 4 16).rf die12 F.fwcAdminSqLo = 4096 ∧
    (admin 64 4 16).rf die12 F.fwcAdminSqLo % 4096 ≠ 0 ∧ (admin 0 4 17).rf die12 F.fwcAdminSizeCq = 17 ∧
    queues.qState 0 ≠ Qs.unused := by unfold Recovered; decide +kernel

/-- A request for a reset of some dies, in phase 8. -/
def resetOf (m : Nat) : State := let s := session .model [job0]; (s.sf die12 F.fwcStartStatusPhase 8).sf die12 F.fwcPartDies m
def resetting : State := { resetOf 3 with parts := [{ dies := BitVec.allOnes 25, waiting := 1 }] }
theorem test_hyp_partition : (resetOf 0x63).dieOn 12 = true ∧ (resetOf 0x63).phase = 8 ∧ (resetOf 0x63).partBusy = false ∧
    connected (BitVec.ofNat 25 ((resetOf 0x63).rf die12 F.fwcPartDies)) = true ∧ (∀ p ∈ (resetOf 0x63).parts, p.poisonResets = 0) ∧
    resetting.partBusy = true ∧ connected (BitVec.ofNat 25 ((resetOf 5).rf die12 F.fwcPartDies)) = false ∧ Recovered (resetOf 5) ∧
    (inPhase 5).phase ≠ 8 ∧ Recovered resetting := by unfold Recovered; decide +kernel
def waitingPart : Partition := { dies := 0x63, waiting := 0x63 }
def coresReady : State := { everyProc Ps.running base with parts := [waitingPart, { dies := 0x1FFFF9C, state := .service }] }
theorem test_hyp_partition_ready : coresReady.dieOn 6 = true ∧ coresReady.pev = [] ∧ coresReady.partOf 6 = some waitingPart ∧
    waitingPart.state = .startUp ∧ waitingPart.waiting ≠ 0 ∧ waitingPart.poisonResets < 3 ∧ (diesOf waitingPart.dies).all coresReady.coresRun = true := by
  decide +kernel

/-! ### Memory -/

/-- GDDR7 of die 0 with 24 Gbit devices, and page tables in it for session 1: 0x40_0001_0000 maps a page, 0x40_0020_0000 2 MiB. -/
def withGddr : State :=
  ((base.sf (key 0 0) F.memGdStatusTrained 3).sf (key 0 0) F.memGdStatusAbsent 0).sf (key 0 0) F.memGdCfgDensity 1
def va0 : Nat := 0x40_0001_0200
def va1 : Nat := 0x40_0020_0200
def mapped : State :=
  let s := withGddr.pokes 0x1000 (natLe 8 0x2005)
  let s := s.pokes (0x2000 + 8 * 256) (natLe 8 0x3005)
  let s := (s.pokes 0x3000 (natLe 8 0x4005)).pokes 0x3008 (natLe 8 0x20_0007)
  (s.pokes (0x4000 + 8 * 1) (natLe 8 0x3_0003)).setSes 1 { kind := .model, dies := BitVec.allOnes 25, root := 0x1000, homeroom := 0 }
theorem test_hyp_entry_1 : GoodEntry mapped (BitVec.allOnes 25) 0x1000 1 va0 true :=
  ⟨by decide +kernel, by decide +kernel, ⟨0, by decide +kernel⟩, by decide +kernel, by decide +kernel, by decide +kernel, by decide +kernel⟩
theorem test_hyp_entry_2 : fieldN (entryAt mapped 0x1000 1 va0) 51 8 * 256 = 0x2000 ∧ GoodEntry mapped (BitVec.allOnes 25) 0x2000 2 va0 true :=
  ⟨by decide +kernel, by decide +kernel, by decide +kernel, ⟨0, by decide +kernel⟩, by decide +kernel, by decide +kernel, by decide +kernel,
    by decide +kernel⟩
theorem test_hyp_entry_3 : fieldN (entryAt mapped 0x2000 2 va0) 51 8 * 256 = 0x3000 ∧ GoodEntry mapped (BitVec.allOnes 25) 0x3000 3 va0 true ∧
    GoodEntry mapped (BitVec.allOnes 25) 0x3000 3 va1 true ∧ bitN (entryAt mapped 0x3000 3 va0) 1 = false ∧ bitN (entryAt mapped 0x3000 3 va1) 1 = true ∧
    mapped.mayHold (BitVec.allOnes 25) 0x20_0000 = true :=
  ⟨by decide +kernel, ⟨by decide +kernel, by decide +kernel, ⟨0, by decide +kernel⟩, by decide +kernel, by decide +kernel, by decide +kernel,
    by decide +kernel⟩, ⟨by decide +kernel, by decide +kernel, ⟨0, by decide +kernel⟩, by decide +kernel, by decide +kernel, by decide +kernel,
    by decide +kernel⟩, by decide +kernel, by decide +kernel, by decide +kernel⟩
theorem test_hyp_entry_4 : fieldN (entryAt mapped 0x3000 3 va0) 51 8 * 256 = 0x4000 ∧ GoodEntry mapped (BitVec.allOnes 25) 0x4000 4 va0 false ∧
    fieldN (entryAt mapped 0x4000 4 va0) 51 8 * 256 = 0x3_0000 ∧ mapped.mayHold (BitVec.allOnes 25) 0x3_0000 = true :=
  ⟨by decide +kernel, ⟨by decide +kernel, by decide +kernel, ⟨0, by decide +kernel⟩, by decide +kernel, by decide +kernel, by decide +kernel,
    by decide +kernel⟩, by decide +kernel, by decide +kernel⟩
/-- The walks end where the entries say, and one whose first entry is empty is not valid. -/
theorem test_walk : mapped.walk 3 1 va0 false = .ok 0x3_0200 false ∧ mapped.walk 3 1 va1 true = .ok 0x20_0200 true ∧
    mapped.walk 3 1 va0 true = .fault Fk.notWritable 4 0x3_0003 ∧ mapped.walk 3 1 0x80_0000_0000 false = .fault Fk.notValid 1 0 ∧
    mapped.walk 3 1 0x1_0000_0000_0000 false = .fault Fk.badTarget 1 0 := by decide +kernel

/-- Fetch queue 5 of engine 0.0.0 is parked on a fault, at an address that session 1 maps or not; records wait in the fault ring of die 0. -/
def faultAt (va : Nat) (write : Bool) : QueueFault := { va := va, write := write, kind := Fk.notValid, level := 1, entry := 0 }
def parked (va : Nat) (write : Bool) (fs : List FaultRecord) (written : Nat) : State :=
  let s := ((mapped.sf (c0.fetchBase 5) F.fetQStatusState Fq.parkedFault).sf (c0.fetchBase 5) F.fetQCtrlSession 1).setFq c0 5
    { mapped.fq c0 5 with fault := some (faultAt va write) }
  let s := (s.sf (procBase 0 serviceCore) F.fwcProcStatusState 2).sf (key 0 0) F.memFaultSize 4
  let s := ((s.sf (lnkBase 0) F.lnkStatusState 2).sf (lnkBase 0) F.lnkStatusPartner 2).setLnk 0 { role := 2, credits := [64, 128, 256, 64] }
  let s := (s.sf (key 0 0) F.lnkHroutePrimaryValid 1).sf (key 0 0) F.lnkHroutePrimary 0
  s.setDie 0 { s.die 0 with faults := fs, faultWritten := written, faultNext := 2 }
def openRecord (qs : List Nat) : FaultRecord :=
  { id := 1, session := 1, kind := Fk.notValid, write := false, va := 0x80_0000_0100, level := 1, lclus := 0, queues := qs, entry := 0, ring := true }
/-- All that Unreported says but that no packet waits at a link. -/
def Parks (s : State) (va : Nat) : Prop :=
  s.dieOn c0.die = true ∧ InService s ∧ (s.fq c0 5).fault = some (faultAt va false) ∧ s.fqState c0 5 = Fq.parkedFault ∧
  s.procRuns c0.die serviceCore = true ∧ ∀ g ∈ (s.die c0.die).faults, c0.fetchNo 5 ∉ g.queues
theorem unreported_of (s : State) (va : Nat) (h : Parks s va) (u : ∀ e ∈ s.links, e.2.waiting = []) : Unreported s c0 5 (faultAt va false) :=
  ⟨h.1, h.2.1, unloaded_of s u, h.2.2.1, h.2.2.2.1, h.2.2.2.2.1, h.2.2.2.2.2⟩
theorem test_hyp_report : Unreported (parked va0 false [] 0) c0 5 (faultAt va0 false) ∧ ((parked va0 false [] 0).retryWalk c0 5).1 = true :=
  ⟨unreported_of _ _ (by unfold Parks InService; decide +kernel) (by decide +kernel), by decide +kernel⟩
theorem test_hyp_report_new : let s := parked 0x80_0000_0000 false [openRecord []] 0
    Unreported (parked 0x80_0000_0000 false [] 0) c0 5 (faultAt 0x80_0000_0000 false) ∧
    ((parked 0x80_0000_0000 false [] 0).retryWalk c0 5).1 = false ∧ (parked 0x80_0000_0000 false [] 0).route 0 = some 0 ∧
    0 < (parked 0x80_0000_0000 false [] 0).faultSize 0 ∧ 2 ≤ ((parked 0x80_0000_0000 false [] 0).lnk 0).credits.getD 2 0 ∧
    ((parked 0x80_0000_0000 false [] 0).lnk 0).unacked ≤ 240 ∧ (∀ y ∈ (s.die 0).faults, y.id ≠ (s.die 0).faultNext ∧ y.ring = true) :=
  ⟨unreported_of _ _ (by unfold Parks InService; decide +kernel) (by decide +kernel), by decide +kernel⟩
theorem test_hyp_report_full : Unreported (parked 0x80_0000_0000 false [] 16) c0 5 (faultAt 0x80_0000_0000 false) ∧
    ((parked 0x80_0000_0000 false [] 16).retryWalk c0 5).1 = false ∧ (parked 0x80_0000_0000 false [] 16).faultSize 0 ≤ 16 :=
  ⟨unreported_of _ _ (by unfold Parks InService; decide +kernel) (by decide +kernel), by decide +kernel⟩
theorem test_hyp_report_join : Unreported (parked 0x80_0000_0000 false [openRecord []] 1) c0 5 (faultAt 0x80_0000_0000 false) ∧
    ((parked 0x80_0000_0000 false [openRecord []] 1).retryWalk c0 5).1 = false ∧
    ((parked 0x80_0000_0000 false [openRecord []] 1).die 0).faults.find? (fun g => g.session == 1 && g.va / 2 ^ 16 == 0x80_0000_0000 / 2 ^ 16)
      = some (openRecord []) :=
  ⟨unreported_of _ _ (by unfold Parks InService; decide +kernel) (by decide +kernel), by decide +kernel⟩
theorem test_hyp_answer : let s := parked va0 false [openRecord [c0.fetchNo 5]] 1
    s.dieOn 0 = true ∧ InService s ∧ (s.die 0).faults.find? (fun f => f.ring && f.id.toNat % 65536 == getF (1 : W32) 15 0) =
      some (openRecord [c0.fetchNo 5]) ∧ (s.die 0).faults.find? (fun f => f.ring && f.id.toNat % 65536 == getF (2 : W32) 15 0) = none ∧
    s.fqState c0 5 = Fq.parkedFault ∧ (s.fq c0 5).fault = some (faultAt va0 false) ∧ (s.retryWalk c0 5).1 = true ∧
    (s.die 0).faults.find? (fun g => g.ring && g.id == (1 : W32)) = some (openRecord [c0.fetchNo 5]) ∧
    s.rf (procBase 0 serviceCore) F.fwcProcStatusState ≠ Ps.restarting ∧ Unloaded s ∧
    let r := s.sf (procBase 0 serviceCore) F.fwcProcStatusState Ps.restarting
    r.rf (procBase 0 serviceCore) F.fwcProcStatusState = Ps.restarting ∧ Recovered r :=
  ⟨by decide +kernel, by unfold InService; decide +kernel, by decide +kernel, by decide +kernel, by decide +kernel, by decide +kernel,
    by decide +kernel, by decide +kernel, by decide +kernel, unloaded_of _ (by decide +kernel), by decide +kernel, by unfold Recovered; decide +kernel⟩
theorem test_hyp_answer_fails : let s := parked 0x80_0000_0000 true [openRecord [c0.fetchNo 5]] 1
    (s.retryWalk c0 5).1 = false ∧ (s.fq c0 5).fault = some (faultAt 0x80_0000_0000 true) ∧ InService s ∧ getF (0x1_0001 : W32) 16 16 = 1 := by
  unfold InService; decide +kernel
theorem test_hyp_fault_head : let s := parked va0 false [openRecord [c0.fetchNo 5]] 16
    s.dieOn 0 = true ∧ Recovered s ∧ s.faultSize 0 = 16 ∧ getF (15 : W32) 11 0 < 16 ∧ (15 + 16 - (s.die 0).faultRead % 16) % 16 = 15 ∧
    15 ≤ (s.die 0).faultWritten - (s.die 0).faultRead ∧ (∀ f ∈ (s.die 0).faults, f.ring = true) := by unfold Recovered; decide +kernel

def invalidating (busy ses len : Nat) : State :=
  (((mapped.sf (key 0 0) F.memInvStatusBusy busy).sf (key 0 0) F.memInvCtrlSession ses).sf (key 0 0) F.memInvLen len).setDie 0
    { mapped.die 0 with invalid := some { session := 1, first := 0, pages := 4, all := false },
                        cache := [{ session := 1, page := 3, phys := 0, writable := true }, { session := 1, page := 4, phys := 0, writable := true }] }
theorem test_hyp_invalidate : (invalidating 1 1 0).bit (key 0 0) F.memInvStatusBusy = true ∧ ((invalidating 0 2 4).ses 2).kind = .none ∧
    ((invalidating 0 1 4).ses 1).kind ≠ .none ∧ ((invalidating 0 1 4).ses 1).homeroom = 0 ∧ (invalidating 0 1 4).rf (key 0 0) F.memInvLen ≠ 0 ∧
    Recovered (invalidating 0 1 4) ∧ (invalidating 1 1 4).oldRequests (BitVec.allOnes 25) { session := 1, first := 0, pages := 4, all := false } = false ∧
    (invalidating 1 1 4).partOf 0 = some { dies := BitVec.allOnes 25, state := .service } := by unfold Recovered; decide +kernel

theorem test_hyp_aperture : base.target c321.store = .store 3 2 1 0 ∧ base.target (dbufAddr 24 0xEF_FFFC) = .dbuf 24 0xEF_FFFC ∧
    base.target (dbufAddr 24 0xF0_0000) = .dbuf 24 0xF0_0000 ∧ base.granuleOwned 24 0xEF_FFFC = false ∧ base.target 0x1_0000 = .absent ∧
    base.rf (key 3 (clusterOff 2 1)) F.exeStatusState = Ex.idle ∧ (running 0).rf (key 0 (clusterOff 0 0)) F.exeStatusState = Ex.running ∧
    (base.setDie 24 { windows := [(0, some (1, 0, 224))] }).granuleOwned 24 0 = true ∧ Recovered base := by unfold Recovered; decide +kernel
theorem test_hyp_refresh_devices : withGddr.dieOn 0 = true ∧ Recovered withGddr ∧ withGddr.gddrUp 0 = true ∧
    (withGddr.sf (key 0 0) F.memGdCfgPatrolEn 1).bit (key 0 0) F.memGdCfgPatrolEn = true ∧ 64 * 0x5FF_FFFF < withGddr.gddrSize 0 ∧
    withGddr.pdirCount 0 < 16384 := by unfold Recovered; decide +kernel
def cxl (up : Nat) : State :=
  (((base.sf (portBase 3) F.memCxlStatusLinkUp up).sf (portBase 3) F.memCxlStatusDevicePresent 1).sf (portBase 3) F.memCxlStatusGib 1024)
theorem test_hyp_cxl : (cxl 1).dieOn (corners.getD 3 0) = true ∧ Recovered (cxl 1) ∧ (cxl 1).bit (portBase 3) F.memCxlStatusLinkUp = true ∧
    (cxl 0).bit (portBase 3) F.memCxlStatusLinkUp = false ∧ (cxl 0).bit (portBase 3) F.memCxlStatusDevicePresent = true := by
  unfold Recovered; decide +kernel

/-- Session 1 has come to step 100 with its list on cluster 0.0.0, HLT_WDIG_N is 100, and a weight section lies in the page at va0 (where the load of
a section puts it is no value of the model); its byte there is b. -/
def weighted (b : Byte) : State :=
  let s := (((mapped.sf c0.base F.exeSession 1).setStepCopy c0 100).sf die12 F.hltWdig 100).pokes 0x3_0200 [b]
  s.setSes 1 { s.ses 1 with image := { weights := [[4]], lists := [{ lclus := 0, line := 0, sizeLog2 := 4, streamed := false, words := [], len := 4, advSteps := 0 }] } }
theorem test_hyp_weights (b : Byte) (h : b = 4 ∨ b = 5) : (weighted b).dieOn 0 = true ∧ ((weighted b).ses 1).kind ≠ .none ∧
    ((weighted b).ses 1).image.weights[0]? = some [4] ∧ (weighted b).wdigDue 1 0 = true ∧ (weighted b).holdsCopy 1 0 va0 1 = true ∧
    (weighted b).holdsCopy 1 24 va0 1 = false ∧ (digest32 ((weighted b).virtRead 0 1 va0 1).1 = digest32 [4] ↔ b = 4) ∧ Recovered (weighted b) ∧
    InService (weighted b) ∧ (weighted b).pkg.drain = none ∧ Unloaded (weighted b) := by
  rcases h with rfl | rfl <;> exact ⟨by decide +kernel, by decide +kernel, by decide +kernel, by decide +kernel, by decide +kernel,
    by decide +kernel, by decide +kernel, by unfold Recovered; decide +kernel, by unfold InService; decide +kernel, by decide +kernel,
    unloaded_of _ (by decide +kernel)⟩

/-! ### Links -/

/-- Link 0 of die 0 is up to an MHA-4, with GDDR7 behind it; two flits are not acknowledged, and the second has been sent seven times or eight. -/
def hostLink : State :=
  ((withGddr.sf (lnkBase 0) F.lnkStatusState 2).sf (lnkBase 0) F.lnkStatusPartner 2).setLnk 0
    { role := 2, txSeq := 5, replay := [{ bytes := [1] }, { bytes := [2], sends := 7 }], credits := [10, 20, 30, 40] }
def wornLink : State := hostLink.setLnk 0 { hostLink.lnk 0 with replay := [{ bytes := [1] }, { bytes := [2], sends := 8 }] }
def hostLinkSeq : State := hostLink.setLnk 0 { hostLink.lnk 0 with rxSeq := 7 }

/-- Flits with a header, its CRC and its check symbols: a data flit that acknowledges flit 3, and an IDLE flit with NAK for flit 3. -/
def flitOf (h crc fec : List Byte) : List Byte := h ++ List.replicate 224 0 ++ crc ++ fec
def dataFlit : List Byte := flitOf [0, 0x30, 0, 8, 1, 2, 3, 4] [0x43, 0x31, 0x94, 0x47, 0x8A, 0x76, 0x1F, 0x2E]
  [0x8F, 0x09, 0x1D, 0xD3, 0x81, 0xC1, 0x2C, 0x9E, 0x8D, 0xEE, 0xB1, 0xA9, 0x8D, 0xF9, 0xCE, 0x2B]
def nakFlit : List Byte := flitOf [0, 0x20, 0, 3, 0, 0, 0, 0] [0xC4, 0xC4, 0x5C, 0x03, 0x25, 0x09, 0xDE, 0x9F]
  [0x84, 0x1C, 0x18, 0x59, 0x69, 0x8C, 0x74, 0x0C, 0x5F, 0x40, 0x28, 0x04, 0x76, 0xE6, 0xE3, 0x15]
def zeroFlit : List Byte := List.replicate 256 0
/-- Eight errors whose syndromes are all 0 but the last. -/
def badFlit : List Byte := List.replicate 240 0 ++ [1, 0, 127, 0, 122, 0, 154, 0, 164, 0, 11, 0, 68, 0, 117, 0]

theorem test_fec : fecDecode dataFlit = some (dataFlit, false) := by decide +kernel
theorem test_fec_nak : fecDecode nakFlit = some (nakFlit, false) := by decide +kernel
theorem test_fec_bad : fecDecode badFlit = none := by decide +kernel
theorem test_hyp_flit : hostLink.dieOn (linkDie 0) = true ∧ Recovered hostLink ∧ hostLink.linkUp 0 = true ∧ (hostLink.lnk 0).waiting = [] ∧ NoneHeld hostLink ∧
    fieldN (leNat (dataFlit.take 8)) 11 0 = ((hostLink.lnk 0).rxSeq + 1).toNat ∧ bitN (leNat (dataFlit.take 8)) 24 = false ∧
    fieldN (leNat (dataFlit.take 8)) 11 0 ≠ ((hostLinkSeq.lnk 0).rxSeq + 1).toNat := by unfold Recovered NoneHeld; decide +kernel
set_option maxRecDepth 20000 in
theorem test_hyp_flit_crc : (crc64 (dataFlit.take 232)).toNat = beNat (sliceB dataFlit 232 8) := by decide +kernel
set_option maxRecDepth 20000 in
theorem test_hyp_flit_nak : (crc64 (nakFlit.take 232)).toNat = beNat (sliceB nakFlit 232 8) ∧ bitN (leNat (nakFlit.take 8)) 24 = true ∧
    (fieldN (leNat (nakFlit.take 8)) 23 12 + 1 + 4096 - ((hostLink.lnk 0).txSeq - BitVec.ofNat 12 (hostLink.lnk 0).unacked).toNat) % 4096 = 0 ∧
    (∀ g ∈ (hostLink.lnk 0).replay, g.sends < 8) ∧ (∃ g ∈ (wornLink.lnk 0).replay, 8 ≤ g.sends) ∧ (hostLink.lnk 0).unacked = 2 := by decide +kernel
theorem test_fec_zero : fecDecode zeroFlit = some (zeroFlit, false) := by decide +kernel
set_option maxRecDepth 20000 in
theorem test_hyp_flit_crc_bad : (crc64 (zeroFlit.take 232)).toNat ≠ beNat (sliceB zeroFlit 232 8) := by
  decide +kernel

theorem test_hyp_packets : HostLinkReady hostLink 0 224 ∧ InService hostLink ∧ hostLink.target 0x40 = .gddr 0 ∧ hostLink.target 0x1_8000_0000 = .absent ∧
    Recovered hostLink ∧ hostLink.target (0xF_F000_0000_0000 + 24 * 0x100_0000 + 0x7A_0018) = .control 24 0x7A_0018 ∧ hostLink.dieOn 24 = true := by unfold HostLinkReady InService Recovered; decide +kernel
def writesOut : State := { hostLink with hostw := [⟨0, 0, 1, 0x40, [1], none, false⟩, ⟨3, 2, 1, 0x80, [2], some 3, false⟩, ⟨0, 0, 2, 0xC0, [3], none, false⟩] }

/-- Link 11 of die 4 is up to another CQ25 of the group; channel 31 of both rings is enabled for session 1, whose window lies on die 4. -/
def groupLink (t r : LinkChannel) : State :=
  let s := (base.setDie 4 { windows := [(0, some (1, 2, 2))] }).setSes 1 { kind := .model, state := .open_, dies := BitVec.allOnes 25 }
  let s := (s.sf (lnkBase 11) F.lnkStatusState 2).sf (lnkBase 11) F.lnkStatusPartner 1
  let s := s.setLnk 11 { role := 1, tx := [(31, t)], rx := [(31, r)], credits := [64, 128, 256, 64] }
  let s := [false, true].foldl (fun s r =>
    ((((s.csf 11 r 31 F.lnkChCtrlEnable 1).csf 11 r 31 F.lnkChStatusActive 1).csf 11 r 31 F.lnkChCtrlSession 1).csf 11 r 31 F.lnkChSize 16).csf 11 r 31
      F.lnkChPeer 31) s
  (s.csf 11 false 31 F.lnkChSemSem 9).csf 11 true 31 F.lnkChSemPostLines 2
def ring0 : LinkChannel := { base := dbufAddr 4 0x2_0000, lines := 16 }
def sentSome : State := groupLink { ring0 with sent := 17, credited := 14, covered := [((dbufAddr 4 0x2_0000 + 64) / 64, allCovered)] }
  { ring0 with written := 15, freed := 0, unposted := 1 }
/-- Place 15 of the receive ring holds a line that has not been read whole. -/
def unread : State := groupLink ring0 { ring0 with written := 15, full := [15] }
def skipping : State := groupLink ring0 { ring0 with skip := 2 }
theorem test_hyp_credit : sentSome.dieOn (linkDie 11) = true ∧ sentSome.linkUp 11 = true ∧ sentSome.crf 11 false 31 F.lnkChStatusActive = 1 ∧
    (sentSome.ses (sentSome.crf 11 false 31 F.lnkChCtrlSession)).pauseTo = none ∧
    3 ≤ (Sparse.get (fun _ => ({} : LinkChannel)) (sentSome.lnk 11).tx 31).sent -
      (Sparse.get (fun _ => ({} : LinkChannel)) (sentSome.lnk 11).tx 31).credited := by decide +kernel
theorem test_hyp_line : Recovered sentSome ∧ sentSome.groupLinkUp 11 = true ∧ sentSome.crf 11 true 31 F.lnkChStatusActive = 1 ∧
    (Sparse.get (fun _ => ({} : LinkChannel)) (sentSome.lnk 11).rx 31).skip = 0 ∧
    (Sparse.get (fun _ => ({} : LinkChannel)) (sentSome.lnk 11).rx 31).full.mem 15 = false ∧
    (Sparse.get (fun _ => ({} : LinkChannel)) (unread.lnk 11).rx 31).full.mem 15 = true ∧ Recovered unread ∧
    0 < (Sparse.get (fun _ => ({} : LinkChannel)) (skipping.lnk 11).rx 31).skip ∧ Recovered skipping := by unfold Recovered; decide +kernel
def poisonLine : State := { sentSome with poison := [(dbufAddr 4 0x2_0000 + 64) / 64] }
theorem test_hyp_send : let c := Sparse.get (fun _ => ({} : LinkChannel)) (sentSome.lnk 11).tx 31
    let a := c.base + 64 * (c.sent % c.lines)
    c.sent - c.credited < c.lines ∧ Sparse.get (fun _ => 0) c.covered (a / 64) = allCovered ∧ sentSome.poisoned a = false ∧
    (sentSome.lnk 11).waiting = [] ∧ 1 ≤ (sentSome.lnk 11).credits.getD 2 0 ∧ (sentSome.lnk 11).unacked < 256 ∧
    poisonLine.poisoned a = true := by decide +kernel

/-- The link's select register names its receive channel 31, which is not enabled yet. -/
def selecting (size : Nat) : State :=
  let s := (groupLink ring0 ring0).csf 11 true 31 F.lnkChCtrlEnable 0
  ((s.csf 11 true 31 F.lnkChSize size).sf (lnkBase 11) F.lnkChSelReceive 1).sf (lnkBase 11) F.lnkChSelChan 31
theorem test_hyp_channel : (selecting 16).selChannel 11 = (true, 31) ∧ (selecting 16).crf 11 true 31 F.lnkChCtrlEnable ≠ 1 ∧
    (selecting 16).goodLinkChannel 11 true 31 = true ∧ (selecting 17).goodLinkChannel 11 true 31 = false ∧ Recovered (selecting 16) ∧
    sentSome.crf 11 (sentSome.selChannel 11).1 (sentSome.selChannel 11).2 F.lnkChCtrlEnable ≠ 1 ∧
    ((groupLink ring0 ring0).sf (lnkBase 11) F.lnkChSelChan 31).crf 11 false 31 F.lnkChCtrlEnable = 1 := by unfold Recovered; decide +kernel
def groupDown : State := sentSome.sf (lnkBase 11) F.lnkStatusState 1
theorem test_hyp_hold : (groupDown.lnk 11).role = 1 ∧ groupDown.linkUp 11 = false ∧ sentSome.linkUp 11 = true ∧ Recovered sentSome := by
  unfold Recovered; decide +kernel

/-- The primary of die 7 is link 0, its secondary link 8, both up; host writes wait for acknowledgement on link 0. -/
def routed : State :=
  let s := ((writesOut.sf (lnkBase 8) F.lnkStatusState 2).sf (lnkBase 8) F.lnkStatusPartner 2).setLnk 8 { role := 2 }
  let s := (s.sf (key 7 0) F.lnkHroutePrimaryValid 1).sf (key 7 0) F.lnkHrouteSecondaryValid 1
  let s := (s.sf (key 7 0) F.lnkHroutePrimary 0).sf (key 7 0) F.lnkHrouteSecondary 8
  { s with hostw := [⟨7, 0, 1, 0x40, [1], none, false⟩] }
theorem test_hyp_down : routed.dieOn (linkDie 0) = true ∧ Recovered routed ∧ routed.linkUp 0 = true ∧ routed.rf (lnkBase 0) F.lnkStatusState = 2 ∧
    routed.bit (key 7 0) F.lnkHrouteUsingSecondary = false ∧ routed.bit (key 7 0) F.lnkHroutePrimaryValid = true ∧
    routed.rf (key 7 0) F.lnkHroutePrimary = 0 ∧ routed.bit (key 7 0) F.lnkHrouteSecondaryValid = true ∧
    routed.rf (key 7 0) F.lnkHrouteSecondary = 8 ∧ routed.hostLinkUp 8 = true ∧ NoneHeld routed := by unfold Recovered NoneHeld; decide +kernel
theorem quiet_of (s : State) (h : ∀ e ∈ s.links, e.2.waiting = []) (k : NoneHeld s) (w : s.hostw = []) (d : ∀ e ∈ s.dies, e.2.hostHeld = []) :
    NoHostTraffic s :=
  ⟨unloaded_of s h, k, w, get_of_all (fun _ => ({} : DieState)) (fun x : DieState => x.hostHeld = []) (fun _ => rfl) s.dies d⟩
theorem test_hyp_quiet : NoHostTraffic hostLink ∧ Unloaded base :=
  ⟨quiet_of _ (by decide +kernel) (by unfold NoneHeld; decide +kernel) rfl (by decide +kernel), unloaded_of _ (by decide +kernel)⟩
def training (role : Nat) (s : State) : State := ((s.sf (lnkBase 11) F.lnkStatusState 1).sf (lnkBase 11) F.lnkCfgRole role)
def found (p : Partner) (rtt : Nat) : Training := { link := 11, lowOk := true, highOk := true, partner := p, rttNs := rtt }
theorem test_hyp_train : (training 2 base).dieOn (linkDie 11) = true ∧ (training 2 base).rf (lnkBase 11) F.lnkStatusState = 1 ∧
    (training 2 base).rf (lnkBase 11) F.lnkCfgRole = 2 ∧ (training 2 base).otherHostLinks 11 = [] ∧ Recovered (training 2 base) ∧
    (training 1 base).rf (lnkBase 11) F.lnkCfgRole = 1 ∧ (training 1 base).bit (key (linkDie 11) 0) F.pwrStatusRefclkLost = false ∧
    ((training 1 base).lnk 11).expelled = false ∧ (base.rf (key (linkDie 11) 0) F.lnkGroupGroup) = (0 : BitVec 16).toNat := by
  unfold Recovered; decide +kernel
/-- Link 10 of the same die is a host link already. -/
def second : State := training 2 (((base.sf (lnkBase 10) F.lnkStatusState 2).sf (lnkBase 10) F.lnkStatusPartner 2).setLnk 10 { role := 2 })
theorem test_hyp_train_second : second.otherHostLinks 11 = [10] ∧ linkDie 10 = linkDie 11 ∧ Recovered second := by unfold Recovered; decide +kernel

def routeless : State := routed.sf (lnkBase 0) F.lnkStatusState 0
def onSecondary : State := routed.sf (key 7 0) F.lnkHrouteUsingSecondary 1
theorem test_hyp_routes : routed.dieOn 7 = true ∧ (routed.route 7).isSome = true ∧ routeless.route 7 = none ∧
    onSecondary.bit (key 7 0) F.lnkHrouteUsingSecondary = true ∧ onSecondary.bit (key 7 0) F.lnkHroutePrimaryValid = true ∧
    onSecondary.hostLinkUp 0 = true ∧ (onSecondary.sf (lnkBase 0) F.lnkStatusState 1).hostLinkUp 0 = false ∧ Recovered onSecondary := by
  unfold Recovered; decide +kernel

/-- Session 1 spans to device 6 over link 11. -/
def spanning : State :=
  let s := sentSome.sf (lnkBase 11) F.lnkStatusDevice 6
  s.setSes 1 { s.ses 1 with image := { weights := [[]] } }
/-- It spans to device 7 over link 10 as well. -/
def spanning2 : State :=
  let s := (spanning.sf (lnkBase 10) F.lnkStatusDevice 7).setLnk 10 { role := 1, tx := [(0, ring0)] }
  (s.csf 10 false 0 F.lnkChCtrlEnable 1).csf 10 false 0 F.lnkChCtrlSession 1
theorem test_hyp_digests : spanning.replicaDevices 1 = [6] ∧ spanning2.replicaDevices 1 = [7, 6] ∧ (spanning.ses 1).kind ≠ .none ∧ Recovered spanning2 ∧
    majority [[emptyDigest], [List.replicate 32 1]] = none := by unfold Recovered; decide +kernel
theorem test_hyp_forward : sentSome.ect.staging = false ∧ sentSome.rf die12 F.hltLibStatusCode ≠ Lib.writing ∧
    sentSome.rf die12 F.hltLibStatusCode ≠ Lib.verifying ∧ library.length ≤ bankSize := by decide +kernel
/-- The partner's abort of a channel that is enabled. -/
theorem test_hyp_partner_abort : sentSome.dieOn (linkDie 11) = true ∧ sentSome.linkUp 11 = true ∧ sentSome.crf 11 true 31 F.lnkChCtrlEnable = 1 := by
  decide +kernel
/-- Session 1 spans devices, and its load digests are due. -/
def digestsDue : State :=
  let s := ((sentSome.sf c0.base F.exeSession 1).setStepCopy c0 100).sf die12 F.hltWdig 100
  s.setSes 1 { s.ses 1 with image := { weights := [[4]], lists := [{ lclus := 0, line := 0, sizeLog2 := 4, streamed := false, words := [], len := 4, advSteps := 0 }] } }
theorem test_hyp_digests_due : digestsDue.dieOn 12 = true ∧ Recovered digestsDue ∧ (digestsDue.ses 1).image.weights[1]? = none ∧ digestsDue.spans 1 = true ∧
    digestsDue.wdigDue 1 (digestsDue.ses 1).wdigSent = true ∧ digestsDue.oneEach (digestsDue.sessionLinks 1) = [11] ∧ (digestsDue.lnk 11).waiting = [] ∧
    ((managementPieces 32 (digestsDue.ses 1).image.loadDigests).map (fun p => flitsFor (32 * p.length))).sum ≤ (digestsDue.lnk 11).credits.getD 3 0 := by
  unfold Recovered; decide +kernel
theorem test_hyp_forward_links : (List.range 40).filter (fun l => sentSome.linkUp l && (sentSome.lnk l).role == 1) = [11] ∧
    (sentSome.sf die12 F.hltLibCtrlForward 1).bit die12 F.hltLibCtrlForward = true ∧ flitsFor 1024 ≤ (sentSome.lnk 11).credits.getD 3 0 := by decide +kernel

/-! ### Power -/

theorem test_hyp_base : Recovered base ∧ base.dieOn 0 = true ∧ base.dieOn 12 = true := by unfold Recovered; decide +kernel
theorem test_hyp_caps : 3 ≤ (([161, 500, 160].filter (fun p => decide (floorEighths < p))).map (· - floorEighths)).sum ∧
    [161, 500, 160].filter (fun p => decide (floorEighths < p)) ≠ [] := by decide +kernel
/-- Die 0 at a power, a cap and a ceiling. -/
def capped (p cap c : Nat) : State := ((base.sf (key 0 0) F.pwrDiePower p).sf (key 0 0) F.pwrDieCap cap).sf (key 0 0) F.pwrCeilCap c
theorem test_hyp_cap_step :
    (let s := capped 401 400 200; s.rf (key 0 0) F.pwrDieCap < s.rf (key 0 0) F.pwrDiePower ∧ s.rf (key 0 0) F.pwrCeilCap = 200) ∧
    (let s := capped 384 400 1600; s.rf (key 0 0) F.pwrDiePower + 16 ≤ s.rf (key 0 0) F.pwrDieCap ∧ s.rf (key 0 0) F.pwrCeilCap = 1600) ∧
    (let s := capped 385 400 1600; s.rf (key 0 0) F.pwrDieCap < s.rf (key 0 0) F.pwrDiePower + 16 ∧ Recovered s) := by
  unfold Recovered; decide +kernel
/-- R518's share for a die 1/8 W above the floor and one far above it. -/
theorem test_share : dieCap 161 3 341 = 160 ∧ dieCap 500 3 341 = 497 := by decide +kernel
theorem test_ceiling : nextCeiling 1600 840 = 200 ∧ nextCeiling 1600 839 = 1592 ∧ nextCeiling 1600 761 = 1592 ∧ nextCeiling 1000 760 = 1000 ∧
    nextCeiling 1000 744 = 1000 ∧ nextCeiling 1000 743 = 1008 ∧ nextCeiling 200 761 = 200 := by decide +kernel
def nineSensors : List (BitVec 16) := [0xFFFB, 1, 920, 4, 920, 5, 6, 7, 8]
theorem test_hyp_sensors : nineSensors.length = 9 ∧ hottest nineSensors = (920, 2) := by decide +kernel
theorem test_hyp_freq : getF (207 : W32) 11 0 / 8 * 8 = 200 ∧ getF (199 : W32) 11 0 / 8 * 8 < 200 ∧ getF (1607 : W32) 11 0 / 8 * 8 = 1600 ∧
    1600 < getF (1608 : W32) 11 0 / 8 * 8 := by decide +kernel
/-- Of regions 0 and 1 one is not fused, whatever the part; no exam is open. -/
theorem test_hyp_vreg : (fused 0 0 = false ∨ fused 0 1 = false) ∧ (base.die 0).recess = [] ∧
    (∀ r, r < 2 → (base.sf (key 0 0) F.pwrVregSel r).rf (key 0 0) F.pwrVregSel = r) := by
  refine ⟨?_, by decide +kernel, by decide +kernel⟩
  rcases some_region_ok base 0 (by decide +kernel) (by decide +kernel) with h | h
  · exact .inl h.2
  · exact .inr h.2
/-- Voltages below, in and above the range of every region: VOP lies from 700 to 790 mV. -/
theorem test_hyp_volts (r : Nat) : getF (599 : W32) 9 0 < 600 ∧ getF (600 : W32) 9 0 = 600 ∧ 600 ≤ vop 0 r + 25 ∧ vop 0 r + 25 < getF (816 : W32) 9 0 := by
  have h := (Config.vopOffset 0 r).isLt
  rw [show getF (599 : W32) 9 0 = 599 by decide, show getF (600 : W32) 9 0 = 600 by decide, show getF (816 : W32) 9 0 = 816 by decide]
  unfold vop
  omega
def unanswered (a : BitVec 7) : RailReading := ⟨a, none, true⟩
def failedTwice : State := base.setRail 0x68 { fails := 2 }
theorem test_hyp_poll : ([⟨0x40, some ⟨0x17, 0x0180, 2, 32⟩, false⟩, unanswered 0x68].map (fun x => RailReading.address x)).Nodup ∧
    railAddresses.contains 0x68 = true ∧ railAddresses.contains 0x40 = true ∧ railBad 32 = true ∧ linear16 0x17 0x0180 = some 750 ∧ railBad 0x8000 = true ∧
    3 ≤ (failedTwice.rail 0x68).fails + 1 ∧ fedBy 0x68 ≠ [] ∧ Recovered failedTwice ∧ railAddresses.contains 0x5D = false := by
  unfold Recovered; decide +kernel

/-! ### EtherCAT -/

/-- The slave in a state, with its session core up. -/
def slave (a : AlState) (l : Level) : State :=
  let s := (atStamp base 777).sf (procBase 12 sessionCore) F.fwcProcStatusState 2
  s.setEct { s.ect with state := a, coreRan := true, level := l }
def slaveFailed : State := let s := slave .preOp .observer; s.setEct { s.ect with coreFailed := true }
/-- The mailbox's sync managers as the manual places them. -/
def syncUp : List EscSet := [.syncManager 0 0x1000 1024, .syncManager 1 0x1400 1024]
theorem test_hyp_al : (slave .init .observer).ect.coreRan = true ∧ (slave .preOp .observer).ect.mapOk = true ∧
    (slave .init .observer).ect.coreFailed = false ∧ (base.setEct { base.ect with coreRan := false }).ect.coreRan = false ∧
    Recovered (slave .safeOp .observer) ∧ (slave .safeOp .observer).dieOn 12 = true ∧ ((slave .init .observer).setEct (syncUp.foldl Ect.take (slave .init .observer).ect)).alRefusal .preOp = none ∧
    (slave .init .observer).alRefusal .preOp = some 0x0016 ∧ (slave .init .observer).alRefusal .safeOp = some 0x0011 := by unfold Recovered; decide +kernel
theorem test_al_steps : ∃ t u, exec (.alStateRequest .preOp syncUp) (slave .init .observer) = .next t ∧ t.out = [.al .preOp 0] ∧
    exec (.alStateRequest .bootstrap []) (slave .op .observer) = .next u ∧ u.out = [.al .op 0x13] :=
  ⟨_, _, rfl, by decide +kernel, rfl, by decide +kernel⟩
/-- Two emergency messages wait, and one object is mapped. -/
def slaveWith : State := let s := slave .op .observer
  s.setEct { s.ect with emergencies := [(0xFF81, 5), (0xFF82, 6)], mapping := [0x2003_0210], mapCount := 1 }
theorem test_hyp_frame : slaveWith.ect.state ≠ .init ∧ slaveWith.ect.emergencies = (0xFF81, 5) :: [(0xFF82, 6)] ∧ Recovered slaveWith ∧
    slaveWith.ect.mapped = [0x2003_0210] ∧ slaveWith.procRuns 12 sessionCore = true ∧ base.procRuns 12 sessionCore = false := by
  unfold Recovered; decide +kernel
theorem test_hyp_mailbox : MailboxOpen (slave .preOp .maintainer) ∧ Recovered (slave .preOp .maintainer) ∧ byMailbox .logout = true ∧
    slaveFailed.ect.coreFailed = true ∧ Recovered slaveFailed ∧ (slave .init .observer).ect.state = .init ∧
    ((slave .op .observer).setProc 12 sessionCore Ps.restarting).procRuns 12 sessionCore = false := by
  unfold MailboxOpen Recovered; decide +kernel
def key16 : List Byte := List.replicate 16 7
/-- The slave with its digests, and with some wrong keys so far. -/
def guarded (op ma : Option (List Byte)) (n : Nat) : State := let s := slave .preOp .observer
  s.setEct { s.ect with opDigest := op, maDigest := ma, wrongKeys := n }
theorem test_hyp_login : key16.length = 16 ∧ (guarded none none 0).ect.opDigest = none ∧ (guarded none none 0).ect.maDigest = none ∧
    (guarded none (some (digest32 key16)) 0).ect.maDigest = some (digest32 key16) ∧
    (guarded (some (digest32 key16)) none 0).ect.opDigest = some (digest32 key16) ∧
    (guarded (some (digest32 key16)) none 0).ect.maDigest ≠ some (digest32 key16) ∧ (guarded (some []) none 7).ect.wrongKeys + 1 = 8 ∧
    (guarded (some []) none 6).ect.wrongKeys + 1 < 8 := by
  refine ⟨by decide, rfl, rfl, rfl, rfl, by simp [guarded, State.setEct], by decide +kernel, by decide +kernel⟩
theorem test_hyp_login_open (n : Nat) : MailboxOpen (guarded (some []) none 7) ∧ (guarded (some []) none n).ect.locked = false := by
  refine ⟨by unfold MailboxOpen; decide +kernel, rfl⟩
theorem test_hyp_wrong_key : (guarded (some []) none 7).ect.opDigest ≠ some (digest32 key16) ∧
    (guarded (some []) none 7).ect.maDigest ≠ some (digest32 key16) := by decide +kernel
/-- A locked slave, 60 s after the lock and 900 s after its last request. -/
def lateSlave : State := let s := atStamp (slave .preOp .operator) 200_000_000_000
  s.setEct { s.ect with lastMailbox := 110_000_000_000, locked := true, lockStart := 194_000_000_000 }
theorem test_hyp_late : lateSlave.ect.lastMailbox.toNat + 90_000_000_000 ≤ (lateSlave.stamp 12).toNat ∧ lateSlave.ect.locked = true ∧
    lateSlave.ect.lockStart.toNat + 6_000_000_000 ≤ (lateSlave.stamp 12).toNat ∧ Recovered lateSlave ∧
    (base.sf die12 F.ectKeySel 1).rf die12 F.ectKeySel = 1 ∧ base.rf die12 F.ectKeySel = 0 := by unfold Recovered; decide +kernel
/-- Objects of each access, by R498 to R503. -/
theorem test_hyp_objects : holdsIndex 0x1008 = true ∧ (objAt 0x1008 0).map (fun o => (o.acc, o.len)) = some (.ro, 0) ∧
    (objAt 0x2010 0).map (fun o => (o.acc, o.len)) = some (.wo, 16) ∧ (objAt 0x4020 1).map (fun o => (o.acc, o.len)) = some (.rwM, 1) ∧
    (objAt 0x3003 1).map (fun o => o.acc) = some .woO ∧ (objAt 0x3003 2).map (fun o => o.acc) = some .rwO ∧
    (objAt 0x3002 3).map (fun o => o.acc) = some .rc ∧ holdsIndex 0x1002 = false ∧ objAt 0x1008 1 = none := by decide +kernel
/-- A download in progress whose last segment came at stamp 0, at stamp 5 s less a moment, and at 5 s. -/
def staging (now : Nat) : State :=
  let s := slave .preOp .maintainer
  (s.setDie 12 { s.die 12 with stamp := BitVec.ofNat 64 now }).setEct { s.ect with staging := true, transfer := some { last := 0, toggle := true } }
theorem test_hyp_transfer : (staging 500_000_000).ect.transfer = some { last := 0, toggle := true } ∧
    (0 : W64).toNat + 500_000_000 ≤ ((staging 500_000_000).stamp 12).toNat ∧ (staging 500_000_000).dieOn 12 = true ∧
    Recovered (staging 500_000_000) ∧ ((staging 499_999_999).stamp 12).toNat < (0 : W64).toNat + 500_000_000 ∧ base.ect.transfer = none := by
  unfold Recovered; decide +kernel
theorem test_hyp_segment : MailboxOpen (staging 499_999_999) ∧ Recovered (staging 499_999_999) ∧ (staging 499_999_999).ect.staging = true ∧
    (staging 499_999_999).ect.stagedLen + [1, 2].length ≤ bankSize := by
  unfold MailboxOpen Recovered; decide +kernel
/-- A segmented upload of 1,016 bytes in progress, at two moments. -/
def uploading (now : Nat) : State :=
  let s := slave .preOp .observer
  (s.setDie 12 { s.die 12 with stamp := BitVec.ofNat 64 now }).setEct { s.ect with uploading := some { rest := List.replicate 1016 7, last := 0, toggle := false } }
theorem test_hyp_upload : ∀ now ∈ [499_999_999, 500_000_000], MailboxOpen (uploading now) ∧ Recovered (uploading now) ∧
    (uploading now).ect.uploading.isSome = true ∧ ((uploading now).stamp 12).toNat = now ∧ (slave .preOp .observer).ect.uploading = none := by
  unfold MailboxOpen Recovered; decide +kernel
/-- A DOMAIN goes by segments; the archive of cards is empty. -/
theorem test_hyp_upload_domain : coeType (objBase 0x4002).1 0 0 = .domain ∧ (objAt 0x4002 0).map (·.acc) = some .ro ∧
    base.flashByte (archiveBase + 64 * base.ect.cardSlot.toNat + 30) = 0xFF ∧ base.hasDrainRecord = false ∧
    (base.flashPokes (archiveBase + 30) [1]).flashByte (archiveBase + 64 * base.ect.cardSlot.toNat + 30) ≠ 0xFF := by decide +kernel
theorem test_hyp_mapping : mappable 0x2003_0210 = true ∧ mappable 0x2003_0208 = false ∧
    (let m := (List.range 32).map (fun k => if k + 1 = 32 then (0x2003_0210 : W32) else (slave .preOp .observer).ect.mapping.getD k 0)
     mappedBytes ({ (slave .preOp .observer).ect with mapping := m } : Ect).mapped ≤ 256) := by decide +kernel
/-- Entries of 31 bytes each, which no accepted write leaves: the objects that may be mapped have at most 4 bytes. -/
def fullMapping : Ect := { (slave .preOp .observer).ect with mapping := List.replicate 32 0xFF, mapCount := 32 }
theorem test_hyp_mapping_full : let m := (List.range 32).map (fun k => if k + 1 = 1 then (0x2003_0210 : W32) else fullMapping.mapping.getD k 0)
    256 < mappedBytes ({ fullMapping with mapping := m } : Ect).mapped := by decide +kernel
def toTest : State := let s := slave .preOp .maintainer; s.setEct { s.ect with testDies := 0x1FF_FFFF }
theorem test_hyp_test : toTest.parts.any (fun p => p.dies == toTest.ect.testDies.setWidth 25 && p.state == .service) = true ∧
    toTest.anySession = false ∧ Recovered toTest ∧ MailboxOpen toTest := by unfold MailboxOpen Recovered; decide +kernel
/-- An encode stream in slot 63. -/
def liveSlave (k : Kind) (l : Level) : State :=
  let s := (session k [job0]).sf (procBase 12 sessionCore) F.fwcProcStatusState 2
  let s := s.setSes 1 { s.ses 1 with slot := some 63 }
  s.setEct { s.ect with state := .preOp, coreRan := true, level := l }
/-- The stream of slot 63 is closing. -/
def closingSlave : State := let s := liveSlave .encode .maintainer; s.setSes 1 { s.ses 1 with closing := some (5, 3, 2) }
theorem test_hyp_closing : closingSlave.inSlot 63 = some 1 ∧ (closingSlave.ses 1).closing.isSome = true ∧
    ((liveSlave .encode .maintainer).ses 1).closing = none := by decide +kernel
theorem test_hyp_slot : (liveSlave .encode .operator).inSlot 63 = some 1 ∧ ((liveSlave .encode .operator).ses 1).kind = .encode ∧
    (liveSlave .encode .operator).inSlot 62 = none ∧ MailboxOpen (liveSlave .encode .maintainer) ∧ Recovered (liveSlave .encode .maintainer) := by
  unfold MailboxOpen Recovered; decide +kernel
theorem test_hyp_od_drain : InService (slave .preOp .maintainer) ∧ (slave .preOp .maintainer).pkg.drain = none := by unfold InService; decide +kernel
theorem test_hyp_stage : (slave .preOp .maintainer).installRuns = false ∧ key16.length ≤ bankSize ∧
    ((slave .preOp .maintainer).sf die12 F.hltLibStatusCode Lib.writing).installRuns = true ∧ (slave .preOp .maintainer).ect.staging = false ∧
    (slave .preOp .maintainer).ect.stagedLen = 0 ∧
    ((slave .preOp .maintainer).setEct { (slave .preOp .maintainer).ect with stagedLen := 5 }).ect.stagedLen = 5 := by decide +kernel

/-! ### Identity and registers -/

/-- The session core up, and a code in SEC_ATT_STATUS. -/
def attesting (code : Nat) : State :=
  ((routed.sf (procBase 12 sessionCore) F.fwcProcStatusState 2).sf die12 F.secAttStatusCode code).sf die12 F.fwcBootStatusCode Fw.ok
def attRouted : State := ((attesting Att.signing).sf (key 12 0) F.lnkHroutePrimaryValid 1).sf (key 12 0) F.lnkHroutePrimary 0
theorem test_hyp_attest : (attesting 0).sec.identityFault = false ∧ (attesting 0).proc 12 sessionCore = Ps.running ∧
    (attesting 0).rf die12 F.fwcBootStatusCode = Fw.ok ∧ (attesting 0).sec.held = false ∧ (attesting 0).rf die12 F.secAttStatusCode = 0 ∧
    (attesting Att.signing).rf die12 F.secAttStatusCode = Att.signing ∧ Recovered attRouted ∧ attRouted.route 12 = some 0 ∧
    (attesting 0).route 12 = none ∧ Ps.running ≠ Ps.restarting ∧ ({ attRouted with sec := { attRouted.sec with report := [1] } } : State).sec.report ≠ [] ∧
    ({ base with sec := { base.sec with identityFault := true } } : State).sec.identityFault = true := by unfold Recovered; decide +kernel
theorem test_hyp_revoke_blocked : (base.anySession || base.rf die12 F.fwcBootStatusCode == Fw.busy || base.actBusy || base.libBusy) = false ∧
    (session .model []).anySession = true ∧ base.rf die12 F.secRevStatusCode ≠ Rev.busy ∧
    (base.sf die12 F.secRevStatusCode Rev.busy).rf die12 F.secRevStatusCode = Rev.busy := by decide +kernel
/-- No host link: the record is not read. -/
theorem test_hyp_revoke_read (a n : Nat) : ((noRoute12 base).hostRead 12 a n).2 = true ∧ Recovered (noRoute12 base) := by
  refine ⟨?_, by unfold Recovered; decide +kernel⟩
  unfold State.hostRead
  rw [if_pos (by decide +kernel)]
/-- A record without its magic word fails, and what host memory holds before it is written has none. -/
theorem test_hyp_revoke_header : base.revFailure (base.hostRead 12 0 (32 + 29792)).1 = some Rev.badHeader ∧ (base.hostRead 12 0 (32 + 29792)).2 = false := by
  have e : base.hostRead 12 0 (32 + 29792) = (base.bytes (hostAddr 0) (32 + 29792), base.anyPoison (hostAddr 0) (32 + 29792)) := by
    unfold State.hostRead
    rw [if_neg (by decide +kernel)]
  rw [e]
  constructor
  · unfold State.revFailure State.bytes
    rw [if_pos]
    left
    rw [← List.map_take, List.take_range]
    decide +kernel
  · unfold State.anyPoison
    rw [List.any_eq_false]
    intro x _
    simp [base, State.reset, NatSet.mem]
/-- A record that revokes slot 0 of the firmware keys. -/
def revRecord : List Byte := [0x5A, 0x4B, 0x52, 1, 1, 1, 0x25, 0] ++ List.replicate 24 0 ++ List.replicate sigBytes 0
/-- It fails no check where slot 0 is active, slot 1 programmed and intact, and the signature verifies. -/
theorem test_hyp_revoke (s : State) (ha : s.activeSlot 0 = some 0) (hp : slotProgrammed 0 1 = true) (hr : s.slotRevoked 0 1 = false)
    (hs : signedBy 0 1 revRecord = true) : s.revFailure revRecord = none := by
  have e0 : revSet revRecord = 0 := by decide +kernel
  have e1 : leAt revRecord 5 1 = 1 := by decide +kernel
  unfold State.revFailure
  rw [if_neg (by decide +kernel), if_neg (by simp only [show leAt revRecord 6 2 = 0x25 by decide +kernel, show leAt revRecord 8 8 = 0 by decide +kernel]; simp)]
  simp [e0, e1, ha, hp, hr, hs]
def revoking (set : Fin 2) (slot : Nat) : State := { base with sec := { base.sec with revoking := some (set.val, slot) } }
theorem test_hyp_revoked : (revoking 1 3).sec.revoking = some ((1 : Fin 2).val, 3) ∧ Recovered (revoking 1 3) := by unfold Recovered; decide +kernel
theorem test_hyp_entropy : base.bit (key 3 0) F.secErrRngHealth = false ∧ (base.die 3).rngWord = none ∧
    ((base.raise (key 3 0) F.secErrRngHealth).bit (key 3 0) F.secErrRngHealth) = true := by decide +kernel
theorem test_hyp_plain : ∀ o ∈ plainOffsets, base.present 12 o = true ∧ fieldsAt o ≠ [] := by decide +kernel
theorem test_hyp_absent : base.present 1 0x7D_0008 = false ∧ base.present 0 0x7A_0004 = true := by decide +kernel
/-- The error counts of cluster 0.0.0 is a read-clear register in part. -/
theorem test_hyp_read_clear : openCount 0 0x10_0018 = false ∧ (fieldsAt 0x10_0018).any (fun f => f.acc == .rc) = true ∧ clusterAt 0 0x10_0018 = some (c0, 0x18) ∧
    base.present 0 0x10_0018 = true := by decide +kernel

/-! ### Further clauses: instructions, engines, semaphores, the fetch engine -/

theorem test_hyp_idle_runs : (running 0).pending = [] ∧ (running 0).exe c0 = Ex.running ∧ Canonical (running 0) := by unfold Canonical; decide +kernel
/-- The last instruction of a line of a streamed list. -/
def lineEnd : State :=
  let s := ((base.sf c0.base F.exeStatusState Ex.running).sf c0.base F.clsCtrlIslandEn 1).sf c0.base F.exeListLen 8
  let s := ((s.sf c0.base F.exeListSize 8).sf c0.base F.exeListSemStreamed 1).sf c0.base F.exeListSemFree 9
  put (s.setCl c0 { issue := 3, linesReady := 1 }) 48 (natLe 16 (word 0x00 posts))
theorem test_hyp_line_end : Issues lineEnd (atIssue lineEnd) (atWork lineEnd) c0 0x00 ∧ (atWork lineEnd).bit c0.base F.exeListSemStreamed = true ∧
    ((atIssue lineEnd).cl c0).issue % 4 = 3 ∧ Unowed (atIssue lineEnd) c0 (postTarget c0 (nextWord (atIssue lineEnd) c0)) ∧
    Unowed (atIssue lineEnd) c0 (c0.die.val, 9) := by unfold Issues InService Unowed; decide +kernel
theorem test_hyp_unowed : Unowed (atIssue nopState) c0 (postTarget c0 (nextWord (atIssue nopState) c0)) ∧
    ¬ ((atWork nopState).bit c0.base F.exeListSemStreamed = true) := by unfold Unowed; decide +kernel
def pausePoint : State := (running (word 0x02 (2 ^ 78))).sf c0.base F.exeCtrlPauseReq 1
theorem test_hyp_pause_point : Issues pausePoint (atIssue pausePoint) (atWork pausePoint) c0 0x02 ∧
    (iPausePoint (nextWord (atIssue pausePoint) c0) && (atWork pausePoint).bit c0.base F.exeCtrlPauseReq) = true ∧
    ((atWork pausePoint).ses ((atWork pausePoint).rf c0.base F.exeSession)).pauseTo = none := by unfold Issues InService; decide +kernel
/-- A replay has given the results of the tile-step of the instruction that is issued: nothing it computes is written. -/
def replacedStep : State :=
  let s := put (put (before 0x20 0 (matRec 0 0 0)) 128 [3, 4]) 192 [5, 6]
  s.setCl c0 { s.cl c0 with tile := { (s.cl c0).tile with begun := true, replaced := true } }
theorem test_hyp_replaced : Ready (.mmInt c0) 0x20 (workMat .int) replacedStep ∧ ((atWork replacedStep).cl c0).tile.replaced = true := by
  unfold Ready Issues InService CleanRun; exact ⟨⟨rfl, by decide +kernel, by decide +kernel⟩, by decide +kernel⟩
/-- A lookup whose TBUILD stands in the finish pipe. -/
def building : State := (running (word 0x20 0)).setCl c0
  { unitPipe := [{ index := 1, word := BitVec.ofNat 128 (word 0x21 posts) }], finPipe := [{ index := 0, word := BitVec.ofNat 128 (word 0x40 0) }] }
theorem test_hyp_build_open : building.dieOn c0.die = true ∧ InService building ∧ building.engineBusy c0 = true ∧
    building.bit c0.base F.clsCtrlIslandEn = true ∧
    (building.cl c0).buildOpen { index := 1, word := BitVec.ofNat 128 (word 0x21 posts) } = true := by unfold InService; decide +kernel
theorem test_hyp_alone : Alone inPipes c0 { index := 0, word := BitVec.ofNat 128 (word 0x20 posts) }
    [{ index := 1, word := BitVec.ofNat 128 (word 0x80 posts) }] := by unfold Alone; decide +kernel
theorem test_hyp_alone_feed : Alone feedDone c0 { index := 1, word := BitVec.ofNat 128 (word 0xC0 (posts + 2 ^ 51)), done := 1 } [] := by
  unfold Alone; decide +kernel
/-- An EFEED with its last record to copy: its ring is of die 0, and semaphore 3 counts its free slots. -/
def feedLast (free : Nat) : State := ((put (running (word 0x20 0)) 64 (natLe 2 0 ++ natLe 2 16 ++ natLe 4 0 ++ natLe 2 3 ++ natLe 54 0)).setCl c0
  { finPipe := [{ index := 1, word := BitVec.ofNat 128 (word 0xC0 (2 ^ 67 + 2 ^ 51)) }] }).setSem 0 3 free
theorem test_hyp_feed_last : (feedLast 1).dieOn c0.die = true ∧ InService (feedLast 1) ∧ (feedLast 1).engineBusy c0 = true ∧
    (feedLast 1).bit c0.base F.clsCtrlIslandEn = true ∧ ((feedLast 1).cl c0).finPipe.map (fun f => (iClass f.word.toNat, iCount f.word.toNat, f.done)) =
      [(6, 1, 0)] ∧ 1 ≤ (feedLast 1).sem c0.die (parseFeed ((feedLast 1).bytes (c0.store + 64) 64)).free ∧ ((feedLast 1).cl c0).voting = false ∧ ((feedLast 1).cl c0).tile.replaced = false := by
  unfold InService; decide +kernel
theorem test_hyp_feed_blocked : (feedLast 0).dieOn c0.die = true ∧ (feedLast 0).exe c0 = Ex.running ∧ ((feedLast 0).feedBlocked c0).isSome = true := by
  decide +kernel
theorem test_hyp_start_region : ∃ c : ClusterId, fused c.die c.region = false ∧ base.dieOn c.die = true ∧ base.exe c = Ex.idle ∧ Recovered base :=
  live_region _ (by rintro r (rfl | rfl) _ <;> unfold Recovered <;> decide +kernel)
theorem test_hyp_halt_idle : idleEngine.engineBusy c0 = false ∧ pausedEngine.engineBusy c0 = true := by decide +kernel
/-- A post of engine 0.0.0 that passes the largest value of semaphore 8191. -/
def overflowing : State := { owned 3 with posts := [{ src := srcEngine c0, die := 24, sem := 8191, count := 0xFFFF_FFFD, index := 5, opcode := 0xA0 }] }
theorem test_hyp_overflow_engine : overflowing.on = true ∧ engineAt (srcEngine c0) = some c0 ∧ overflowing.semOwned 24 8191 = true ∧
    2 ^ 32 ≤ overflowing.sem 24 8191 + 0xFFFF_FFFD := by decide +kernel
theorem test_hyp_channel_result : let s := (channelWaits.setChan ch0 { result := some 5 }).setSem 0 (channelWaits.rf ch0.base F.entChSemResFree) 1
    s.dieOn ch0.die = true ∧ Recovered s ∧ s.bit ch0.unitBase F.entCtrlEnable = true ∧ s.bit ch0.base F.entChCtrlEnable = true ∧
    (s.chan ch0).result.isSome = true ∧ (s.chan ch0).freed = false ∧ 1 ≤ s.sem ch0.die (s.rf ch0.base F.entChSemResFree) := by
  unfold Recovered; decide +kernel
theorem test_hyp_timeout_fetch : (creditWaits c0 0).dieOn c0.die = true ∧ (creditWaits c0 0).fqState c0 2 = Fq.creditWait ∧
    (creditWaits c0 0).sem c0.die (parseDesc ((creditWaits c0 0).fq c0 2).desc).freeSem < (parseDesc ((creditWaits c0 0).fq c0 2).desc).lines := by
  decide +kernel
/-- Fetch queue 5 of a cluster reads a device-virtual source for session 1, whose page tables map the source or do not. -/
def virtualRow (c : ClusterId) (va : Nat) (dst : Nat) : State :=
  let b := overlay (overlay (overlay (descOf 64 0) 0 (natLe 8 va)) 16 [0, if dst = 0 then 1 else 0]) 8 (natLe 8 (if dst = 0 then 0x2000 else dst))
  let s := ((mapped.sf c.base F.fetCtrlEnable 1).sf (c.fetchBase 5) F.fetQStatusState Fq.active).sf (c.fetchBase 5) F.fetQCtrlSession 1
  s.setFq c 5 { desc := b, rowOpen := true }
theorem test_hyp_request_virtual : ∃ c : ClusterId, fused c.die c.region = false ∧ let s := virtualRow c va0 0
    s.fetchOn c = true ∧ s.dieOn c.die = true ∧ InService s ∧ s.fqState c 5 = Fq.active ∧ (s.fq c 5).rowOpen = true ∧
    (parseDesc (s.fq c 5).desc).srcKind = 0 ∧ (s.fq c 5).poisoned = false ∧ (parseDesc (s.fq c 5).desc).dstKind = 1 ∧
    (parseDesc (s.fq c 5).desc).outstanding ≤ 64 ∧ (s.fq c 5).inflight.length < (parseDesc (s.fq c 5).desc).outstanding ∧
    s.translateHeld c 1 va0 false = false ∧ (s.translate c 1 va0 false).1 = .ok 0x3_0200 false :=
  live_region _ (fun r hr h => ⟨fetchOn_of _ _ h (by rcases hr with rfl | rfl <;> decide +kernel),
    by rcases hr with rfl | rfl <;> unfold InService <;> decide +kernel⟩)
theorem test_hyp_request_fault : ∃ c : ClusterId, fused c.die c.region = false ∧ let s := virtualRow c 0x80_0000_0000 0
    s.fetchOn c = true ∧ s.fqState c 5 = Fq.active ∧ (parseDesc (s.fq c 5).desc).srcKind = 0 ∧ (s.fq c 5).poisoned = false ∧
    s.translateHeld c 1 0x80_0000_0000 false = false ∧ (s.translate c 1 0x80_0000_0000 false).1 = .fault Fk.notValid 1 0 :=
  live_region _ (fun r hr h => ⟨fetchOn_of _ _ h (by rcases hr with rfl | rfl <;> decide +kernel), by rcases hr with rfl | rfl <;> decide +kernel⟩)
/-- The destination is virtual, in a page that may not be written. -/
theorem test_hyp_request_fault_write : ∃ c : ClusterId, fused c.die c.region = false ∧ let s := virtualRow c va0 va0
    s.fetchOn c = true ∧ (parseDesc (s.fq c 5).desc).dstKind = 0 ∧ (parseDesc (s.fq c 5).desc).srcKind = 0 ∧ s.translateHeld c 1 va0 true = false ∧
    ((s.translate c 1 va0 false).2.translateParts c 1 [(0, va0, 64)]).1 = .error (va0, .fault Fk.notWritable 4 0x3_0003) :=
  live_region _ (fun r hr h => ⟨fetchOn_of _ _ h (by rcases hr with rfl | rfl <;> decide +kernel), by rcases hr with rfl | rfl <;> decide +kernel⟩)
/-- The tables lie in host memory, and the die has no route to it. -/
def hostTables (c : ClusterId) : State :=
  let s := virtualRow c va0 0
  s.setSes 1 { s.ses 1 with root := hostAddr 0x1000 }
theorem test_hyp_request_held : ∃ c : ClusterId, fused c.die c.region = false ∧
    (hostTables c).fetchOn c = true ∧ (hostTables c).translateHeld c 1 va0 false = true :=
  live_region _ (fun r hr h => ⟨fetchOn_of _ _ h (by rcases hr with rfl | rfl <;> decide +kernel), by rcases hr with rfl | rfl <;> decide +kernel⟩)


/-! ### Further clauses: channels and the stream -/

/-- The channel has taken a record of this segment, with tag 1. -/
def taggedIn (r : Nat) : State :=
  let s := feeding 0 1 r
  (s.setChan ch0 { s.chan ch0 with tagged := true }).sf ch0.base F.entChStatusTag 1
def nextTag (r : Nat) : State := (taggedIn r).sf ch0.base F.entChStatusTag 255
theorem test_hyp_record_tagged : TakesRecord (nextTag (recOf 0 2 24 40)) (nextTag (recOf 0 2 24 40)) ch0 0 (recOf 0 2 24 40) ∧
    ((nextTag (recOf 0 2 24 40)).chan ch0).tagged = true := by unfold TakesRecord InService; decide +kernel
theorem test_hyp_lane_inside : latentIn.laneInside ch0 0 (latentIn.lane ch0 0).pos ((latentIn.lane ch0 0).encode 22285 10485).2.length = true ∧
    latentOut.laneInside ch0 0 (latentOut.lane ch0 0).pos
      (min ((latentOut.lane ch0 0).decode (latentOut.laneRead ch0 0) (latentCdf 40 24) 255).1.pos (latentOut.rf (ch0.laneBase 0) F.entLcLen)
        - (latentOut.lane ch0 0).pos) = true ∧
    endIn.laneInside ch0 0 0 (endIn.rf (ch0.laneBase 0) F.entLcLen) = true ∧ resultOut.chInside ch0 (0x1000 + 0) 1 = true := by decide +kernel
theorem test_hyp_side_limits : max (-31) (min 31 (recSym (recOf 2 (256 - 128) 0 0))) + 31 = 0 ∧ max (-31) (min 31 (recSym (recOf 2 127 0 0))) + 31 = 62 := by
  decide +kernel
/-- The same start of a segment in a decode channel, and with results that an abort has left unposted. -/
def startOut : State := (feeding 1 0 (recOf 3 0 0 0x40)).pokes (dbufAddr 0 0x2_0040) (natLe 4 0x3000 ++ natLe 4 32)
theorem test_hyp_segment_start_decode : TakesRecord startOut startOut ch0 3 (recOf 3 0 0 0x40) ∧ startOut.decodes ch0 = true ∧
    recDesc (recOf 3 0 0 0x40) % 64 = 0 ∧ startOut.lanesOf ch0 = [0] ∧
    startOut.anyPoison (startOut.chAddr ch0 (tableOff startOut ch0 0x40 0)) (min 4 (tableLen startOut ch0 0x40 0)) = false :=
  ⟨by unfold TakesRecord InService; decide +kernel, by decide +kernel⟩
/-- A lane whose decoder has not read all its bytes, and one whose last byte is 0. -/
theorem test_hyp_lane_errors : (endOut.lanesOf ch0).any (endOut.surplus ch0) = true ∧ (endOut.lanesOf ch0).any (endOut.trailing ch0) = true ∧
    TakesRecord endOut endOut ch0 4 (recOf 4 0 0 0) ∧ endOut.decodes ch0 = true := by unfold TakesRecord InService; decide +kernel
theorem test_hyp_result_waits : let s := (channelBase.setChan ch0 { result := some 5 }).setSem 0 (channelBase.rf ch0.base F.entChSemResFree) 1
    InService s ∧ s.bit ch0.unitBase F.entCtrlEnable = true ∧ s.bit ch0.base F.entChCtrlEnable = true ∧ (s.chan ch0).result = some 5 ∧
    1 ≤ s.sem ch0.die (s.rf ch0.base F.entChSemResFree) ∧ s.chInside ch0 (s.rf ch0.base F.entChResBase) 1 = true := by unfold InService; decide +kernel
theorem test_hyp_enabled_writes : Recovered channelBase ∧ channelBase.bit ch0.base F.entChCtrlEnable = true ∧
    channelBase.bit ch0.base F.entChStatusOpen = false ∧ Recovered badRings := by unfold Recovered; decide +kernel
theorem test_hyp_abort_disabled : let s := openSegment.sf ch0.base F.entChCtrlEnable 0
    Recovered s ∧ s.bit ch0.base F.entChStatusOpen = true ∧ (s.chan ch0).fed = false ∧ s.sem ch0.die (s.rf ch0.base F.entChSemFeedReady) = 0 := by
  unfold Recovered; decide +kernel

/-- The stream's session is of an image that codes no such size; a picture stands open as a stream unit comes. -/
def atBadStream : State := let s := decoding { fresh5 with fresh := false, previous := some 5, current := some (held5 0) } (unitOf Wu.stream streamP)
  s.setSes 1 { s.ses 1 with image := { (s.ses 1).image with codec := { qmask := 1, sizes := [] } } }
set_option maxRecDepth 20000 in
theorem test_hyp_stream_bad : Receives atBadStream 1 Wu.stream streamP (unitOf Wu.stream streamP) ∧
    checkStream (atBadStream.ses 1).image (parseStream streamP) ≠ none ∧ (atBadStream.ses 1).dec.current.isSome = true ∧
    (atBadStream.ses 1).dec.previous.isSome = true := ⟨by unfold Receives; decide +kernel, by decide +kernel⟩
/-- A picture unit before any stream unit, one while another picture stands open, and one of another number of slices. -/
def beforeStream : State := decoding {} (unitOf Wu.picture (pictureP 5))
def whileOpen : State := decoding { fresh5 with fresh := false, current := some (held5 0), expect := some 6 } (unitOf Wu.picture (pictureP 6))
def threeSlices : List Byte := picturePayload 5 true false false 3 []
def otherSlices : State := decoding fresh5 (unitOf Wu.picture threeSlices)
theorem test_hyp_picture_cases : Receives beforeStream 1 Wu.picture (pictureP 5) (unitOf Wu.picture (pictureP 5)) ∧ (beforeStream.ses 1).dec.stream = none ∧
    Receives whileOpen 1 Wu.picture (pictureP 6) (unitOf Wu.picture (pictureP 6)) ∧ (whileOpen.ses 1).dec.current.isSome = true ∧
    Receives otherSlices 1 Wu.picture threeSlices (unitOf Wu.picture threeSlices) ∧ beAt threeSlices 6 2 ≠ sliceCount stream2 :=
  ⟨by unfold Receives; decide +kernel, by decide +kernel, by unfold Receives; decide +kernel, by decide +kernel, by unfold Receives; decide +kernel,
   by decide +kernel⟩
def sliceAt (pic : W32) (i : Nat) : List Byte := slicePayload pic i 0 false 0 0 []
def atSliceOf (p : Option DecPicture) (i : Nat) : State := decoding { fresh5 with current := p } (unitOf Wu.slice (sliceAt 5 i))
theorem test_hyp_slice_cases : Receives (atSliceOf none 0) 1 Wu.slice (sliceAt 5 0) (unitOf Wu.slice (sliceAt 5 0)) ∧
    Receives (atSliceOf (some { open5 with bad := true }) 0) 1 Wu.slice (sliceAt 5 0) (unitOf Wu.slice (sliceAt 5 0)) ∧
    Receives (atSliceOf (some open5) 2) 1 Wu.slice (sliceAt 5 2) (unitOf Wu.slice (sliceAt 5 2)) ∧ open5.slices ≤ beAt (sliceAt 5 2) 4 2 ∧
    open5.bad = false ∧ open5.pic = unitPic (sliceAt 5 2) :=
  ⟨by unfold Receives; decide +kernel, by unfold Receives; decide +kernel, by unfold Receives; decide +kernel, by decide +kernel⟩
theorem test_hyp_close_cases : (let d := ((atClose (held5 0)).ses 1).dec
      d.blocked = false ∧ isDamaged (held5 0) = false ∧ (held5 0).pic = unitPic (closeP 0) ∧ (held5 0).bad = false) ∧
    ({ held5 0 with pic := 4 } : DecPicture).pic ≠ unitPic (closeP 0) ∧
    Receives (atClose { held5 0 with pic := 4 }) 1 Wu.close (closeP 0) (unitOf Wu.close (closeP 0)) := by unfold Receives; decide +kernel
def droppedAt (d : Decoder) (pic : W32) : State := decoding d (unitOf Wu.dropped (droppedPayload pic 1))
theorem test_hyp_dropped_cases :
    Receives (droppedAt { fresh5 with current := some (held5 0) } 5) 1 Wu.dropped (droppedPayload 5 1) (unitOf Wu.dropped (droppedPayload 5 1)) ∧
    (held5 0).pic = unitPic (droppedPayload 5 1) ∧ (held5 0).bad = false ∧
    Receives (droppedAt { fresh5 with current := some (held5 0), expect := some 6 } 6) 1 Wu.dropped (droppedPayload 6 1)
      (unitOf Wu.dropped (droppedPayload 6 1)) ∧ (held5 0).pic ≠ unitPic (droppedPayload 6 1) :=
  ⟨by unfold Receives; decide +kernel, by decide +kernel, by decide +kernel, by unfold Receives; decide +kernel, by decide +kernel⟩

/-- The picture of the encoder above, and the same with the picture unit still to come, with slice 0 to be coded again, or at its last edition. -/
def encPic (k : Nat) : EncPicture :=
  { pic := 5, noref := true, forced := false, requested := false, unitOut := true, unitSize := 56,
    slices := (List.range k).map (fun i => { index := i, edition := 0, lanes := [], unit := List.replicate 60 0 }) }
def encodingP (p : EncPicture) : State := let s := encoding 1
  s.setSes 1 { s.ses 1 with enc := { (s.ses 1).enc with current := some p } }
def slice0 (e : Nat) (lanes : List (List Byte)) : Slice := { index := 0, edition := e, lanes := lanes, unit := List.replicate 60 0 }
def again (e : Nat) (lanes : List (List Byte)) : EncPicture := { encPic 0 with recode := some 0, slices := [slice0 e lanes] }
theorem test_hyp_encodes : Encodes (encodingP (encPic 1)) 1 table0 table0 (encPic 1) ∧ (encPic 1).recode = none ∧
    Encodes (encodingP { encPic 0 with unitOut := false }) 1 table0 table0 { encPic 0 with unitOut := false } ∧
    (((encodingP { encPic 0 with unitOut := false }).emitPicture 1 ((encodingP { encPic 0 with unitOut := false }).laneList 1 table0)).ses 1).enc.current.isSome = true ∧
    ((encodingP (encPic 1)).ses 1).enc.params.emission = false := by unfold Encodes; decide +kernel
theorem test_hyp_emission : let s := encodingP (encPic 1)
    let s := s.setSes 1 { s.ses 1 with enc := { (s.ses 1).enc with params := { stream2 with emission := true } } }
    Encodes s 1 table0 table0 (encPic 1) ∧ (s.ses 1).enc.params.emission = true ∧ s.checksDone 1 = true ∧ s.tileOpen 1 = false := by
  unfold Encodes; decide +kernel
/-- What the lanes give again: lanes of no byte each. -/
def noLanes (e : Nat) (lanes : List (List Byte)) : List (List Byte) :=
  let s := encodingP (again e lanes)
  s.sliceLanes 1 0 table0 [] (capOf (s.ses 1).enc (again e lanes) 0 [])
theorem test_hyp_recode : Encodes (encodingP (again 0 [])) 1 table0 table0 (again 0 []) ∧ (again 0 []).recode = some 0 ∧
    (again 0 []).slices.find? (fun x => x.index == 0) = some (slice0 0 []) ∧ (encodingP (again 0 [])).runningJob 1 = some runs ∧
    noLanes 0 (noLanes 0 []) = noLanes 0 [] ∧ noLanes 6 [[1]] ≠ [[1]] ∧ noLanes 7 [[1]] ≠ [[1]] := by unfold Encodes; decide +kernel
theorem test_hyp_close_waits : (encoding 2).jobWaits 1 runs = false ∧ (((encoding 2).ses 1).enc.current.map (·.restart)) = some false ∧
    (((encoding 2).ses 1).enc.current.map (·.recode)) = some none ∧ (((encoding 2).ses 1).enc.current.map (·.slices.length)) = some 2 := by
  decide +kernel

/-! ### Further clauses: host commands, jobs and health -/

/-- The scheduler core of die 24 restarts. -/
def restarting24 (s : State) : State := s.setProc 24 scheduler Ps.restarting
theorem test_hyp_create_stalled : NextCommand (restarting24 (fetched queues 0 (cmd 1 createArgs))) 0 0x01 (cmd 1 createArgs) [] ∧
    (restarting24 (fetched queues 0 (cmd 1 createArgs))).schedulerRestarts 24 = true := by unfold NextCommand Recovered; decide +kernel
/-- Requests to leave TEST: of no partition, of one in SERVICE, and with an exam of the partition in progress. -/
def noPartition : HostCmd := cmd 5 [3, 1]
def inRecess24 : State := testing.setDie 24 { recess := [3] }
theorem test_hyp_test_refused : NextCommand (fetched queues 0 noPartition) 0 0x05 noPartition [] ∧
    queues.parts.any (fun p => p.dies == BitVec.ofNat 25 (noPartition.arg 0) && p.state == .service) = false ∧
    NextCommand (fetched queues 0 leaveTest) 0 0x05 leaveTest [] ∧
    queues.parts.any (fun p => p.dies == BitVec.ofNat 25 (leaveTest.arg 0) && p.state == .test) = false := by unfold NextCommand Recovered; decide +kernel
theorem test_hyp_leave_waits : NextCommand (fetched inRecess24 0 leaveTest) 0 0x05 leaveTest [] ∧
    inRecess24.parts.find? (fun p => p.dies == BitVec.ofNat 25 (leaveTest.arg 0) && p.state == .test) =
      some { dies := BitVec.allOnes 25, state := .test } ∧ inRecess24.inRecess (BitVec.ofNat 25 (leaveTest.arg 0)) = true ∧
    inRecess24.pkg.drain = none := by unfold NextCommand Recovered; decide +kernel
def examsToo : HostCmd := cmd 5 [0x1FF_FFFF, 3]
theorem test_hyp_enter_exams : NextCommand (fetched queues 0 examsToo) 0 0x05 examsToo [] ∧ bitN (examsToo.arg 1) 1 = true ∧
    queues.sessions.any (fun e => e.2.kind != .none && (e.2.dies &&& BitVec.ofNat 25 (examsToo.arg 0)) != 0) = false := by
  unfold NextCommand Recovered; decide +kernel
def unknown (op : Nat) : State := fetched queues 3 (cmd op [])
theorem test_hyp_unknown_session : ∀ op ∈ [0x04, 0x10, 0x11, 0x12, 0x13, 0x14, 0x15, 0x16], NextCommand (unknown op) 3 op (cmd op []) [] ∧
    ((unknown op).ses (cmd op []).session.toNat).kind = .none := by unfold NextCommand Recovered; decide +kernel
/-- Session 1 is closing already, has a job that runs, or has jobs that wait. -/
def closingState (x : Session → Session) : State := let s := session .model [job0]; fetched (s.setSes 1 (x (s.ses 1))) 3 (cmd 4 [])
theorem test_hyp_close_again : SessionCommand (closingState fun x => { x with closing := some (1, 3, 2) }) 3 0x04 (cmd 4 []) [] 1 ∧
    ((closingState fun x => { x with closing := some (1, 3, 2) }).ses 1).closing.isSome = true := by
  unfold SessionCommand NextCommand Recovered; decide +kernel
theorem test_hyp_close_running : SessionCommand (closingState fun x => { x with jobs := [{ job0 with phase := .running }] }) 3 0x04 (cmd 4 []) [] 1 ∧
    ((closingState fun x => { x with jobs := [{ job0 with phase := .running }] }).ses 1).jobs.all (fun j => j.phase != .queued) = true ∧
    ((closingState fun x => { x with jobs := [{ job0 with phase := .running }] }).runningJob 1).isSome = true ∧
    (closingState id).runningJob 1 = none := by unfold SessionCommand NextCommand Recovered; decide +kernel
/-- A submission of session 1 while it is ending, in a drained package, and of an encoder whose picture layout is refused. -/
def submits (f : State → State) (k : Kind) : State := fetched (f (withTables (session k []))) 3 submitCmd
def submitsEnding : State := submits (fun s => s.setSes 1 { s.ses 1 with state := .ending }) .model
def submitsDrained : State := submits (fun s => { s with pkg := { s.pkg with drained := true } }) .model
theorem test_hyp_submit_ending : SessionCommand submitsEnding 3 0x10 submitCmd [] 1 ∧ (submitsEnding.ses 1).state = .ending := by
  unfold SessionCommand NextCommand Recovered; decide +kernel
theorem test_hyp_submit_drained : SessionCommand submitsDrained 3 0x10 submitCmd [] 1 ∧ submitsDrained.pkg.drained = true ∧
    (submitsDrained.ses 1).live = false := by unfold SessionCommand NextCommand Recovered; decide +kernel
theorem test_hyp_submit_layout : SessionCommand (submits id .encode) 3 0x10 submitCmd [] 1 ∧
    badLayout ((submits id .encode).ses 1) { tag := 77, queue := 3, sqHead := 5, seq := 11, ins := [], outs := [], audit := 0 } = true := by
  unfold SessionCommand NextCommand Recovered; decide +kernel
/-- WITHDRAW of the first job, and of one whose layout is refused. -/
theorem test_hyp_withdraw_cases : SessionCommand (withdrawing 9) 3 0x11 (withdrawCmd 9) [] 1 ∧ ((withdrawing 9).ses 1).jobs.head? = some job0 ∧
    ((withdrawing 9).ses 1).jobs.find? (fun j => j.seq.toNat == (withdrawCmd 9).arg 3 % 2 ^ 32 && !j.withdrawn
      && !jobComplete ((withdrawing 9).ses 1) j) = some job0 ∧
    SessionCommand (fetched (session .encode [job0, job1]) 3 (withdrawCmd 9)) 3 0x11 (withdrawCmd 9) [] 1 ∧
    badLayout ((session .encode [job0, job1]).ses 1) job0 = true := by unfold SessionCommand NextCommand Recovered; decide +kernel
/-- PAUSE of a paused session, and with too little room; an engine works for the session. -/
def pausing (x : Session → Session) : State :=
  let s := session .model []
  let s := (s.sf c321.base F.exeSession 1).setExe c321 Ex.running
  fetched (s.setSes 1 (x { s.ses 1 with image := { lists := [place5] } })) 3 (cmd 0x13 [0, 100])
theorem test_hyp_pause_paused : SessionCommand (pausing fun x => { x with state := .paused }) 3 0x13 (cmd 0x13 [0, 100]) [] 1 := by
  unfold SessionCommand NextCommand Recovered; decide +kernel
theorem test_hyp_pause_small : SessionCommand (pausing fun x => { x with saveBytes := 101 }) 3 0x13 (cmd 0x13 [0, 100]) [] 1 ∧
    (cmd 0x13 [0, 100]).arg 1 < ((pausing fun x => { x with saveBytes := 101 }).ses 1).saveBytes := by
  unfold SessionCommand NextCommand Recovered; decide +kernel
theorem test_hyp_pause_engine : SessionCommand (pausing id) 3 0x13 (cmd 0x13 [0, 100]) [] 1 ∧ c321 ∈ (pausing id).clustersOfSession 1 ∧
    (pausing id).rf c321.base F.exeSession = 1 ∧ (pausing id).engineBusy c321 = true := by unfold SessionCommand NextCommand Recovered; decide +kernel
/-- RESUME of an open session, and from a record that is not in order. -/
def resumes (s : State) : State := fetched s 3 (cmd 0x14 [0, 160])
def noRecord : State := let s := withTables (session .model []); resumes (s.setSes 1 { s.ses 1 with state := .paused, saveBytes := 160 })
theorem test_hyp_resume_cases : SessionCommand (resumes (session .model [])) 3 0x14 (cmd 0x14 [0, 160]) [] 1 ∧
    ((resumes (session .model [])).ses 1).state ≠ .paused ∧ SessionCommand noRecord 3 0x14 (cmd 0x14 [0, 160]) [] 1 ∧
    (let r := (noRecord.setQue 3 (popped noRecord 3 [])).virtRead 12 1 0 160; (r.2.2.readSave 1 r.1).2 = none) := by
  unfold SessionCommand NextCommand Recovered; decide +kernel

theorem test_hyp_doorbell_stalled : getF (15 : W32) 15 0 = 15 ∧ 2 ^ (stalledQueue.que 3).sqLog2 ≤ getF (16 : W32) 15 0 ∧
    (queues.sf (queueBase 12 3) F.fwcQStatusState Qs.deletedByReset).qState 3 = Qs.deletedByReset := by decide +kernel
/-- An encoder whose open picture is to start again on cluster 3.2.L1. -/
def startsAgain : State :=
  let s := (scheduled .encode [{ job0 with phase := .running }]).sf c321.base F.exeSession 1
  s.setSes 1 { s.ses 1 with image := { lists := [place5] }, enc := { (s.ses 1).enc with current := some { encPic 0 with restart := true } } }
theorem test_hyp_restarts : startsAgain.on = true ∧ Recovered startsAgain ∧ startsAgain.procRuns (startsAgain.ses 1).homeroom scheduler = true ∧
    startsAgain.mustRestart 1 = true ∧ startsAgain.mayRestart 1 = true ∧ (startsAgain.ses 1).image.descs = [] ∧
    startsAgain.physOf place5.lclus.toNat = some c321 ∧ startsAgain.rf c321.base F.exeSession = 1 := by unfold Recovered; decide +kernel
theorem test_hyp_yield_plain : yielded.mustRestart 1 = false ∧ yielded1.ended = false ∧ yielded1.fetch = [] ∧
    (session .model [job0]).mustRestart 1 = false := by decide +kernel
/-- The region of a list is not fused in some part of the table: one of regions 0 and 1 of die 3. -/
def placeOf (r : Nat) : ListPlace := { place5 with lclus := BitVec.ofNat 16 (lclusOf 3 r 1) }
theorem test_hyp_list_region : ∃ (r : Fin 8) (c : ClusterId), c.region = r ∧ c.die = 3 ∧ fused c.die c.region = false ∧
    base.physOf (placeOf r).lclus.toNat = some c := by
  rcases some_region_ok base 3 (by decide +kernel) (by decide +kernel) with h | h
  · exact ⟨0, { die := 3, region := 0, slot := 1 }, rfl, rfl, h.2, by decide +kernel⟩
  · exact ⟨1, { die := 3, region := 1, slot := 1 }, rfl, rfl, h.2, by decide +kernel⟩
theorem test_hyp_bell_late : let s := (live 7 none).setProc 12 scheduler Ps.restarting
    s.schedulerRestarts (s.ses 1).homeroom = true ∧ (s.ses 1).jobs = [{ job0 with due := some 7 }] ∧ (s.ses 1).closing = none ∧
    (s.ses 1).pauseTo = none := by decide +kernel
theorem test_hyp_vote_none : sampledTile.trap.bind trapStatus = none ∧ (sampledAt checkedTile).windowTile c0 1 = some checkedTile := by decide +kernel
theorem test_hyp_archive_card : (withCard.die 7).cards.length = 2 ∧ (List.replicate 64 (6 : Byte)).length = 64 := by decide +kernel
/-- Die 24 is the lowest die of a session that spans a device. -/
theorem test_hyp_weights_span : spanning.spans 1 = true ∧ (spanning.ses 1).dies.getLsbD 0 = true ∧ lowestDie (spanning.ses 1).dies = 0 := by
  decide +kernel
theorem test_hyp_exam_seat (slot : Fin 17) : ∀ x ∈ [0, 2], (inExam slot x).seatState { die := 0, region := 0, slot := slot } = x ∧
    InService (inExam slot x) ∧ (inExam slot x).pkg.drain = none := by unfold InService; revert slot; decide +kernel
theorem test_hyp_sem_busy : let s := (pausing id).wr (semCfgKey 24 8191) 0x1001
    Recovered s ∧ (s.semOwned 24 8191 && (s.clustersOfSession (s.semOwner 24 8191)).any (fun c => s.rf c.base F.exeSession == s.semOwner 24 8191
      && (s.exe c == Ex.running || s.exe c == Ex.waiting))) = true := by unfold Recovered; decide +kernel

/-! ### Further clauses: firmware, memory, links and registers -/

def latent0 : LatentSym := { code := 0x80, mu := 0, sigma := 8, capMu := 0, capSigma := 8 }
theorem test_wf_slice : (Instr.sliceEmit 1 table0 table0 [latent0]).wf = false ∧ (Instr.sliceEmit 1 table0 table0 [{ latent0 with code := 0x81 }]).wf = true := by
  decide +kernel
/-- Poison has reset the partition of die 6 three times. -/
def poisonedPart : State := { coresReady with parts := [{ waitingPart with poisonResets := 3 }, { dies := 0x1FFFF9C, state := .service }] }
theorem test_hyp_ready_poisoned : poisonedPart.dieOn 6 = true ∧ poisonedPart.pev = [] ∧
    poisonedPart.partOf 6 = some { waitingPart with poisonResets := 3 } ∧ (diesOf waitingPart.dies).all poisonedPart.coresRun = true := by decide +kernel
theorem test_hyp_reset_service : resetting.phase = 8 ∧ (resetOf 0x63).chart.failedDies = 0 ∧ (resetOf 0).phase = 8 ∧
    connected (BitVec.ofNat 25 ((resetOf 0).rf die12 F.fwcPartDies)) = false := by decide +kernel
theorem test_hyp_invalidate_nothing : (invalidating 0 1 0).bit (key 0 0) F.memInvStatusBusy = false ∧ (invalidating 0 1 0).bit (key 0 0) F.memInvCtrlAll = false ∧
    (invalidating 0 1 0).rf (key 0 0) F.memInvLen = 0 ∧ ((invalidating 0 1 0).ses 1).homeroom = 0 ∧
    ((invalidating 0 1 0).sf (key 0 0) F.memInvCtrlAll 1).bit (key 0 0) F.memInvCtrlAll = true := by decide +kernel
theorem test_hyp_memory_down : base.gddrUp 0 = false ∧ base.bit (portBase 3) F.memCxlStatusDevicePresent = false ∧
    (cxl 1).bit (portBase 3) F.memCxlStatusDevicePresent = true ∧ (cxl 0).bit (portBase 3) F.memCxlStatusLinkUp = false := by decide +kernel
theorem test_hyp_turns : let busy := fun d => d == 3 || d == 24
    nextTurn (fun d => d + 1) busy 3 2 = some (3, 2) ∧ nextTurn (fun d => d + 1) busy 3 0 = some (24, 25) ∧
    nextTurn (fun d => d + 1) busy 24 0 = some (3, 4) := by decide +kernel
/-- One packet of die 3 waits at the host link, which has credits for it. -/
def onePacket : Packet := { src := 3, lines := 1, vc := 1, flits := 1, reply := .sdoOk }
def queuedLink : State := hostLink.setLnk 0 { hostLink.lnk 0 with waiting := [onePacket] }
theorem test_hyp_pump : (queuedLink.lnk 0).waiting = [onePacket] ∧ (queuedLink.lnk 0).mayServe onePacket = true := by decide +kernel
/-- A held write of session 1 that fetch queue 5 of cluster 0.0.0 made, on a die without a route. -/
def heldWrite : State := { routeless.sf (lnkBase 8) F.lnkStatusState 0 with hostw := [⟨7, 0, 1, 0x40, [1], some (c0.fetchNo 5), false⟩] }
theorem test_hyp_route_lost : heldWrite.dieOn 7 = true ∧ heldWrite.anyHostLink 7 = false ∧ heldWrite.hostw.map (fun w => (w.die, w.ses, w.queue)) =
    [(7, 1, some (c0.fetchNo 5))] ∧ (1 : Nat) ≠ noSessionMark := by decide +kernel
theorem test_hyp_link_posts : sentSome.crf 11 false 31 F.lnkChSemDie = linkDie 11 ∨ (sentSome.ses 1).dies.getLsbD (sentSome.crf 11 false 31 F.lnkChSemDie) = true := by
  decide +kernel
theorem test_hyp_read_clear_scrub : (base.sf c0.base F.clsCtrlScrub 0).bit c0.base F.clsCtrlScrub = false ∧ clusterAt 0 0x10_0010 = some (c0, 0x010) ∧ openCount 0 0x10_0010 = false ∧
    base.present 0 0x10_0010 = true ∧ base.present 3 0x7E_101C = true ∧ base.noPasses 3 (base.rf (key 3 0) F.fwcTraceSel) = true := by decide +kernel

/-! ### Further clauses: restarts, votes, training and channels -/

/-- Every processor is ready 5 stamps after the start, 100 ms ago or a moment less. -/
def confirming (now : Nat) : State :=
  let s := atStamp (activating 3) (BitVec.ofNat 64 now)
  { s with fw := { s.fw with commitStamp := some 4, readyStamp := some 5 } }
theorem test_hyp_confirm_ready : (confirming 10_000_005).rf die12 F.fwcActStatusCode = Fw.committing ∧ (confirming 10_000_005).fw.commitRestart = false ∧
    (confirming 10_000_005).fw.readyStamp = some 5 ∧ (5 : W64).toNat + hundredMs ≤ ((confirming 10_000_005).stamp 12).toNat ∧
    ((confirming 10_000_004).stamp 12).toNat < (5 : W64).toNat + hundredMs ∧ Recovered (confirming 10_000_005) := by unfold Recovered; decide +kernel
/-- The last processor of a commit is ready. -/
def lastReady : State := (activating 3).setProc 24 2 Ps.restarting
theorem test_hyp_last_ready : lastReady.rf die12 F.fwcActStatusCode = Fw.committing ∧ lastReady.dieOn 24 = true ∧ lastReady.proc 24 2 = Ps.restarting ∧
    (∀ x ∈ allProcs, x ≠ (24, 2) → lastReady.proc x.1 x.2 = Ps.running) ∧ Recovered lastReady := by unfold Recovered; decide +kernel
/-- A processor that is restarting, and one with a region that permits an access. -/
def permitting : State :=
  let s := restarted 0
  s.setDie 12 { s.die 12 with procs := [(1, { regions := [{ base := 0x100, size := 0x10, read := true, write := true, exec := true }] })] }
theorem test_hyp_protection : (inRestart 1).proc 12 1 = Ps.restarting ∧ hasProc 12 1 = true ∧ (inRestart 1).permits 12 1 0x10F = false ∧
    permitting.permits 12 1 0x10F = true ∧ permitting.permits 12 1 0x110 = false ∧ permitting.proc 12 1 = Ps.running ∧ Recovered permitting ∧
    (restarts (.protection 12 1 0 0x10F)).map (fun x => x.2.2.1) = some Cause.protection := by unfold Recovered; decide +kernel
theorem test_hyp_answers_none : ((inRestart 1).die 12).answers = [] := by decide +kernel
theorem test_hyp_no_vote : (inPipes.cl c0).voting = false ∧ (feedDone.cl c0).voting = false ∧ inPipes.traceOn 3 = false ∧
    (atWork stepState).rf c0.base F.exeSession = 1 ∧ ((atWork stepState).ses 1).pauseTo = none := by decide +kernel
theorem test_hyp_training_clock : base.bit (key 24 0) F.pwrStatusRefclkLost = false ∧
    (base.sf (key 24 0) F.pwrStatusRefclkLost 1).bit (key 24 0) F.pwrStatusRefclkLost = true := by decide +kernel
theorem test_hyp_recovery_ready : let s := { coresReady with parts := [{ waitingPart with state := .recovery }, { dies := 0x1FFFF9C, state := .service }] }
    s.partOf 6 = some { waitingPart with state := .recovery } ∧ (diesOf waitingPart.dies).all s.coresRun = true ∧ Recovered s := by
  unfold Recovered; decide +kernel
/-- STOP is to end the stream of a session that is closed too. -/
theorem test_hyp_close_stopped : SessionCommand (closingState fun x => { x with stopAtBell := some St.sessionEnded }) 3 0x04 (cmd 4 []) [] 1 ∧
    ((closingState fun x => { x with stopAtBell := some St.sessionEnded }).ses 1).stopAtBell = some St.sessionEnded := by
  unfold SessionCommand NextCommand Recovered; decide +kernel
theorem test_hyp_lane_bounds : (∀ l ∈ endOut.lanesOf ch0, endOut.laneInside ch0 l 0 (endOut.rf (ch0.laneBase l) F.entLcLen) = true) ∧
    (∀ l ∈ endIn.lanesOf ch0, endIn.chInside ch0 ((endIn.chan ch0).desc + 8 * l + 4) 4 = true) := by decide +kernel
theorem test_hyp_bell_clock : (live 8 none).bit (key ((live 8 none).ses 1).homeroom 0) F.pwrStatusRefclkLost = false ∧
    ((live 8 none).ses 1).closing = none ∧ ((live 8 none).ses 1).pauseTo = none := by decide +kernel
theorem test_hyp_slot_state : base.slotState 0 1 3 < 8 ∧ (∀ p ∈ base.parts, p.leaving = none) := by decide +kernel

end Sys2Proof.Tests
end

section
/-!
PROOFS. The arithmetic of latents: the quantiser and its reconstruction are odd and round to nearest (R65, R66), and the CDF of a latent symbol
rises strictly because the interpolated logistic function never falls (R89, R90).
-/

namespace Sys2Proof.Proofs

open Machine Claims

/-! ### Codes (R65, R66) -/

/-- The magnitude of a code before the clamp of R65. -/
def codeMagnitude (a scale : Nat) : Nat := (2 * a * 127 + scale) / (2 * scale)

/-- The magnitude of a reconstruction. -/
def reconMagnitude (q scale : Nat) : Nat := (2 * q * scale + 127) / 254

@[simp] theorem codeMagnitude_zero (scale : Nat) : codeMagnitude 0 scale = 0 := by
  simp only [codeMagnitude]
  rcases Nat.eq_zero_or_pos scale with rfl | h
  · simp
  · exact Nat.div_eq_of_lt (by omega)

@[simp] theorem reconMagnitude_zero (scale : Nat) : reconMagnitude 0 scale = 0 := by simp [reconMagnitude]

theorem reconMagnitude_mono (scale : Nat) {p q : Nat} (h : p ≤ q) : reconMagnitude p scale ≤ reconMagnitude q scale := by
  unfold reconMagnitude
  gcongr

theorem quantise_eq (y : Int) (scale : Nat) :
    quantise y scale = (y.sign * (min (codeMagnitude y.natAbs scale) 127 : Nat), decide (127 < codeMagnitude y.natAbs scale)) := rfl

theorem quantise_neg (y : Int) (scale : Nat) : quantise (-y) scale = (-(quantise y scale).1, (quantise y scale).2) := by
  simp [quantise_eq]

/-- The sign of a value that is not negative drops out, for the code of 0 is 0. -/
theorem quantise_natCast (a scale : Nat) :
    quantise a scale = (((min (codeMagnitude a scale) 127 : Nat) : Int), decide (127 < codeMagnitude a scale)) := by
  rcases Nat.eq_zero_or_pos a with rfl | h
  · simp [quantise_eq]
  · rw [quantise_eq, Int.sign_natCast_of_ne_zero h.ne', one_mul, Int.natAbs_natCast]

theorem reconstruct_eq (q : Int) (scale : Nat) : reconstruct q scale = q.sign * (reconMagnitude q.natAbs scale : Nat) := rfl

theorem reconstruct_neg (q : Int) (scale : Nat) : reconstruct (-q) scale = -reconstruct q scale := by simp [reconstruct_eq]

theorem natAbs_reconstruct (q : Int) (scale : Nat) : (reconstruct q scale).natAbs = reconMagnitude q.natAbs scale := by
  rcases eq_or_ne q 0 with rfl | h
  · simp [reconstruct_eq]
  · simp [reconstruct_eq, Int.natAbs_mul, Int.natAbs_sign_of_ne_zero h]

theorem reconstruct_natCast (q scale : Nat) : reconstruct q scale = (reconMagnitude q scale : Nat) := by
  rcases Nat.eq_zero_or_pos q with rfl | h
  · simp [reconstruct_eq]
  · simp [reconstruct_eq, Int.sign_natCast_of_ne_zero h.ne']

/-- A magnitude inside the scale needs no clamp. -/
theorem codeMagnitude_le {a scale : Nat} (h : a ≤ scale) : codeMagnitude a scale ≤ 127 := by
  rcases Nat.eq_zero_or_pos scale with rfl | hs
  · simp [codeMagnitude]
  · exact Nat.lt_succ_iff.mp (Nat.div_lt_of_lt_mul (by omega))

/-- A code rounds to nearest: code times scale is off 127 times the magnitude by at most half a scale. -/
theorem codeMagnitude_nearest (a : Nat) {scale : Nat} (h : 0 < scale) :
    2 * codeMagnitude a scale * scale ≤ 254 * a + scale ∧ 254 * a < 2 * codeMagnitude a scale * scale + scale := by
  have hle := Nat.div_mul_le_self (2 * a * 127 + scale) (2 * scale)
  have hlt := Nat.lt_div_mul_add (a := 2 * a * 127 + scale) (b := 2 * scale) (by omega)
  have hprod : 2 * codeMagnitude a scale * scale = (2 * a * 127 + scale) / (2 * scale) * (2 * scale) := by
    unfold codeMagnitude; ring
  omega

/-- The error of a magnitude that is coded and reconstructed: half a step of the scale from the code, half a unit from the reconstruction. -/
theorem reconMagnitude_codeMagnitude (a : Nat) {scale : Nat} (h : 0 < scale) :
    254 * ((reconMagnitude (codeMagnitude a scale) scale : Int) - a).natAbs ≤ scale + 127 := by
  obtain ⟨hle, hlt⟩ := codeMagnitude_nearest a h
  unfold reconMagnitude
  omega

/-- The bound for a value that is not negative; the other sign follows as both functions are odd. -/
theorem latentCodeErrorBound_natCast (a : Nat) {scale : Nat} (h : 0 < scale) (ha : a ≤ scale) :
    (quantise a scale).2 = false ∧ (quantise a scale).1.natAbs ≤ 127 ∧
    254 * (reconstruct (quantise a scale).1 scale - a).natAbs ≤ scale + 127 := by
  have hq := codeMagnitude_le ha
  have hcode : quantise a scale = ((codeMagnitude a scale : Int), false) := by
    rw [quantise_natCast, Nat.min_eq_left hq, decide_eq_false (by omega)]
  rw [hcode, reconstruct_natCast]
  exact ⟨rfl, hq, reconMagnitude_codeMagnitude a h⟩

theorem latentCodeErrorBound : LatentCodeErrorBound := by
  intro y scale h hy
  obtain ⟨a, rfl | rfl⟩ := y.eq_nat_or_neg
  · exact latentCodeErrorBound_natCast a h (by simpa using hy)
  · obtain ⟨hclamp, hcode, herr⟩ := latentCodeErrorBound_natCast a h (by simpa using hy)
    rw [quantise_neg]
    refine ⟨hclamp, by simpa using hcode, ?_⟩
    rw [reconstruct_neg, ← neg_sub', Int.natAbs_neg]
    exact herr

theorem codesReconstruct : CodesReconstruct := by
  refine fun q scale => ⟨rfl, reconstruct_neg q scale, fun p hp => ?_⟩
  rw [natAbs_reconstruct, natAbs_reconstruct]
  exact reconMagnitude_mono scale hp

/-! ### The CDF of a latent symbol (R89, R90) -/

/-- Entry i of the logistic table, and 1 beyond its end: the points that G interpolates between. -/
def logisticPoint (i : Nat) : Nat := logistic.getD i 65536

theorem logisticPoint_of_ge {i : Nat} (h : 64 ≤ i) : logisticPoint i = 65536 := List.getD_eq_default _ _ h

theorem logisticPoint_of_lt {i : Nat} (h : i < 64) : logisticPoint i = logistic.getD i 0 := by
  have hlen : i < logistic.length := h
  rw [logisticPoint, List.getD_eq_getElem _ _ hlen, List.getD_eq_getElem _ _ hlen]

theorem logisticPoint_mono : Monotone logisticPoint := by
  refine monotone_nat_of_le_succ fun i => ?_
  by_cases h : i < 64
  · have hrows : ∀ j < 64, logisticPoint j ≤ logisticPoint (j + 1) := by decide
    exact hrows i h
  · rw [logisticPoint_of_ge (by omega), logisticPoint_of_ge (by omega)]

/-- G is the rounded interpolation between the two points about its argument; beyond the table both are 1. -/
theorem cdfG_eq (x : Nat) : cdfG x = logisticPoint (x / 256) +
    ((logisticPoint (x / 256 + 1) - logisticPoint (x / 256)) * (x % 256) + 128) / 256 := by
  unfold cdfG
  by_cases hend : 64 ≤ x / 256
  · simp [hend, logisticPoint_of_ge hend, logisticPoint_of_ge (Nat.le_add_right_of_le hend)]
  · have hnext : (if x / 256 = 63 then 65536 else logistic.getD (x / 256 + 1) 0) = logisticPoint (x / 256 + 1) := by
      split
      · next hlast => rw [hlast]; rfl
      · exact (logisticPoint_of_lt (by omega)).symm
    simp only [if_neg hend, hnext, logisticPoint_of_lt (Nat.lt_of_not_le hend)]

theorem logisticPoint_le_cdfG (x : Nat) : logisticPoint (x / 256) ≤ cdfG x := cdfG_eq x ▸ Nat.le_add_right _ _

theorem cdfG_le_logisticPoint (x : Nat) : cdfG x ≤ logisticPoint (x / 256 + 1) := by
  have hrise := logisticPoint_mono (Nat.le_succ (x / 256))
  have hpart : (logisticPoint (x / 256 + 1) - logisticPoint (x / 256)) * (x % 256) ≤
      (logisticPoint (x / 256 + 1) - logisticPoint (x / 256)) * 255 := by
    gcongr
    omega
  rw [cdfG_eq]
  simp only [Nat.succ_eq_add_one] at hrise
  omega

/-- G never falls: within a row of the table by the interpolation, between rows through the point that separates them. -/
theorem cdfG_mono : Monotone cdfG := by
  intro x y hxy
  rcases (Nat.div_le_div_right hxy : x / 256 ≤ y / 256).lt_or_eq with hrow | hrow
  · calc cdfG x ≤ logisticPoint (x / 256 + 1) := cdfG_le_logisticPoint x
      _ ≤ logisticPoint (y / 256) := logisticPoint_mono hrow
      _ ≤ cdfG y := logisticPoint_le_cdfG y
  · have hf : x % 256 ≤ y % 256 := by omega
    rw [cdfG_eq, cdfG_eq, hrow]
    gcongr

theorem cdfG_ge_half (x : Nat) : 32768 ≤ cdfG x :=
  calc 32768 = logisticPoint 0 := rfl
    _ ≤ logisticPoint (x / 256) := logisticPoint_mono (Nat.zero_le _)
    _ ≤ cdfG x := logisticPoint_le_cdfG x

theorem cdfG_le_one (x : Nat) : cdfG x ≤ 65536 :=
  calc cdfG x ≤ logisticPoint (x / 256 + 1) := cdfG_le_logisticPoint x
    _ ≤ logisticPoint (x / 256 + 64) := logisticPoint_mono (by omega)
    _ = 65536 := logisticPoint_of_ge (by omega)

/-- |d| / σ as an argument of G, rounded to nearest. -/
def cdfArg (a sigma : Nat) : Nat := (2 * a * 2048 + sigma) / (2 * sigma)

theorem cdfArg_mono (sigma : Nat) {a b : Nat} (h : a ≤ b) : cdfArg a sigma ≤ cdfArg b sigma := by
  unfold cdfArg
  gcongr

theorem cdfF_of_nonneg {d : Int} (sigma : Nat) (h : 0 ≤ d) : cdfF d sigma = cdfG (cdfArg d.natAbs sigma) := if_pos h

theorem cdfF_of_neg {d : Int} (sigma : Nat) (h : d < 0) : cdfF d sigma = 65536 - cdfG (cdfArg d.natAbs sigma) :=
  if_neg (Int.not_le.mpr h)

theorem cdfF_le_one (d : Int) (sigma : Nat) : cdfF d sigma ≤ 65536 := by
  rcases le_or_gt 0 d with h | h
  · exact cdfF_of_nonneg sigma h ▸ cdfG_le_one _
  · exact cdfF_of_neg sigma h ▸ Nat.sub_le _ _

/-- F never falls: it follows G above 0, mirrors it below, and the two sides meet at a half. -/
theorem cdfF_mono (sigma : Nat) : Monotone (cdfF · sigma) := by
  intro d e hde
  rcases le_or_gt 0 d with hd | hd
  · simp only [cdfF_of_nonneg sigma hd, cdfF_of_nonneg sigma (hd.trans hde)]
    exact cdfG_mono (cdfArg_mono sigma (by omega))
  · rcases le_or_gt 0 e with he | he
    · simp only [cdfF_of_neg sigma hd, cdfF_of_nonneg sigma he]
      have := cdfG_ge_half (cdfArg d.natAbs sigma)
      have := cdfG_ge_half (cdfArg e.natAbs sigma)
      omega
    · simp only [cdfF_of_neg sigma hd, cdfF_of_neg sigma he]
      exact Nat.sub_le_sub_left (cdfG_mono (cdfArg_mono sigma (by omega))) _

theorem latentCdf_zero (mu : Int) (sigma : Nat) : latentCdf mu sigma 0 = 0 := rfl

theorem latentCdf_last (mu : Int) (sigma : Nat) : latentCdf mu sigma 255 = 65536 := rfl

theorem latentCdf_inner (mu : Int) (sigma : Nat) {k : Nat} (h0 : 0 < k) (h : k < 255) :
    latentCdf mu sigma k = cdfF (16 * k - 2040 - mu) sigma * 65281 / 65536 + k := by
  simp [latentCdf, h0.ne', Nat.not_le.mpr h]

/-- The factor of R90 leaves room for one count of each of the 255 symbols, so the last of them has its own. -/
theorem latentCdf_inner_lt (mu : Int) (sigma : Nat) {k : Nat} (h0 : 0 < k) (h : k < 255) : latentCdf mu sigma k < 65536 := by
  have hF := cdfF_le_one (16 * k - 2040 - mu) sigma
  rw [latentCdf_inner mu sigma h0 h]
  omega

theorem latentCdf_inner_lt_succ (mu : Int) (sigma : Nat) {k : Nat} (h0 : 0 < k) (h : k + 1 < 255) :
    latentCdf mu sigma k < latentCdf mu sigma (k + 1) := by
  have hF : cdfF (16 * k - 2040 - mu) sigma ≤ cdfF (16 * (k + 1 : Nat) - 2040 - mu) sigma :=
    cdfF_mono sigma (by push_cast; omega)
  rw [latentCdf_inner mu sigma h0 (by omega), latentCdf_inner mu sigma k.succ_pos h]
  exact Nat.add_lt_add_of_le_of_lt (by gcongr) k.lt_succ_self

theorem latentCdf_lt_succ (mu : Int) (sigma : Nat) {k : Nat} (h : k < 255) : latentCdf mu sigma k < latentCdf mu sigma (k + 1) := by
  rcases Nat.eq_zero_or_pos k with rfl | h0
  · rw [latentCdf_zero, latentCdf_inner mu sigma Nat.one_pos (by omega)]
    omega
  · rcases (Nat.succ_le_of_lt h).lt_or_eq with hin | hlast
    · exact latentCdf_inner_lt_succ mu sigma h0 hin
    · obtain rfl : k = 254 := by omega
      exact latentCdf_last mu sigma ▸ latentCdf_inner_lt mu sigma h0 h

theorem latentCdfRisesStrictly : LatentCdfRisesStrictly :=
  fun mu sigma _ _ hk => ⟨latentCdf_zero mu sigma, latentCdf_last mu sigma, latentCdf_lt_succ mu sigma hk⟩

/-- Settles O23, from the rounding of codes and the monotone interpolation of the logistic table. -/
theorem latentArithmetic : Obligations.LatentArithmetic :=
  ⟨latentCodeErrorBound, codesReconstruct, latentCdfRisesStrictly⟩

end Sys2Proof.Proofs
end

section
/-!
PROOFS. The registers of a fetch engine: ARM, ABORT, the descriptor window and ENABLE (R264 to R267, R272, R279, R288, R289). Each command changes
the engine's own tables only, and the field that it sets is read back past the other fields that it writes.
-/

namespace Sys2Proof.Proofs

open Machine Claims

/-! ### Between commands nothing is left to settle (R287, R463) -/

theorem toRecovery_of_none_out {s : State} (h : ∀ p ∈ s.parts, p.state ≠ .service ∧ p.state ≠ .test) : s.toRecovery = s := by
  have hout : s.parts.any (fun p => p.state == .service || p.state == .test) = false := by simpa using h
  simp only [State.toRecovery, hout, Bool.false_eq_true, if_false]

theorem settle_of_recovered {s : State} (h : Recovered s) : s.settle = s := by
  obtain ⟨hpev, hdrain⟩ := h
  have hrecovery : (if s.pkg.drain.isSome && !s.anySession then s.toRecovery else s) = s := by
    split
    · next hd =>
      simp only [Bool.and_eq_true, Bool.not_eq_true'] at hd
      exact toRecovery_of_none_out (hdrain hd.1 hd.2)
    · rfl
  rw [s.settle_eq (.inl hpev), hrecovery, ← hpev]

theorem onDie_of_recovered {s : State} {d : Nat} (f : State → State) (hd : s.dieOn d = true) (h : Recovered (f s)) :
    onDie d s f = .next (f s) := by
  rw [onDie_on s d f hd, settle_of_recovered h]

theorem sameBytes_of_mem {s t : State} (h : t.mem = s.mem) : SameBytes s t := fun a => by rw [State.byte, State.byte, h]

/-! ### The registers of an engine and of its queues (R289) -/

section
variable (s : State) (c : ClusterId) (q : Nat)

theorem rf_sf_other_register (b : Nat) {f g : Fld} (x : Nat) (h : g.off ≠ f.off) : (s.sf b f x).rf b g = s.rf b g :=
  s.rf_sf_ne b b f g x (by omega)

/-- The registers of an engine end where those of its queues begin. -/
theorem rf_base_sf_fetchBase {f g : Fld} (x : Nat) (hg : g.off < 0xC00) : (s.sf (c.fetchBase q) f x).rf c.base g = s.rf c.base g :=
  s.rf_sf_ne _ _ f g x (by unfold ClusterId.fetchBase; omega)

theorem rf_fetchBase_sf_base {f g : Fld} (x : Nat) (hf : f.off < 0xC00) :
    (s.sf c.base f x).rf (c.fetchBase q) g = s.rf (c.fetchBase q) g :=
  s.rf_sf_ne _ _ f g x (by unfold ClusterId.fetchBase; omega)

/-- The registers of firmware processors lie above those of clusters. -/
theorem fetchBase_add_lt_procBase (p : Nat) {q : Nat} (hq : q < 64) {o : Nat} (ho : o < 0x10) : c.fetchBase q + o < procBase c.die p := by
  unfold ClusterId.fetchBase ClusterId.base procBase key clusterOff
  omega

theorem fetQsel_lt : s.rf c.base F.fetQsel < 64 := s.rf_lt c.base F.fetQsel

theorem fqSession_lt : s.fqSession c q < 4096 := s.rf_lt (c.fetchBase q) F.fetQCtrlSession

theorem fetchOn_eq_of_enable {s t : State} (h : t.rf c.base F.fetCtrlEnable = s.rf c.base F.fetCtrlEnable) : t.fetchOn c = s.fetchOn c := by
  unfold State.fetchOn State.bit
  rw [h]

/-! ### A queue's entry and state -/

theorem fqState_setFqState {st : Nat} (h : st < 8) : (s.setFqState c q st).fqState c q = st :=
  s.rf_sf_small _ F.fetQStatusState st (by decide) (by decide) h

@[simp] theorem fqSession_setFqState (st : Nat) : (s.setFqState c q st).fqSession c q = s.fqSession c q :=
  rf_sf_other_register s _ st (by decide)

@[simp] theorem posted_setFqState (st : Nat) :
    (s.setFqState c q st).rf (c.fetchBase q) F.fetQStatusPosted = s.rf (c.fetchBase q) F.fetQStatusPosted :=
  s.rf_sf_disjoint _ _ _ st rfl (by decide) (by decide) (by decide)

@[simp] theorem fq_putFq_same (x : FetchQ) : (s.putFq c q x).fq c q = x := s.fq_setFq_same c q x

@[simp] theorem fqState_putFq (x : FetchQ) : (s.putFq c q x).fqState c q = s.fqState c q :=
  (s.setFq c q x).rf_sf_disjoint _ _ _ _ rfl (by decide) (by decide) (by decide)

@[simp] theorem fqSession_putFq (x : FetchQ) : (s.putFq c q x).fqSession c q = s.fqSession c q :=
  rf_sf_other_register (s.setFq c q x) _ _ (by decide)

@[simp] theorem posted_putFq (x : FetchQ) :
    (s.putFq c q x).rf (c.fetchBase q) F.fetQStatusPosted = s.rf (c.fetchBase q) F.fetQStatusPosted :=
  (s.setFq c q x).rf_sf_disjoint _ _ _ _ rfl (by decide) (by decide) (by decide)

@[simp] theorem fetchOn_putFq (x : FetchQ) : (s.putFq c q x).fetchOn c = s.fetchOn c :=
  fetchOn_eq_of_enable c (rf_base_sf_fetchBase (s.setFq c q x) c q _ (by decide))

/-! ### Errors of a queue -/

/-- FET_ERR shows the error's bit and the queue. -/
theorem fetErr_shows {q : Nat} (hq : q < 64) {f : Fld} (hoff : f.off = F.fetErrQueue.off) (hbit : f.hi < F.fetErrQueue.lo) (hone : f.lo = f.hi) :
    (s.fetErr c q f).bit c.base f = true ∧ (s.fetErr c q f).rf c.base F.fetErrQueue = q := by
  constructor
  · have hkeep : (s.fetErr c q f).rf c.base f = (s.raise c.base f).rf c.base f :=
      (s.raise c.base f).rf_sf_disjoint _ _ _ q hoff (by decide) (by omega) (.inr hbit)
    rw [State.bit, hkeep]
    exact s.bit_raise_same c.base f (Nat.lt_trans hbit (by decide)) hone
  · exact (s.raise c.base f).rf_sf_small _ F.fetErrQueue q (by decide) (by decide) hq

/-- An error event is dropped, counted as lost, or held for the scheduler core (R430). -/
theorem errEvent_cases (d code : Nat) : s.errEvent d code = s ∨ s.errEvent d code = s.bump (procBase d scheduler) F.fwcEventLost 1 ∨
    ∃ x, s.errEvent d code = s.setDie d x := by
  simp only [State.errEvent, State.event, show ¬ scheduler = healthCore by decide, if_false]
  split
  · exact .inl rfl
  · split
    · exact .inl rfl
    · split
      · exact .inr (.inl rfl)
      · exact .inr (.inr ⟨_, rfl⟩)

theorem errEvent_fields (d code : Nat) : ∃ regs dies, s.errEvent d code = { s with regs := regs, dies := dies } := by
  obtain h | h | ⟨x, h⟩ := errEvent_cases s d code <;> exact ⟨_, _, h⟩

theorem rf_errEvent {d code b : Nat} {f : Fld} (hk : b + f.off ≠ procBase d scheduler + F.fwcEventLost.off) :
    (s.errEvent d code).rf b f = s.rf b f := by
  obtain h | h | ⟨x, h⟩ := errEvent_cases s d code <;> rw [h]
  · exact s.rf_sf_ne _ _ _ _ _ hk
  · rfl

end

/-! ### ARM (R264, R266, R279) -/

section
variable (s : State) (c : ClusterId) (q n : Nat)

/-- The state in which ARM arms queue q: an idle queue forgets the instruction that armed it last (R448), a busy one stays as it is. -/
def unarmed : State := if s.fqBusy c q then s else s.setFq c q { s.fq c q with armer := none }

/-- A queue with a good descriptor as it is armed for session n, before its state is set. -/
def armed : State :=
  ((s.sf (c.fetchBase q) F.fetQCtrlSession n).sf (c.fetchBase q) F.fetQStatusPosted 0).putFq c q
    { desc := (s.fq c q).desc, armer := (s.fq c q).armer }

theorem unarmed_fields : ∃ fetch, unarmed s c q = { s with fetch := fetch } := by
  unfold unarmed
  split <;> exact ⟨_, rfl⟩

theorem fq_unarmed (h : s.fqBusy c q = false) : (unarmed s c q).fq c q = { s.fq c q with armer := none } := by
  rw [unarmed, if_neg (by simp [h]), State.fq_setFq_same]

theorem desc_unarmed : ((unarmed s c q).fq c q).desc = (s.fq c q).desc := by
  cases h : s.fqBusy c q with
  | true => rw [unarmed, if_pos h]
  | false => rw [fq_unarmed s c q h]

theorem rf_unarmed (b : Nat) (f : Fld) : (unarmed s c q).rf b f = s.rf b f := by
  obtain ⟨fetch, h⟩ := unarmed_fields s c q
  rw [h]
  rfl

theorem fqBusy_unarmed : (unarmed s c q).fqBusy c q = s.fqBusy c q := by
  rw [State.fqBusy, State.fqState, rf_unarmed]
  rfl

theorem badDescFor_unarmed (b : List Byte) : (unarmed s c q).badDescFor c n b = s.badDescFor c n b := by
  obtain ⟨fetch, h⟩ := unarmed_fields s c q
  rw [h]
  rfl

theorem exec_arm (hd : s.dieOn c.die = true) :
    exec (.arm c) s = .next ((unarmed s c (s.rf c.base F.fetQsel)).armQueue c (s.rf c.base F.fetQsel)
      (s.fqSession c (s.rf c.base F.fetQsel))).settle := by
  have hses : (unarmed s c (s.rf c.base F.fetQsel)).fqSession c (s.rf c.base F.fetQsel) = s.fqSession c (s.rf c.base F.fetQsel) :=
    rf_unarmed s c _ _ _
  rw [← hses]
  exact onDie_on s c.die (fun s => (unarmed s c (s.rf c.base F.fetQsel)).armQueue c (s.rf c.base F.fetQsel)
    ((unarmed s c (s.rf c.base F.fetQsel)).fqSession c (s.rf c.base F.fetQsel))) hd

theorem armQueue_of_fused (h : fused c.die c.region = true) : s.armQueue c q n = s := if_pos h

theorem armQueue_of_bad (hf : fused c.die c.region = false) (hb : s.fqBusy c q = false) (hbad : s.badDescFor c n (s.fq c q).desc = true) :
    s.armQueue c q n = (s.fetErr c q F.fetErrBadDesc).endSession n St.fetBadDesc (s.exeDetail c 0) := by
  simp [State.armQueue, hf, hb, hbad]

theorem armQueue_of_good {d : Desc} (hd : parseDesc (s.fq c q).desc = d) (hf : fused c.die c.region = false) (hb : s.fqBusy c q = false)
    (hgood : s.badDescFor c n (s.fq c q).desc = false) :
    s.armQueue c q n =
      if d.empty then
        if (armed s c q n).fetchOn c then (armed s c q n).postDone c q d else (armed s c q n).setFqState c q Fq.active
      else (armed s c q n).setFqState c q (if d.creditEn then Fq.creditWait else Fq.active) := by
  subst hd
  simp only [State.armQueue, hf, hb, hgood, Bool.false_eq_true, if_false]
  rfl

@[simp] theorem fq_armed : (armed s c q n).fq c q = { desc := (s.fq c q).desc, armer := (s.fq c q).armer } := fq_putFq_same _ c q _

theorem fqState_armed : (armed s c q n).fqState c q = s.fqState c q := by
  rw [armed, fqState_putFq]
  exact (State.rf_sf_disjoint _ _ F.fetQStatusPosted F.fetQStatusState 0 rfl (by decide) (by decide) (by decide)).trans
    (rf_sf_other_register s _ n (by decide))

theorem fqSession_armed (hn : n < 4096) : (armed s c q n).fqSession c q = n := by
  rw [armed, fqSession_putFq, State.fqSession, rf_sf_other_register _ _ _ (by decide), State.rf_sf_small _ _ _ _ (by decide) (by decide) hn]

theorem posted_armed : (armed s c q n).rf (c.fetchBase q) F.fetQStatusPosted = 0 := by
  rw [armed, posted_putFq, State.rf_sf_same _ _ _ _ (by decide) (by decide)]
  rfl

theorem fetchOn_armed : (armed s c q n).fetchOn c = s.fetchOn c := by
  rw [armed, fetchOn_putFq]
  refine fetchOn_eq_of_enable c ?_
  rw [rf_base_sf_fetchBase _ c q _ (by decide), rf_base_sf_fetchBase _ c q _ (by decide)]

/-- The posts of a transfer change the posts only. -/
theorem postDone_fields (d : Desc) : ∃ posts, s.postDone c q d = { s with posts := posts } := by
  unfold State.postDone State.postReady State.postFor State.post
  dsimp only
  split_ifs <;> exact ⟨_, rfl⟩

/-- An arm of a busy queue is ignored and shown (R266); the event of it concerns the scheduler core (R430). -/
theorem armQueue_busy_spec (hq : q < 64) (hf : fused c.die c.region = false) (hb : s.fqBusy c q = true) :
    (s.armQueue c q n).bit (c.fetchBase q) F.fetQStatusRearmWhileBusy = true ∧ (s.armQueue c q n).fqState c q = s.fqState c q ∧
      ∃ regs dies, s.armQueue c q n = { s with regs := regs, dies := dies } := by
  have hkey : c.fetchBase q + F.fetQStatusState.off ≠ procBase c.die scheduler + F.fwcEventLost.off := by
    have := fetchBase_add_lt_procBase c scheduler hq (show F.fetQStatusState.off < 0x10 by decide)
    omega
  have harm : s.armQueue c q n =
      (s.raise (c.fetchBase q) F.fetQStatusRearmWhileBusy).errEvent c.die (0x800 + F.fetQStatusRearmWhileBusy.hi) := by
    simp [State.armQueue, hf, hb]
  rw [harm]
  refine ⟨?_, ?_, ?_⟩
  · rw [State.bit, rf_errEvent _ (f := F.fetQStatusRearmWhileBusy) hkey]
    exact s.bit_raise_same _ _ (by decide) rfl
  · rw [State.fqState, rf_errEvent _ hkey]
    exact s.rf_sf_disjoint _ _ _ _ rfl (by decide) (by decide) (by decide)
  · exact errEvent_fields _ _ _

/-- State t holds what an arm of the queue of s for session n leaves, whatever its state is: the transfer stands at its start, and only the engine's
own tables have changed. -/
structure ArmedFrom (t : State) : Prop where
  entry : t.fq c q = { desc := (s.fq c q).desc, armer := (s.fq c q).armer }
  session : t.fqSession c q = n
  posted : t.rf (c.fetchBase q) F.fetQStatusPosted = 0
  fields : ∃ regs fetch posts, t = { s with regs := regs, fetch := fetch, posts := posts }

theorem armedFrom_setFqState (hn : n < 4096) (st : Nat) : ArmedFrom s c q n ((armed s c q n).setFqState c q st) where
  entry := fq_armed s c q n
  session := (fqSession_setFqState _ c q st).trans (fqSession_armed s c q n hn)
  posted := (posted_setFqState _ c q st).trans (posted_armed s c q n)
  fields := ⟨_, _, _, rfl⟩

theorem armedFrom_postDone (hn : n < 4096) (d : Desc) : ArmedFrom s c q n ((armed s c q n).postDone c q d) := by
  obtain ⟨posts, hposts⟩ := postDone_fields (armed s c q n) c q d
  rw [hposts]
  exact ⟨fq_armed s c q n, fqSession_armed s c q n hn, posted_armed s c q n, _, _, _, rfl⟩

theorem fqState_postDone (d : Desc) : (s.postDone c q d).fqState c q = s.fqState c q := by
  obtain ⟨posts, hposts⟩ := postDone_fields s c q d
  rw [hposts]
  rfl

/-- An arm of an idle queue with a good descriptor: a transfer that moves nothing is done at once where the engine may post (R279, R289), any other
begins with its credit (R266, R270). -/
theorem armQueue_good_spec {d : Desc} (hd : parseDesc (s.fq c q).desc = d) (hf : fused c.die c.region = false) (hb : s.fqBusy c q = false)
    (hgood : s.badDescFor c n (s.fq c q).desc = false) (hn : n < 4096) :
    ArmedFrom s c q n (s.armQueue c q n) ∧
      (if d.empty then (s.armQueue c q n).fqBusy c q = !s.fetchOn c
        else (s.armQueue c q n).fqState c q = if d.creditEn then Fq.creditWait else Fq.active) ∧
      (d.empty = false → (s.armQueue c q n).posts = s.posts) := by
  rw [armQueue_of_good s c q n hd hf hb hgood, fetchOn_armed]
  have hidle : s.fqState c q = Fq.idle := by simpa [State.fqBusy] using hb
  cases d.empty with
  | true =>
    cases s.fetchOn c with
    | true => exact ⟨armedFrom_postDone s c q n hn d, by simp [State.fqBusy, fqState_postDone, fqState_armed, hidle], by simp⟩
    | false => exact ⟨armedFrom_setFqState s c q n hn _, by simp [State.fqBusy, fqState_setFqState _ c q (show Fq.active < 8 by decide)], by simp⟩
  | false =>
    refine ⟨armedFrom_setFqState s c q n hn _, ?_, fun _ => rfl⟩
    exact fqState_setFqState _ c q (by split <;> decide)

end

theorem armStartsTransfer : ArmStartsTransfer := by
  intro s c hdie hrec q x d
  have hq : q < 64 := fetQsel_lt s c
  have hexec : exec (.arm c) s = .next ((unarmed s c q).armQueue c q (s.fqSession c q)).settle := exec_arm s c hdie
  obtain ⟨fetch, hunarmed⟩ := unarmed_fields s c q
  refine ⟨fun hf => ?fused, fun hf hb => ?busy, fun hf hb hgood => ?good, fun hf hb hbad => ?bad⟩
  case fused =>
    have hrec' : Recovered (unarmed s c q) := by rw [hunarmed]; exact hrec
    rw [armQueue_of_fused _ c q _ hf, settle_of_recovered hrec'] at hexec
    exact ⟨_, hexec, by rw [hunarmed], desc_unarmed s c q⟩
  case busy =>
    rw [unarmed, if_pos hb] at hexec
    obtain ⟨hbit, hstate, regs, dies, hfields⟩ := armQueue_busy_spec s c q (s.fqSession c q) hq hf hb
    have hrec' : Recovered (s.armQueue c q (s.fqSession c q)) := by rw [hfields]; exact hrec
    rw [settle_of_recovered hrec'] at hexec
    exact ⟨_, hexec, hbit, by rw [hfields]; rfl, hstate, by rw [hfields]⟩
  case good =>
    obtain ⟨harmed, hstate, hposts⟩ := armQueue_good_spec (unarmed s c q) c q (s.fqSession c q) (congrArg parseDesc (desc_unarmed s c q)) hf
      (by rw [fqBusy_unarmed, hb]) (by rw [badDescFor_unarmed, desc_unarmed, hgood]) (fqSession_lt s c q)
    obtain ⟨regs, fetch', posts, hfields⟩ := harmed.fields
    have hrec' : Recovered ((unarmed s c q).armQueue c q (s.fqSession c q)) := by rw [hfields, hunarmed]; exact hrec
    rw [settle_of_recovered hrec'] at hexec
    have hon : (unarmed s c q).fetchOn c = s.fetchOn c := fetchOn_eq_of_enable c (rf_unarmed s c q _ _)
    rw [hon] at hstate
    refine ⟨_, hexec, ?_, harmed.session, hstate, harmed.posted, sameBytes_of_mem ?_, fun h => (hposts h).trans ?_, ?_, ?_⟩
    · rw [harmed.entry, fq_unarmed s c q hb]
    · rw [hfields, hunarmed]
    · rw [hunarmed]
    · rw [hfields, hunarmed]
    · rw [hfields, hunarmed]
  case bad =>
    rw [armQueue_of_bad _ c q _ hf (by rw [fqBusy_unarmed, hb]) (by rw [badDescFor_unarmed, desc_unarmed, hbad])] at hexec
    obtain ⟨hbit, hqueue⟩ := fetErr_shows (unarmed s c q) c hq (f := F.fetErrBadDesc) rfl (by decide) rfl
    have hdetail : (unarmed s c q).exeDetail c 0 = s.exeDetail c 0 := by rw [hunarmed]; rfl
    rw [hdetail] at hexec
    exact ⟨_, hexec, hbit, hqueue, by rw [hunarmed]; rfl⟩

/-! ### ABORT (R288) -/

section
variable (s : State) (c : ClusterId) (q : Nat)

/-- Nothing has changed but what waits at dies and at links. -/
def WaitingChanged (s t : State) : Prop := ∃ dies links, t = { s with dies := dies, links := links }

theorem waitingChanged_dropWrites (no : Nat) : WaitingChanged s (s.dropWrites no) := by
  refine foldl_prop (WaitingChanged s) _ ?link _ _ (foldl_prop (WaitingChanged s) _ ?die _ _ ⟨_, _, rfl⟩)
  case link =>
    rintro _ e ⟨dies, links, rfl⟩
    split <;> exact ⟨_, _, rfl⟩
  case die =>
    rintro _ d ⟨dies, links, rfl⟩
    dsimp only
    split <;> exact ⟨_, _, rfl⟩

theorem exec_fetQAbort {q : FetchNo} (hd : s.dieOn c.die = true) (h : Recovered (s.abortQueue c q)) :
    exec (.fetQAbort c q) s = .next (s.abortQueue c q) :=
  onDie_of_recovered (fun s => s.abortQueue c q) hd h

theorem abortQueue_of_idle (hb : s.fqBusy c q = false) : s.abortQueue c q = s := if_neg (by simp [hb])

/-- The entry of an aborted queue: its descriptor is kept, nothing is in flight. -/
def abortedEntry (x : FetchQ) : FetchQ := { desc := x.desc, armer := x.armer }

/-- An abort of a busy queue: the queue is idle, and of the registers only its FET_Q_STATUS has changed. -/
theorem abortQueue_busy_spec (hb : s.fqBusy c q = true) :
    (s.abortQueue c q).fqState c q = Fq.idle ∧ (s.abortQueue c q).rf (c.fetchBase q) F.fetQStatusOutstanding = 0 ∧
      (s.abortQueue c q).fq c q = abortedEntry (s.fq c q) ∧ RegsBut [c.fetchBase q + F.fetQStatusState.off] s (s.abortQueue c q) ∧
      ∃ regs fetch dies links, s.abortQueue c q = { s with regs := regs, fetch := fetch, dies := dies, links := links } := by
  obtain ⟨dies, links, hdrop⟩ := waitingChanged_dropWrites (s.setFq c q (abortedEntry (s.fq c q))) (c.fetchNo q)
  obtain ⟨x, habort⟩ : ∃ x, s.abortQueue c q = ((((s.setFq c q (abortedEntry (s.fq c q))).dropWrites (c.fetchNo q)).sf
      (c.fetchBase q) F.fetQStatusState Fq.idle).sf (c.fetchBase q) F.fetQStatusOutstanding 0).setDie c.die x :=
    ⟨_, if_pos hb⟩
  rw [habort, hdrop]
  refine ⟨?_, ?_, s.fq_setFq_same c q _, fun k hk => ?_, _, _, _, _, rfl⟩
  · exact (State.rf_sf_disjoint _ _ F.fetQStatusOutstanding F.fetQStatusState 0 rfl (by decide) (by decide) (by decide)).trans
      (State.rf_sf_small _ _ F.fetQStatusState Fq.idle (by decide) (by decide) (by decide))
  · exact State.rf_sf_same _ _ F.fetQStatusOutstanding 0 (by decide) (by decide)
  · rw [List.mem_singleton] at hk
    exact (State.rd_sf_ne _ _ _ F.fetQStatusOutstanding 0 hk).trans (State.rd_sf_ne _ _ _ F.fetQStatusState Fq.idle hk)

end

theorem abortStopsQueue : AbortStopsQueue := by
  intro s c q hdie hrec
  cases hb : s.fqBusy c q with
  | false =>
    have hsame := abortQueue_of_idle s c q hb
    exact ⟨_, exec_fetQAbort s c hdie (by rw [hsame]; exact hrec), hsame⟩
  | true =>
    obtain ⟨hstate, hout, hentry, hregs, regs, fetch, dies, links, hfields⟩ := abortQueue_busy_spec s c q hb
    refine ⟨_, exec_fetQAbort s c hdie (by rw [hfields]; exact hrec), ?_⟩
    rw [if_pos rfl, hentry]
    exact ⟨hstate, rfl, rfl, rfl, hout, hregs, sameBytes_of_mem (by rw [hfields]), by rw [hfields], by rw [hfields]⟩

/-! ### The descriptor window (R267) -/

theorem length_natLe (n v : Nat) : (natLe n v).length = n := by
  induction n generalizing v with
  | zero => rfl
  | succ n ih => simp [natLe, ih]

theorem length_sliceB (bs : List Byte) (off n : Nat) : (sliceB bs off n).length = n := by
  simp [sliceB]

/-- Bytes past the end of a string read 0. -/
theorem getD_sliceB_zero (bs : List Byte) {n i : Nat} (h : i < n) : (sliceB bs 0 n).getD i 0 = bs.getD i 0 := by
  unfold sliceB
  rw [List.drop_zero]
  by_cases hi : i < bs.length
  · rw [List.getD_append _ _ _ _ (by simp; omega), List.getD_eq_getElem _ _ (by simp; omega), List.getD_eq_getElem _ _ hi, List.getElem_take]
  · have hfill : i - (bs.take n).length < n - (bs.take n).length := by rw [List.length_take]; omega
    rw [List.getD_append_right _ _ _ _ (by simp; omega), List.getD_replicate _ hfill, List.getD_eq_default _ _ (by omega)]

theorem length_overlay {bs new : List Byte} {off : Nat} (h : off + new.length ≤ bs.length) : (overlay bs off new).length = bs.length := by
  simp only [overlay, List.length_append, List.length_take, List.length_drop]
  omega

theorem getD_overlay {bs new : List Byte} {off : Nat} (h : off + new.length ≤ bs.length) (i : Nat) :
    (overlay bs off new).getD i 0 = if off ≤ i ∧ i < off + new.length then new.getD (i - off) 0 else bs.getD i 0 := by
  have hoff : (bs.take off).length = off := by rw [List.length_take]; omega
  rw [overlay, List.take_of_length_le (l := new) (by omega), List.append_assoc]
  rcases Nat.lt_or_ge i off with hi | hi
  · rw [List.getD_append _ _ _ _ (by omega), if_neg (by omega)]
    simp [List.getD_eq_getElem?_getD, hi]
  · rw [List.getD_append_right _ _ _ _ (by omega), hoff]
    rcases Nat.lt_or_ge i (off + new.length) with hi' | hi'
    · rw [List.getD_append _ _ _ _ (by omega), if_pos ⟨hi, hi'⟩]
    · rw [List.getD_append_right _ _ _ _ (by omega), if_neg (by omega), List.getD_eq_getElem?_getD, List.getElem?_drop,
        ← List.getD_eq_getElem?_getD]
      congr 1
      omega

theorem exec_fetDescWrite {s : State} {c : ClusterId} {word : Fin 32} {v : W32} (hd : s.dieOn c.die = true)
    (h : Recovered (s.descWrite c word v)) : exec (.fetDescWrite c word v) s = .next (s.descWrite c word v) :=
  onDie_of_recovered (fun s => s.descWrite c word v) hd h

theorem descriptorWindowWrite : DescriptorWindowWrite := by
  intro s c word v hdie hrec q
  refine ⟨fun hb => ?idle, fun hb => ?busy⟩
  case idle =>
    have hwrite : s.descWrite c word v =
        s.setFq c q { s.fq c q with desc := overlay (sliceB (s.fq c q).desc 0 128) (4 * word.val) (natLe 4 v.toNat) } :=
      if_neg (by rw [hb]; decide)
    have hfits : 4 * word.val + (natLe 4 v.toNat).length ≤ (sliceB (s.fq c q).desc 0 128).length := by
      rw [length_natLe, length_sliceB]
      omega
    refine ⟨_, exec_fetDescWrite hdie (by rw [hwrite]; exact hrec), ?_⟩
    rw [hwrite, State.fq_setFq_same]
    refine ⟨rfl, sameBytes_of_mem rfl, (length_overlay hfits).trans (length_sliceB _ _ _), fun i hi => ?_⟩
    rw [getD_overlay hfits, length_natLe, getD_sliceB_zero _ hi]
  case busy =>
    have hwrite : s.descWrite c word v = s.fetErr c q F.fetErrDescWriteWhileBusy := if_pos hb
    refine ⟨_, exec_fetDescWrite hdie (by rw [hwrite]; exact hrec), ?_⟩
    rw [hwrite]
    exact ⟨rfl, fetErr_shows s c (fetQsel_lt s c) rfl (by decide) rfl⟩

/-! ### ENABLE (R272, R279, R288, R289) -/

/-- What a fetch engine changes as it completes, posts and parks: registers of its queues, its table, delivered blocks and posts. -/
def QueuesChanged (c : ClusterId) (s t : State) : Prop :=
  (∃ regs fetch posts clusters, t = { s with regs := regs, fetch := fetch, posts := posts, clusters := clusters }) ∧
    ∀ k < c.base + 0xC00, t.rd k = s.rd k

section
variable {s t u : State} {c : ClusterId}

theorem QueuesChanged.refl (c : ClusterId) (s : State) : QueuesChanged c s s := ⟨⟨_, _, _, _, rfl⟩, fun _ _ => rfl⟩

theorem QueuesChanged.trans (h : QueuesChanged c s t) (h' : QueuesChanged c t u) : QueuesChanged c s u := by
  obtain ⟨⟨regs, fetch, posts, clusters, rfl⟩, hrd⟩ := h
  obtain ⟨⟨regs', fetch', posts', clusters', rfl⟩, hrd'⟩ := h'
  exact ⟨⟨_, _, _, _, rfl⟩, fun k hk => (hrd' k hk).trans (hrd k hk)⟩

theorem QueuesChanged.sf (h : QueuesChanged c s t) (q : Nat) (f : Fld) (x : Nat) : QueuesChanged c s (t.sf (c.fetchBase q) f x) :=
  h.trans ⟨⟨_, _, _, _, rfl⟩, fun k hk => t.rd_sf_ne _ k f x (by unfold ClusterId.fetchBase; omega)⟩

theorem QueuesChanged.bump (h : QueuesChanged c s t) (q : Nat) (f : Fld) (n : Nat) : QueuesChanged c s (t.bump (c.fetchBase q) f n) :=
  h.sf q f _

theorem QueuesChanged.ite {p : Prop} [Decidable p] (h : QueuesChanged c s t) (h' : QueuesChanged c s u) :
    QueuesChanged c s (if p then t else u) := by
  split
  · exact h
  · exact h'

theorem QueuesChanged.setFq (h : QueuesChanged c s t) (q : Nat) (x : FetchQ) : QueuesChanged c s (t.setFq c q x) :=
  h.trans ⟨⟨_, _, _, _, rfl⟩, fun _ _ => rfl⟩

theorem QueuesChanged.setCl (h : QueuesChanged c s t) (x : Cluster) : QueuesChanged c s (t.setCl c x) :=
  h.trans ⟨⟨_, _, _, _, rfl⟩, fun _ _ => rfl⟩

theorem QueuesChanged.postReady (h : QueuesChanged c s t) (q : Nat) (d : Desc) : QueuesChanged c s (t.postReady c q d) := by
  unfold State.postReady State.postFor State.post
  refine h.trans ?_
  split_ifs <;> exact ⟨⟨_, _, _, _, rfl⟩, fun _ _ => rfl⟩

theorem QueuesChanged.queueDone (h : QueuesChanged c s t) (q : Nat) (d : Desc) : QueuesChanged c s (t.queueDone c q d) := by
  have hposts : QueuesChanged c t (t.postDone c q d) := by
    obtain ⟨posts, hposts⟩ := postDone_fields t c q d
    rw [hposts]
    exact ⟨⟨_, _, _, _, rfl⟩, fun _ _ => rfl⟩
  exact (((h.trans hposts).setFq q _).sf q _ _).sf q _ _

theorem QueuesChanged.parkPause (h : QueuesChanged c s t) (q : Nat) : QueuesChanged c s (t.parkPause c q) := by
  unfold State.parkPause State.setCursor
  dsimp only
  split
  · exact ((((h.setFq q _).sf q _ _).sf q _ _).sf q _ _).sf q _ _
  · exact h

theorem QueuesChanged.postRow (h : QueuesChanged c s t) (q : Nat) : QueuesChanged c s (t.postRow c q) := by
  unfold State.postRow
  refine .ite (.queueDone (.setFq ?posted q _) q _) (.parkPause (.setFq ?posted q _) q)
  refine .ite ?counted (.sf ?counted q _ _)
  refine .bump (.ite (.postReady ?blocks q _) ?blocks) q _ _
  exact .ite (h.setCl _) h

theorem QueuesChanged.postRows (h : QueuesChanged c s t) (q fuel : Nat) : QueuesChanged c s (t.postRows c q fuel) := by
  induction fuel generalizing t with
  | zero => exact h
  | succ fuel ih =>
    simp only [State.postRows]
    split
    · exact ih (h.postRow q)
    · exact h

theorem QueuesChanged.fetchAgain (h : QueuesChanged c s t) (q : Nat) : QueuesChanged c s (t.fetchAgain c q) := by
  unfold State.fetchAgain
  dsimp only
  split
  · exact h
  · split
    · exact h.queueDone q _
    · exact (h.postRows q _).parkPause q

end

theorem QueuesChanged.foldl_fetchAgain (c : ClusterId) (s : State) (qs : List Nat) : QueuesChanged c s (qs.foldl (fun s q => s.fetchAgain c q) s) :=
  foldl_prop (QueuesChanged c s) _ (fun _ q h => h.fetchAgain q) qs s (.refl c s)

section
variable (s : State) (c : ClusterId) (v : W32)

theorem postRows_eq_self {q : Nat} (h : (s.fq c q).row ≤ (s.fq c q).posted) (fuel : Nat) : s.postRows c q fuel = s := by
  cases fuel with
  | zero => rfl
  | succ fuel => simp [State.postRows, Nat.not_lt.mpr h]

theorem parkPause_eq_self {q : Nat} (h : (s.fq c q).pausing = false) : s.parkPause c q = s := by
  simp [State.parkPause, h]

theorem tryPause_eq_self {n : Nat} (h : (s.ses n).pauseTo = none) : s.tryPause n = s := by
  simp only [State.tryPause, h]

/-- Queue q has nothing to complete, to post or to park. -/
def AtRest (q : Nat) : Prop :=
  (parseDesc (s.fq c q).desc).empty = false ∧ (s.fq c q).row ≤ (s.fq c q).posted ∧ (s.fq c q).pausing = false

/-- A queue stays as it is while its engine is not enabled, while it runs no transfer, and while it has nothing to do but issue. -/
theorem fetchAgain_eq_self {q : Nat} (h : s.fetchOn c = true → s.fqBusy c q = true → AtRest s c q) : s.fetchAgain c q = s := by
  unfold State.fetchAgain
  cases hon : s.fetchOn c with
  | false => simp
  | true =>
    cases hb : s.fqBusy c q with
    | false => simp
    | true =>
      obtain ⟨hdesc, hrow, hpause⟩ := h hon hb
      simp [hdesc, postRows_eq_self s c hrow, parkPause_eq_self s c hpause]

/-- FET_CTRL with its ENABLE written, before the queues go on. -/
def enableWritten : State := s.sf c.base F.fetCtrlEnable (getF v 0 0)

theorem enable_enableWritten : (enableWritten s c v).rf c.base F.fetCtrlEnable = getF v 0 0 :=
  s.rf_sf_small _ F.fetCtrlEnable _ (by decide) (by decide) (getF_lt v 0 0)

theorem fqBusy_enableWritten (q : Nat) : (enableWritten s c v).fqBusy c q = s.fqBusy c q :=
  congrArg (· != Fq.idle) (rf_fetchBase_sf_base s c q _ (by decide))

/-- Where no session waits to pause, a write of FET_CTRL lets the queues go on one after the other and does nothing else. -/
theorem fetchCtrl_eq (h : ∀ n, (s.ses n).pauseTo = none) :
    s.fetchCtrl c v = (List.range 64).foldl (fun s q => s.fetchAgain c q) (enableWritten s c v) := by
  obtain ⟨⟨regs, fetch, posts, clusters, hfields⟩, -⟩ := QueuesChanged.foldl_fetchAgain c (enableWritten s c v) (List.range 64)
  refine List.foldl_fixed' (fun n => tryPause_eq_self _ ?_) _
  rw [← enableWritten, hfields]
  exact h n

/-- When every busy queue of an enabled engine is at rest, the queues stay as they are. -/
theorem foldl_fetchAgain_eq_self (h : ∀ q < 64, s.fetchOn c = true → s.fqBusy c q = true → AtRest s c q) :
    (List.range 64).foldl (fun s q => s.fetchAgain c q) s = s := by
  refine List.foldlRecOn (motive := (· = s)) _ _ rfl ?_
  rintro _ rfl q hq
  exact fetchAgain_eq_self _ c (h q (List.mem_range.mp hq))

theorem exec_fetCtrlEnable (hd : s.dieOn c.die = true) (h : Recovered (s.fetchCtrl c v)) :
    exec (.fetCtrlEnable c v) s = .next (s.fetchCtrl c v) :=
  onDie_of_recovered (fun s => s.fetchCtrl c v) hd h

end

theorem fetchEnable : FetchEnable := by
  intro s c v hdie hrec hpause
  obtain ⟨⟨regs, fetch, posts, clusters, hfields⟩, hrd⟩ := QueuesChanged.foldl_fetchAgain c (enableWritten s c v) (List.range 64)
  rw [← fetchCtrl_eq s c v hpause] at hfields hrd
  refine ⟨_, exec_fetCtrlEnable s c v hdie (by rw [hfields]; exact hrec), ?enable, sameBytes_of_mem (by rw [hfields]; rfl), by rw [hfields]; rfl,
    fun hrest => ?rest⟩
  case enable =>
    rw [State.rf, hrd _ (by simp)]
    exact enable_enableWritten s c v
  case rest =>
    have hsame : s.fetchCtrl c v = enableWritten s c v := by
      rw [fetchCtrl_eq s c v hpause]
      refine foldl_fetchAgain_eq_self _ c fun q hq hon hb => ?_
      rw [fqBusy_enableWritten] at hb
      rcases hrest with hoff | hrest
      · simp [State.fetchOn, State.bit, enable_enableWritten, hoff] at hon
      · exact hrest q hq hb
    rw [hsame]
    exact ⟨rfl, fun k hk => s.rd_sf_ne _ k _ _ (by simpa using hk)⟩

/-- Settles O19: each command changes the engine's own tables, and its field reads back past the others. -/
theorem fetchRegisters : Obligations.FetchRegisters :=
  ⟨armStartsTransfer, abortStopsQueue, descriptorWindowWrite, fetchEnable⟩

end Sys2Proof.Proofs
end

section
/-!
PROOFS. The slots of logical clusters: an LCLUS gives back its die, region and number (R161), the seat of a logical cluster stands for that
logical cluster (R471), and a tile-step is checked by the same logical cluster of another region (R447).
-/

namespace Sys2Proof.Proofs

open Machine Claims

/-! ### The fields of an LCLUS (R161) -/

section
variable {d r n : Nat}

theorem die_of_lclusOf (hd : d < 25) : fieldN (lclusOf d r n) 4 0 = d := by
  simp only [fieldN, lclusOf]
  omega

theorem region_of_lclusOf (hd : d < 25) (hr : r < 8) : fieldN (lclusOf d r n) 7 5 = r := by
  simp only [fieldN, lclusOf]
  omega

theorem number_of_lclusOf (hd : d < 25) (hr : r < 8) (hn : n < 16) : fieldN (lclusOf d r n) 11 8 = n := by
  simp only [fieldN, lclusOf]
  omega

/-- A field of four bits holds the number of a logical cluster. -/
theorem lclusNumber_lt (l : Nat) : fieldN l 11 8 < 16 := Nat.mod_lt _ (by decide)

end

/-! ### The seat of a logical cluster (R471) -/

section
variable (s : State)

theorem seat_lt {n : Nat} (d r : Nat) (hn : n < 16) : s.seat d r n < 17 := by
  simp only [State.seat]
  split <;> omega

theorem physOf_lclusOf {n : Nat} (d : Die) (r : Fin 8) (hn : n < 16) :
    s.physOf (lclusOf d r n) = some { die := d, region := r, slot := ⟨s.seat d r n, seat_lt s d r hn⟩ } := by
  simp only [State.physOf, die_of_lclusOf d.isLt, region_of_lclusOf d.isLt r.isLt, number_of_lclusOf d.isLt r.isLt hn]
  rw [dif_pos d.isLt, dif_pos ⟨r.isLt, seat_lt s d r hn⟩]

theorem regionOk_eq_true_iff (d r : Nat) :
    s.regionOk d r = true ↔ fused d r = false ∧ s.lost d r = false ∧ s.chart.failedDies.getLsbD d = false := by
  simp [State.regionOk, and_assoc]

/-- In a usable region the seat of a logical cluster stands for it: slot 16 for the one it substitutes, its own slot for any other. -/
theorem logical_seat {d r n : Nat} (hok : s.regionOk d r = true) (hn : n < 16) : s.logical d r (s.seat d r n) = some n := by
  by_cases hsub : bitN (s.regionWord d r) 51 = true ∧ fieldN (s.regionWord d r) 55 52 = n
  · have hseat : s.seat d r n = 16 := if_pos hsub
    simp [State.logical, hok, hseat, hsub]
  · have hseat : s.seat d r n = n := if_neg hsub
    simp [State.logical, hok, hseat, hsub, hn.ne]

theorem lclusOfCluster_of_logical {c : ClusterId} {n : Nat} (h : s.logical c.die c.region c.slot = some n) :
    s.lclusOfCluster c = lclusOf c.die c.region n := by
  simp [State.lclusOfCluster, h]

end

theorem logicalClusterSlots : LogicalClusterSlots := by
  intro s d r n hfused hlost
  refine ⟨_, physOf_lclusOf s d r n.isLt, rfl, rfl, rfl, fun hdie => ?_⟩
  have hlog := logical_seat s ((regionOk_eq_true_iff s d r).mpr ⟨hfused, hlost, hdie⟩) n.isLt
  exact ⟨hlog, lclusOfCluster_of_logical s hlog⟩

/-! ### Who checks (R447) -/

/-- The draw of R446 goes through the seven regions of a die other than the one it starts from. -/
theorem drawn_region_ne (g y : Nat) : (g + 1 + y % 7) % 8 ≠ g := by omega

/-- A checker is the same logical cluster, in a usable region of the die that is not the cluster's own. -/
theorem exists_region_of_mem_checkers (s : State) {c k : ClusterId} {t : Tile} (h : k ∈ s.checkers c t) :
    ∃ r : Fin 8, r ≠ c.region ∧ s.regionOk c.die r = true ∧
      s.physOf (lclusOf c.die r (fieldN (s.lclusOfCluster c) 11 8)) = some k := by
  obtain ⟨r, hmem, hphys⟩ := List.mem_filterMap.mp h
  obtain ⟨hdrawn, hok⟩ := List.mem_filter.mp hmem
  obtain ⟨i, -, rfl⟩ := List.mem_map.mp hdrawn
  exact ⟨⟨_, Nat.mod_lt _ (by decide)⟩, Fin.ne_of_val_ne (drawn_region_ne c.region _), hok, hphys⟩

theorem checksRunElsewhere : ChecksRunElsewhere := by
  intro s c k t hk
  obtain ⟨r, hne, hok, hphys⟩ := exists_region_of_mem_checkers s hk
  rw [physOf_lclusOf s c.die r (lclusNumber_lt _)] at hphys
  obtain rfl := Option.some.inj hphys
  exact ⟨rfl, hne, hok, rfl⟩

/-- Settles O37: an LCLUS leads to the seat of its logical cluster, which in a usable region stands for it, and a checker is the seat of the
tile-step's logical cluster in a region the draw gives. -/
theorem clustersAndChecks : Obligations.ClustersAndChecks := ⟨logicalClusterSlots, checksRunElsewhere⟩

end Sys2Proof.Proofs
end
